-- ==== Sys2Proof/Word.lean ====
section
/-! DEFINITION. Sys2Proof/Word.lean: the machine's words and the plain data that instructions and inputs carry
(who executes, event records, link flits, register names of the host window). -/

namespace Sys2Proof

/-- A 64-bit word (R6). -/
abbrev Word := BitVec 64

/-- A byte of memory (R6). -/
abbrev Byte := BitVec 8

/-- One lane row: a bit for each of the 16,384 visible lanes of a core, lane `i` at bit `i` (R107). -/
abbrev Plane := BitVec 16384

/-- A physical core: compute die 0-7, physical cluster 0-65, core 0-7 (R2, R98 PCORE). -/
structure CoreId where
  die : Nat
  cluster : Nat
  core : Nat
  deriving DecidableEq, Repr

/-- Which thread of a hart: the access sequencer, the execute sequencer, or micro-thread `k` of a split (R13, R207). -/
inductive Who
  /-- The access sequencer A. -/
  | a
  /-- The execute sequencer E, not split. -/
  | e
  /-- Micro-thread `k` of E while split. -/
  | mt (k : Fin 16)
  deriving DecidableEq, Repr

/-- An event record of 32 bytes (R247); bytes 4-7 hold `seq`, 0 but in the host event ring (R374). -/
structure EvRec where
  typ : BitVec 8
  flags : BitVec 8
  source : BitVec 16
  seq : BitVec 32
  gts : Nat
  p0 : Word
  p1 : Word
  deriving DecidableEq, Repr

/-- A link flit of 256 bytes (R391): the header's fields, the 240 payload bytes, and whether its CRC-64 is right. -/
structure Flit where
  seq : BitVec 16
  ack : BitVec 16
  av : Bool
  nak : Bool
  kind : BitVec 4
  dnode : BitVec 12
  snode : BitVec 12
  vc : BitVec 2
  payload : List Byte
  crc : BitVec 64
  deriving DecidableEq, Repr

/-- The registers of the host adapter's register window (R395: R356, R374, R385, R407). -/
inductive RegName
  | qcfg (q : Nat)
  | qbase (q : Nat)
  | qtail (q : Nat)
  | qhead (q : Nat)
  | hevcfg
  | hevbase
  | hevtail
  | hevhead
  | pwrctl
  | leasecfg
  | leasestat
  deriving DecidableEq, Repr

/-- What the host driver sets through the management controller (R398, R400, R376), and the node numbers that the controller itself
assigns (R390). -/
inductive MgmtCfg
  /-- The route table's entry of a node: the port it names, or none (R398). -/
  | route (node : BitVec 12) (port : Option Nat)
  /-- The access table holds (or no longer holds) the pair (node and context, local context) (R398). -/
  | access (node : BitVec 12) (ctx rctx : BitVec 16) (present : Bool)
  /-- A reduction group: its members (node and core) and its root switch (R400). -/
  | group (num : Nat) (members : List (BitVec 12 × CoreId)) (root : BitVec 12)
  /-- The management controller assigns a link its node number at boot (R390). -/
  | node (port : Nat) (node : BitVec 12)
  /-- A free frame of 2 MiB granted to the migration engine (R376). -/
  | freeFrame (frame : Nat)
  deriving DecidableEq, Repr

/-- Sign extension of the low `n` bits of a number read as an integer. -/
def sextNat (n x : Nat) : Int :=
  let y := x % 2 ^ n
  if 2 ^ n ≤ 2 * y then (y : Int) - (2 ^ n : Nat) else y

end Sys2Proof
end

