-- ==== Sys2Proof/Syntax.lean ====
section
/-! DEFINITION. Sys2Proof/Syntax.lean: the instructions of the Daxren as data, one constructor for each row of the
opcode table. Operands of an encoded instruction keep the name and the width of the table's own field (R39, R41); an
operand whose low bits the encoding fixes at zero (LDQ, STQ, VRLDLE, EVRD, BWRED) holds the field's remaining bits.
An operation or event row has no bits; its operands say which agent it concerns and carry the input it brings. -/

namespace Sys2Proof

/-- One constructor for each row of the opcode table; the docstring names the rule that gives its effect. -/
inductive Instr where
  /-- ADD, R60. Writes the 64-bit sum of ga and gb to gd. -/
  | add (d a b : BitVec 5) (f g : BitVec 1)
  /-- SUB, R60. Writes ga minus gb, modulo 2^64, to gd. -/
  | sub (d a b : BitVec 5) (f g : BitVec 1)
  /-- MUL, R60. Writes the low 64 bits of the product of ga and gb to gd. -/
  | mul (d a b : BitVec 5) (f g : BitVec 1)
  /-- MULH, R60. Writes bits 127:64 of the signed product of ga and gb to gd. -/
  | mulh (d a b : BitVec 5) (f g : BitVec 1)
  /-- MULHN, R60. Writes bits 127:64 of the unsigned product of ga and gb to gd. -/
  | mulhn (d a b : BitVec 5) (f g : BitVec 1)
  /-- DIV, R61. Writes the signed quotient of ga by gb to gd, rounded toward zero, with the fixed results for zero and overflow. -/
  | div (d a b : BitVec 5) (f g : BitVec 1)
  /-- DIVN, R61. Writes the unsigned quotient of ga by gb to gd. -/
  | divn (d a b : BitVec 5) (f g : BitVec 1)
  /-- REM, R61. Writes the signed remainder of ga by gb to gd. -/
  | rem (d a b : BitVec 5) (f g : BitVec 1)
  /-- REMN, R61. Writes the unsigned remainder of ga by gb to gd. -/
  | remn (d a b : BitVec 5) (f g : BitVec 1)
  /-- AND, R60. Writes the bitwise AND of ga and gb to gd. -/
  | and (d a b : BitVec 5) (f g : BitVec 1)
  /-- OR, R60. Writes the bitwise OR of ga and gb to gd. -/
  | or (d a b : BitVec 5) (f g : BitVec 1)
  /-- XOR, R60. Writes the bitwise XOR of ga and gb to gd. -/
  | xor (d a b : BitVec 5) (f g : BitVec 1)
  /-- ANDN, R60. Writes ga AND NOT gb to gd. -/
  | andn (d a b : BitVec 5) (f g : BitVec 1)
  /-- SHL, R60. Shifts ga left by gb[5:0] into gd. -/
  | shl (d a b : BitVec 5) (f g : BitVec 1)
  /-- SHR, R60. Shifts ga right logically by gb[5:0] into gd. -/
  | shr (d a b : BitVec 5) (f g : BitVec 1)
  /-- SAR, R60. Shifts ga right arithmetically by gb[5:0] into gd. -/
  | sar (d a b : BitVec 5) (f g : BitVec 1)
  /-- MIN, R60. Writes the signed lesser of ga and gb to gd. -/
  | min (d a b : BitVec 5) (f g : BitVec 1)
  /-- MAX, R60. Writes the signed greater of ga and gb to gd. -/
  | max (d a b : BitVec 5) (f g : BitVec 1)
  /-- MINN, R60. Writes the unsigned lesser of ga and gb to gd. -/
  | minn (d a b : BitVec 5) (f g : BitVec 1)
  /-- MAXN, R60. Writes the unsigned greater of ga and gb to gd. -/
  | maxn (d a b : BitVec 5) (f g : BitVec 1)
  /-- SLT, R60. Writes 1 to gd if ga is less than gb, signed, and 0 otherwise. -/
  | slt (d a b : BitVec 5) (f g : BitVec 1)
  /-- SLTN, R60. Writes 1 to gd if ga is less than gb, unsigned, and 0 otherwise. -/
  | sltn (d a b : BitVec 5) (f g : BitVec 1)
  /-- CLZ, R60. Writes the number of leading zero bits of ga to gd. -/
  | clz (d a : BitVec 5) (f : BitVec 1)
  /-- CTZ, R60. Writes the number of trailing zero bits of ga to gd. -/
  | ctz (d a : BitVec 5) (f : BitVec 1)
  /-- POPC, R60. Writes the number of one bits of ga to gd. -/
  | popc (d a : BitVec 5) (f : BitVec 1)
  /-- MOV, R60. Copies ga to gd. -/
  | mov (d a : BitVec 5) (f : BitVec 1)
  /-- GFULL, R62. Writes 1 to gd if ga is full and 0 if it is empty, without waiting. -/
  | gfull (d a : BitVec 5)
  /-- GEMPTY, R62. Waits for any outstanding fill of gd, then marks gd empty and keeps its bits. -/
  | gempty (d : BitVec 5)
  /-- ADDI, R63. Writes ga plus the sign-extended imm15 to gd. -/
  | addi (d a : BitVec 5) (f : BitVec 1) (i : BitVec 15)
  /-- ANDI, R63. Writes ga AND the sign-extended imm15 to gd. -/
  | andi (d a : BitVec 5) (f : BitVec 1) (i : BitVec 15)
  /-- ORI, R63. Writes ga OR the sign-extended imm15 to gd. -/
  | ori (d a : BitVec 5) (f : BitVec 1) (i : BitVec 15)
  /-- XORI, R63. Writes ga XOR the sign-extended imm15 to gd. -/
  | xori (d a : BitVec 5) (f : BitVec 1) (i : BitVec 15)
  /-- SHLI, R63. Shifts ga left by an immediate amount into gd. -/
  | shli (d a : BitVec 5) (f : BitVec 1) (n : BitVec 6)
  /-- SHRI, R63. Shifts ga right logically by an immediate amount into gd. -/
  | shri (d a : BitVec 5) (f : BitVec 1) (n : BitVec 6)
  /-- SARI, R63. Shifts ga right arithmetically by an immediate amount into gd. -/
  | sari (d a : BitVec 5) (f : BitVec 1) (n : BitVec 6)
  /-- SLTI, R63. Writes 1 to gd if ga is less than the sign-extended imm15, signed. -/
  | slti (d a : BitVec 5) (f : BitVec 1) (i : BitVec 15)
  /-- INS16, R63. Replaces one 16-bit slot of gd with imm16 and keeps the other bits. -/
  | ins16 (d : BitVec 5) (s : BitVec 2) (i : BitVec 16)
  /-- LDI, R63. Writes the sign-extended imm21 to gd. -/
  | ldi (d : BitVec 5) (i : BitVec 21)
  /-- LDB, R66. Loads a byte, sign-extended, into gd. -/
  | ldb (d a : BitVec 5) (f : BitVec 1) (o : BitVec 12)
  /-- LDBZ, R66. Loads a byte, zero-extended, into gd. -/
  | ldbz (d a : BitVec 5) (f : BitVec 1) (o : BitVec 12)
  /-- LDH, R66. Loads a half, sign-extended, into gd. -/
  | ldh (d a : BitVec 5) (f : BitVec 1) (o : BitVec 12)
  /-- LDHZ, R66. Loads a half, zero-extended, into gd. -/
  | ldhz (d a : BitVec 5) (f : BitVec 1) (o : BitVec 12)
  /-- LDW, R66. Loads a 32-bit value, sign-extended, into gd. -/
  | ldw (d a : BitVec 5) (f : BitVec 1) (o : BitVec 12)
  /-- LDWZ, R66. Loads a 32-bit value, zero-extended, into gd. -/
  | ldwz (d a : BitVec 5) (f : BitVec 1) (o : BitVec 12)
  /-- LDD, R66. Loads an 8-byte word into gd. -/
  | ldd (d a : BitVec 5) (f : BitVec 1) (o : BitVec 12)
  /-- LDQ, R66. Loads 16 bytes into the even register pair gd, gd+1. -/
  | ldq (d : BitVec 4) (a : BitVec 5) (f : BitVec 1) (o : BitVec 12)
  /-- STB, R67. Stores the low byte of gs. -/
  | stb (s a : BitVec 5) (f : BitVec 1) (o : BitVec 12)
  /-- STH, R67. Stores the low 2 bytes of gs. -/
  | sth (s a : BitVec 5) (f : BitVec 1) (o : BitVec 12)
  /-- STW, R67. Stores the low 4 bytes of gs. -/
  | stw (s a : BitVec 5) (f : BitVec 1) (o : BitVec 12)
  /-- STD, R67. Stores the 8 bytes of gs. -/
  | std (s a : BitVec 5) (f : BitVec 1) (o : BitVec 12)
  /-- STQ, R67. Stores the even register pair gs, gs+1 as 16 bytes. -/
  | stq (s : BitVec 4) (a : BitVec 5) (f : BitVec 1) (o : BitVec 12)
  /-- BEQ, R69. Branches when ga equals gb. -/
  | beq (a b : BitVec 5) (f g : BitVec 1) (o : BitVec 11)
  /-- BNE, R69. Branches when ga differs from gb. -/
  | bne (a b : BitVec 5) (f g : BitVec 1) (o : BitVec 11)
  /-- BLT, R69. Branches when ga is less than gb, signed. -/
  | blt (a b : BitVec 5) (f g : BitVec 1) (o : BitVec 11)
  /-- BGE, R69. Branches when ga is at least gb, signed. -/
  | bge (a b : BitVec 5) (f g : BitVec 1) (o : BitVec 11)
  /-- BLTN, R69. Branches when ga is less than gb, unsigned. -/
  | bltn (a b : BitVec 5) (f g : BitVec 1) (o : BitVec 11)
  /-- BGEN, R69. Branches when ga is at least gb, unsigned. -/
  | bgen (a b : BitVec 5) (f g : BitVec 1) (o : BitVec 11)
  /-- BMZ, R161. Branches when no element below VL is true in the top of the mask stack. -/
  | bmz (o : BitVec 11)
  /-- BOQ, R95. Pops the branch-outcome queue, waiting while it is empty, and branches when the bit is 1. -/
  | boq (o : BitVec 11)
  /-- JMP, R70. Jumps to the PC-relative target. -/
  | jmp (o : BitVec 26)
  /-- CALL, R70. Pushes the return address, raises CLVL and jumps to the PC-relative target. -/
  | call (o : BitVec 26)
  /-- RET, R70. Pops the return stack, lowers CLVL, discards loops of the returning level and jumps. -/
  | ret
  /-- CALLR, R70. Pushes the return address, raises CLVL and jumps to the address in ga. -/
  | callr (a : BitVec 5)
  /-- JMPR, R70. Jumps to the address in ga. -/
  | jmpr (a : BitVec 5)
  /-- LEXIT, R77. Pops the innermost loop entry of the current call level and continues after its body. -/
  | lexit
  /-- LIDX, R78. Writes the index of the loop entry at the given level to gd. -/
  | lidx (d : BitVec 5) (l : BitVec 3)
  /-- LCNT, R78. Writes the remaining count of the loop entry at the given level to gd. -/
  | lcnt (d : BitVec 5) (l : BitVec 3)
  /-- YIELD, R106. Marks an iteration boundary at which a pending pre-emption parks the sequencer; otherwise a NOP. -/
  | yield
  /-- NOP, R79. Only advances PC. -/
  | nop
  /-- BOPUSH, R95. Appends ga[0] to the branch-outcome queue, waiting while it holds 32 entries. -/
  | bopush (a : BitVec 5)
  /-- LOOP, R73. Pushes a hardware loop entry with the count in ga, or skips the body when the count is 0. -/
  | loop (a : BitVec 5) (e : BitVec 16)
  /-- LOOPI, R73. Pushes a hardware loop entry with an immediate count of 1 to 1,024. -/
  | loopi (c : BitVec 10) (e : BitVec 16)
  /-- CSRRD, R80. Reads a CSR into gd after the access checks. -/
  | csrrd (d : BitVec 5) (c : BitVec 12)
  /-- CSRWR, R80. Writes ga to the RW fields of a CSR and clears the W1C bits set in ga. -/
  | csrwr (a : BitVec 5) (c : BitVec 12)
  /-- CSRSET, R80. Sets the RW bits of a CSR that are set in ga and clears the W1C bits set in ga. -/
  | csrset (a : BitVec 5) (c : BitVec 12)
  /-- CSRCLR, R80. Clears the RW bits of a CSR that are set in ga. -/
  | csrclr (a : BitVec 5) (c : BitVec 12)
  /-- TRAP, R81. Completes and then raises SYSCALL with the immediate as TVAL. -/
  | trap (n : BitVec 12)
  /-- RETT, R82. Returns from a trap handler to TPC, restoring privilege and the pending-prefix bit and lowering CLVL. -/
  | rett
  /-- HALT, R83. Waits for earlier instructions, fills and stores to complete, then stops the sequencer. -/
  | halt
  /-- GTSRD, R84. Serialises the sequencer and writes GTS to gd. -/
  | gtsrd (d : BitVec 5)
  /-- EVRD, R85. Removes the oldest removable event record into gd..gd+3, leaving them empty until one is removable. -/
  | evrd (d : BitVec 3)
  /-- EVWAIT, R86. Stalls until the core's event queue holds a removable record. -/
  | evwait
  /-- WAITA, R87. Reloads a word until it differs from gd, then writes it to gd with acquire at system scope. -/
  | waita (d a : BitVec 5)
  /-- FENCE, R89. Orders the selected pairs of the stream's accesses at a scope and waits for posted reductions. -/
  | fence (o : BitVec 4) (s : BitVec 3)
  /-- SBAR, R90. Waits until the named spool and sequencer streams have performed their issued accesses at system scope. -/
  | sbar (a : BitVec 5)
  /-- IFENCE, R91. Waits for the hart's stores at core scope, then invalidates the instruction cache and prefetched instructions. -/
  | ifence
  /-- TLBINV_ALL, R92. Removes all cached translations on the core or package. -/
  | tlbinvAll (a : BitVec 5) (r : BitVec 1)
  /-- TLBINV_PAGE, R92. Removes the cached translations that map the address in ga in the current context. -/
  | tlbinvPage (a : BitVec 5) (r : BitVec 1)
  /-- TLBINV_CONTEXT, R92. Removes all non-global cached translations of the context number in ga. -/
  | tlbinvContext (a : BitVec 5) (r : BitVec 1)
  /-- ATADD, R302. Atomically adds gb to a word and returns the old value. -/
  | atadd (d a b : BitVec 5) (f g : BitVec 1) (o : BitVec 2) (s : BitVec 3)
  /-- ATSWP, R302. Atomically swaps gb into a word and returns the old value. -/
  | atswp (d a b : BitVec 5) (f g : BitVec 1) (o : BitVec 2) (s : BitVec 3)
  /-- ATCAS, R302. Atomically writes gb when the word equals gd and returns the old value. -/
  | atcas (d a b : BitVec 5) (f g : BitVec 1) (o : BitVec 2) (s : BitVec 3)
  /-- ATMIN, R302. Atomically stores the signed lesser of the word and gb and returns the old value. -/
  | atmin (d a b : BitVec 5) (f g : BitVec 1) (o : BitVec 2) (s : BitVec 3)
  /-- ATMAX, R302. Atomically stores the signed greater of the word and gb and returns the old value. -/
  | atmax (d a b : BitVec 5) (f g : BitVec 1) (o : BitVec 2) (s : BitVec 3)
  /-- ATMINN, R302. Atomically stores the unsigned lesser of the word and gb and returns the old value. -/
  | atminn (d a b : BitVec 5) (f g : BitVec 1) (o : BitVec 2) (s : BitVec 3)
  /-- ATMAXN, R302. Atomically stores the unsigned greater of the word and gb and returns the old value. -/
  | atmaxn (d a b : BitVec 5) (f g : BitVec 1) (o : BitVec 2) (s : BitVec 3)
  /-- ATAND, R302. Atomically ANDs gb into a word and returns the old value. -/
  | atand (d a b : BitVec 5) (f g : BitVec 1) (o : BitVec 2) (s : BitVec 3)
  /-- ATOR, R302. Atomically ORs gb into a word and returns the old value. -/
  | ator (d a b : BitVec 5) (f g : BitVec 1) (o : BitVec 2) (s : BitVec 3)
  /-- ATXOR, R302. Atomically XORs gb into a word and returns the old value. -/
  | atxor (d a b : BitVec 5) (f g : BitVec 1) (o : BitVec 2) (s : BitVec 3)
  /-- REDADD, R304. Adds gb to a word without returning a value, posted when its translation misses. -/
  | redadd (a b : BitVec 5) (f g o : BitVec 1) (s : BitVec 3)
  /-- REDMIN, R304. Stores the signed lesser of a word and gb without returning a value, possibly posted. -/
  | redmin (a b : BitVec 5) (f g o : BitVec 1) (s : BitVec 3)
  /-- REDMAX, R304. Stores the signed greater of a word and gb without returning a value, possibly posted. -/
  | redmax (a b : BitVec 5) (f g o : BitVec 1) (s : BitVec 3)
  /-- LDA, R302. Loads a word with acquire at the named scope. -/
  | lda (d a : BitVec 5) (f : BitVec 1) (s : BitVec 3)
  /-- STL, R302. Stores gb to a word with release at the named scope. -/
  | stl (a b : BitVec 5) (f g : BitVec 1) (s : BitVec 3)
  /-- SYTAS, R344. Test-and-sets a sync register at its home and returns the old value once performed at package scope. -/
  | sytas (d a : BitVec 5) (f : BitVec 1)
  /-- SYFADD, R344. Adds gb to a sync register at its home and returns the old value once performed at package scope. -/
  | syfadd (d a b : BitVec 5) (f g : BitVec 1)
  /-- SYRD, R344. Reads the local mirror of a sync register into gd. -/
  | syrd (d a : BitVec 5) (f : BitVec 1)
  /-- SYWR, R344. Writes gb to a sync register at its home and retires once performed at package scope. -/
  | sywr (a b : BitVec 5) (f g : BitVec 1)
  /-- SYWAIT, R344. Waits until the local mirror of a sync register is at least gb. -/
  | sywait (a b : BitVec 5) (f g : BitVec 1)
  /-- LDFF, R219. Waits until a tagged word is full and loads it, leaving it full. -/
  | ldff (d a : BitVec 5) (f : BitVec 1) (o : BitVec 12)
  /-- LDFE, R219. Waits until a tagged word is full, loads it and marks it empty. -/
  | ldfe (d a : BitVec 5) (f : BitVec 1) (o : BitVec 12)
  /-- STEF, R219. Waits until a tagged word is empty, stores gs and marks it full. -/
  | stef (s a : BitVec 5) (f : BitVec 1) (o : BitVec 12)
  /-- STFF, R219. Stores gs to a tagged word and marks it full without waiting. -/
  | stff (s a : BitVec 5) (f : BitVec 1) (o : BitVec 12)
  /-- FECLR, R219. Marks a tagged word empty and keeps its value. -/
  | feclr (a : BitVec 5) (f : BitVec 1) (o : BitVec 12)
  /-- FEQ, R219. Writes 1 to gd if a tagged word is full and 0 if empty. -/
  | feq (d a : BitVec 5) (f : BitVec 1) (o : BitVec 12)
  /-- VRLD, R330. Waits for version v of a versioned word and returns its value with acquire. -/
  | vrld (d a b : BitVec 5) (f g : BitVec 1)
  /-- VRLDLE, R333. Returns the newest version at or below v, base included, and its number, without waiting. -/
  | vrldle (d : BitVec 4) (a b : BitVec 5) (f g : BitVec 1)
  /-- VRST, R331. Creates version v of a versioned word with the value gd, releasing at the region's scope, waiting at the depth. -/
  | vrst (d a b : BitVec 5) (f g : BitVec 1)
  /-- VRFLOOR, R332. Raises the floor of a region, keeping the newest version below it as the base version and freeing the rest. -/
  | vrfloor (a b : BitVec 5) (f g : BitVec 1)
  /-- VRTOP, R334. Writes the number of the newest version of a word to gd. -/
  | vrtop (d a : BitVec 5) (f : BitVec 1)
  /-- VRPOLL, R334. Reports whether version v is live, below the floor, or neither. -/
  | vrpoll (d a b : BitVec 5) (f g : BitVec 1)
  /-- QPUSH, R94. Appends gs to a data queue, waiting while the queue is full. -/
  | qpush (q : BitVec 2) (s : BitVec 5)
  /-- QPOP, R94. Marks gd empty and fills it with the head of a data queue when an entry is present. -/
  | qpop (d : BitVec 5) (q : BitVec 2)
  /-- SPBIND, R236. Binds a spool to a checked copy of a descriptor and starts prefetching. -/
  | spbind (n : BitVec 4) (a : BitVec 5)
  /-- SPUNB, R239. Drains a write spool, discards prefetched elements and unbinds the spool. -/
  | spunb (n : BitVec 4)
  /-- SPDRAIN, R239. Waits until every appended element of a spool is performed at system scope. -/
  | spdrain (n : BitVec 4)
  /-- SPSTAT, R239. Writes a spool's binding state, fault code and position or faulting address to gd. -/
  | spstat (d : BitVec 5) (n : BitVec 4)
  /-- BCOPY, R243. Checks a Bobbin descriptor, waits for a free command place and issues the command, returning its ticket. -/
  | bcopy (d a : BitVec 5)
  /-- XCOPY, R398. Checks a remote-copy descriptor, waits for a free command place and issues it to a link engine, returning its ticket. -/
  | xcopy (d a : BitVec 5)
  /-- TENQ, R272. Validates a tile-task record, takes a free scheduler slot with a scale snapshot and returns the handle, or 0. -/
  | tenq (d a : BitVec 5)
  /-- TWIN, R273. Waits for the oldest committed, unreleased window of the core's part of a task. -/
  | twin (d a : BitVec 5)
  /-- TREL, R274. Releases the oldest committed, unreleased window of the core's part, allowing the next commit. -/
  | trel (a : BitVec 5)
  /-- TCANCEL, R275. Ends a tile task with status 1. -/
  | tcancel (a : BitVec 5)
  /-- BWRED, R401. Posts an index-value pair to a bellwether group, releasing, and fills gd, gd+1 with the winner on the result. -/
  | bwred (d a : BitVec 5) (b : BitVec 4)
  /-- PGMIG, R378. Checks and posts a page-migration request to the migration engine. -/
  | pgmig (a b : BitVec 5)
  /-- VADD, R147. Adds va and vb element-wise into vd under the mask. -/
  | vadd (d a b : BitVec 5) (p : BitVec 6)
  /-- VSUB, R147. Subtracts vb from va element-wise into vd. -/
  | vsub (d a b : BitVec 5) (p : BitVec 6)
  /-- VMUL, R147. Multiplies va and vb element-wise into vd. -/
  | vmul (d a b : BitVec 5) (p : BitVec 6)
  /-- VMAC, R147. Adds the product of va and vb to vd. -/
  | vmac (d a b : BitVec 5) (p : BitVec 6)
  /-- VMSB, R147. Subtracts the product of va and vb from vd. -/
  | vmsb (d a b : BitVec 5) (p : BitVec 6)
  /-- VSSA, R148. Adds va times the ternary weight in vb to vd. -/
  | vssa (d a b : BitVec 5) (p : BitVec 6)
  /-- VMIN, R147. Writes the lesser of va and vb into vd. -/
  | vmin (d a b : BitVec 5) (p : BitVec 6)
  /-- VMAX, R147. Writes the greater of va and vb into vd. -/
  | vmax (d a b : BitVec 5) (p : BitVec 6)
  /-- VAND, R147. Writes va AND vb into vd. -/
  | vand (d a b : BitVec 5) (p : BitVec 6)
  /-- VOR, R147. Writes va OR vb into vd. -/
  | vor (d a b : BitVec 5) (p : BitVec 6)
  /-- VXOR, R147. Writes va XOR vb into vd. -/
  | vxor (d a b : BitVec 5) (p : BitVec 6)
  /-- VANDN, R147. Writes va AND NOT vb into vd. -/
  | vandn (d a b : BitVec 5) (p : BitVec 6)
  /-- VSHL, R149. Shifts va left by the amount in vb into vd. -/
  | vshl (d a b : BitVec 5) (p : BitVec 6)
  /-- VSHR, R149. Shifts va right by the amount in vb into vd. -/
  | vshr (d a b : BitVec 5) (p : BitVec 6)
  /-- VMULH, R147. Writes the part of the exact product of va and vb above the WD result bits into vd. -/
  | vmulh (d a b : BitVec 5) (p : BitVec 6)
  /-- VSEL, R150. Selects va or vb per element by the predicate into vd. -/
  | vsel (d a b : BitVec 5) (p : BitVec 6)
  /-- VADDS, R151. Adds the scalar gb to va into vd. -/
  | vadds (d a b : BitVec 5) (p : BitVec 6)
  /-- VSUBS, R151. Subtracts the scalar gb from va into vd. -/
  | vsubs (d a b : BitVec 5) (p : BitVec 6)
  /-- VRSUBS, R151. Subtracts va from the scalar gb into vd. -/
  | vrsubs (d a b : BitVec 5) (p : BitVec 6)
  /-- VMULS, R151. Multiplies va by the scalar gb into vd. -/
  | vmuls (d a b : BitVec 5) (p : BitVec 6)
  /-- VMACS, R151. Adds va times the scalar gb to vd. -/
  | vmacs (d a b : BitVec 5) (p : BitVec 6)
  /-- VMINS, R151. Writes the lesser of va and the scalar gb into vd. -/
  | vmins (d a b : BitVec 5) (p : BitVec 6)
  /-- VMAXS, R151. Writes the greater of va and the scalar gb into vd. -/
  | vmaxs (d a b : BitVec 5) (p : BitVec 6)
  /-- VANDS, R151. Writes va AND the scalar gb into vd. -/
  | vands (d a b : BitVec 5) (p : BitVec 6)
  /-- VORS, R151. Writes va OR the scalar gb into vd. -/
  | vors (d a b : BitVec 5) (p : BitVec 6)
  /-- VXORS, R151. Writes va XOR the scalar gb into vd. -/
  | vxors (d a b : BitVec 5) (p : BitVec 6)
  /-- VSHLS, R151. Shifts va left by gb[5:0] into vd. -/
  | vshls (d a b : BitVec 5) (p : BitVec 6)
  /-- VSHRS, R151. Shifts va right by gb[5:0] into vd. -/
  | vshrs (d a b : BitVec 5) (p : BitVec 6)
  /-- VBCAST, R151. Writes the scalar gb into every active element of vd. -/
  | vbcast (d b : BitVec 5) (p : BitVec 6)
  /-- VRAND, R152. Writes counter-based random bits Mix(key, counter) into vd. -/
  | vrand (d a b : BitVec 5) (p : BitVec 6)
  /-- VSLUP, R174. Slides va up by the amount in gb into vd. -/
  | vslup (d a b : BitVec 5) (p : BitVec 6)
  /-- VSLDN, R174. Slides va down by the amount in gb into vd. -/
  | vsldn (d a b : BitVec 5) (p : BitVec 6)
  /-- VMOV, R153. Copies va into vd at the destination width. -/
  | vmov (d a : BitVec 5) (p : BitVec 6)
  /-- VNOT, R153. Writes the bitwise NOT of va into vd. -/
  | vnot (d a : BitVec 5) (p : BitVec 6)
  /-- VNEG, R153. Writes the negation of va into vd. -/
  | vneg (d a : BitVec 5) (p : BitVec 6)
  /-- VABS, R153. Writes the absolute value of va into vd. -/
  | vabs (d a : BitVec 5) (p : BitVec 6)
  /-- VCVT, R153. Converts va to the destination width and signedness into vd. -/
  | vcvt (d a : BitVec 5) (p : BitVec 6)
  /-- VSATC, R153. Clamps va to the destination range into vd. -/
  | vsatc (d a : BitVec 5) (p : BitVec 6)
  /-- VHAD, R154. Performs an unnormalised Walsh-Hadamard transform over groups of 2^k elements. -/
  | vhad (d a k : BitVec 5) (p : BitVec 6)
  /-- VIDX, R155. Writes start plus j times step into each element of vd. -/
  | vidx (d : BitVec 5) (s t : BitVec 8)
  /-- VCEQ, R156. Sets pd where va equals vb. -/
  | vceq (d : BitVec 6) (a b : BitVec 5) (p : BitVec 6)
  /-- VCNE, R156. Sets pd where va differs from vb. -/
  | vcne (d : BitVec 6) (a b : BitVec 5) (p : BitVec 6)
  /-- VCLT, R156. Sets pd where va is less than vb. -/
  | vclt (d : BitVec 6) (a b : BitVec 5) (p : BitVec 6)
  /-- VCLE, R156. Sets pd where va is at most vb. -/
  | vcle (d : BitVec 6) (a b : BitVec 5) (p : BitVec 6)
  /-- VCEQS, R156. Sets pd where va equals the scalar gb. -/
  | vceqs (d : BitVec 6) (a b : BitVec 5) (p : BitVec 6)
  /-- VCNES, R156. Sets pd where va differs from the scalar gb. -/
  | vcnes (d : BitVec 6) (a b : BitVec 5) (p : BitVec 6)
  /-- VCLTS, R156. Sets pd where va is less than the scalar gb. -/
  | vclts (d : BitVec 6) (a b : BitVec 5) (p : BitVec 6)
  /-- VCLES, R156. Sets pd where va is at most the scalar gb. -/
  | vcles (d : BitVec 6) (a b : BitVec 5) (p : BitVec 6)
  /-- VCGTS, R156. Sets pd where va is greater than the scalar gb. -/
  | vcgts (d : BitVec 6) (a b : BitVec 5) (p : BitVec 6)
  /-- VCGES, R156. Sets pd where va is at least the scalar gb. -/
  | vcges (d : BitVec 6) (a b : BitVec 5) (p : BitVec 6)
  /-- VTST, R156. Sets pd where va AND vb is nonzero. -/
  | vtst (d : BitVec 6) (a b : BitVec 5) (p : BitVec 6)
  /-- FCEQ, R183. Sets pd where the float values of va and vb are equal and neither is NaN. -/
  | fceq (d : BitVec 6) (a b : BitVec 5) (p : BitVec 6)
  /-- FCLT, R183. Sets pd where va is less than vb and neither is NaN. -/
  | fclt (d : BitVec 6) (a b : BitVec 5) (p : BitVec 6)
  /-- FCLE, R183. Sets pd where va is at most vb and neither is NaN. -/
  | fcle (d : BitVec 6) (a b : BitVec 5) (p : BitVec 6)
  /-- FCUN, R183. Sets pd where va or vb is NaN. -/
  | fcun (d : BitVec 6) (a b : BitVec 5) (p : BitVec 6)
  /-- PAND, R157. Writes pa AND pb into pd. -/
  | pand (d a b : BitVec 6)
  /-- POR, R157. Writes pa OR pb into pd. -/
  | por (d a b : BitVec 6)
  /-- PXOR, R157. Writes pa XOR pb into pd. -/
  | pxor (d a b : BitVec 6)
  /-- PANDN, R157. Writes pa AND NOT pb into pd. -/
  | pandn (d a b : BitVec 6)
  /-- PNOT, R157. Writes NOT pa into pd. -/
  | pnot (d a : BitVec 6)
  /-- PMOV, R157. Copies pa into pd. -/
  | pmov (d a : BitVec 6)
  /-- PALL, R157. Sets pd to 1 at each written element. -/
  | pall (d : BitVec 6)
  /-- PCLR, R157. Clears pd at each written element. -/
  | pclr (d : BitVec 6)
  /-- PCNT, R158. Counts the true elements of pa below VL under the top of the mask stack into gd. -/
  | pcnt (d : BitVec 5) (a : BitVec 6)
  /-- PFFS, R158. Writes the index of the first true element of pa into gd, or all ones. -/
  | pffs (d : BitVec 5) (a : BitVec 6)
  /-- PFILT, R159. Combines a grammar predicate with filters, falling back so that a candidate remains where one exists. -/
  | pfilt (d a b : BitVec 6)
  /-- MPUSH, R160. Pushes the top of the mask stack ANDed with pa. -/
  | mpush (a : BitVec 6)
  /-- MINV, R160. Replaces the top of the mask stack with the level below AND NOT the top. -/
  | minv
  /-- MPOP, R160. Pops the mask stack. -/
  | mpop
  /-- MTOP, R157. Copies the top of the mask stack into pd below VL. -/
  | mtop (d : BitVec 6)
  /-- SEAMRD, R157. Copies the seam mask into pd. -/
  | seamrd (d : BitVec 6)
  /-- SEAMWR, R157. Sets the seam mask below VL from pa. -/
  | seamwr (a : BitVec 6)
  /-- VREDSUM, R166. Reduces the active elements of va and the seed gb to their sum in gd, or per row. -/
  | vredsum (d a b : BitVec 5) (p : BitVec 6)
  /-- VREDMIN, R166. Reduces the active elements and the seed to their least value in gd. -/
  | vredmin (d a b : BitVec 5) (p : BitVec 6)
  /-- VREDMAX, R166. Reduces the active elements and the seed to their greatest value in gd. -/
  | vredmax (d a b : BitVec 5) (p : BitVec 6)
  /-- VREDAND, R166. Reduces the active elements and the seed by bitwise AND into gd. -/
  | vredand (d a b : BitVec 5) (p : BitVec 6)
  /-- VREDOR, R166. Reduces the active elements and the seed by bitwise OR into gd. -/
  | vredor (d a b : BitVec 5) (p : BitVec 6)
  /-- VARGMAX, R167. Writes the index and value of the greatest active element that beats the seed to gd, gd+1. -/
  | vargmax (d a b : BitVec 5) (p : BitVec 6)
  /-- VARGMIN, R167. Writes the index and value of the least active element that beats the seed to gd, gd+1. -/
  | vargmin (d a b : BitVec 5) (p : BitVec 6)
  /-- FREDSUM, R168. Sums the active float elements with the seed in the fixed tree order into gd. -/
  | fredsum (d a b : BitVec 5) (p : BitVec 6)
  /-- FREDMAX, R168. Writes the greatest float value of the seed and active elements into gd. -/
  | fredmax (d a b : BitVec 5) (p : BitVec 6)
  /-- FARGMAX, R167. Writes the index and value of the greatest float active element that beats the seed to gd, gd+1. -/
  | fargmax (d a b : BitVec 5) (p : BitVec 6)
  /-- VSCANSUM, R170. Writes running sums over each row's active elements into vd. -/
  | vscansum (d a : BitVec 5) (p : BitVec 6)
  /-- VSCANMAX, R170. Writes running maxima over each row's active elements into vd. -/
  | vscanmax (d a : BitVec 5) (p : BitVec 6)
  /-- VSCANMIN, R170. Writes running minima over each row's active elements into vd. -/
  | vscanmin (d a : BitVec 5) (p : BitVec 6)
  /-- FSCANSUM, R170. Writes running float sums in the fixed tree order into vd. -/
  | fscansum (d a : BitVec 5) (p : BitVec 6)
  /-- VCOMPRESS, R171. Packs the active elements of va into the low elements of vd and sets CCNT. -/
  | vcompress (d a : BitVec 5) (p : BitVec 6)
  /-- VEXPAND, R172. Places consecutive elements of va at the active positions of vd and sets CCNT. -/
  | vexpand (d a : BitVec 5) (p : BitVec 6)
  /-- VPERM, R173. Gathers elements of va at the indices in vb into vd. -/
  | vperm (d a b : BitVec 5) (p : BitVec 6)
  /-- FADD, R179. Adds va and vb as floats into vd with one rounding. -/
  | fadd (d a b : BitVec 5) (p : BitVec 6)
  /-- FSUB, R179. Subtracts vb from va as floats into vd. -/
  | fsub (d a b : BitVec 5) (p : BitVec 6)
  /-- FMUL, R179. Multiplies va and vb as floats into vd. -/
  | fmul (d a b : BitVec 5) (p : BitVec 6)
  /-- FMA, R179. Adds the exact product of va and vb to vd with one rounding. -/
  | fma (d a b : BitVec 5) (p : BitVec 6)
  /-- FMIN, R180. Writes the lesser float value of va and vb into vd. -/
  | fmin (d a b : BitVec 5) (p : BitVec 6)
  /-- FMAX, R180. Writes the greater float value of va and vb into vd. -/
  | fmax (d a b : BitVec 5) (p : BitVec 6)
  /-- FABS, R180. Writes the absolute float value of va into vd. -/
  | fabs (d a : BitVec 5) (p : BitVec 6)
  /-- FNEG, R180. Writes the negated float value of va into vd. -/
  | fneg (d a : BitVec 5) (p : BitVec 6)
  /-- FCVT, R181. Converts va from format A to format D. -/
  | fcvt (d a : BitVec 5) (p : BitVec 6)
  /-- FCVTI, R181. Converts float va to an integer of WD bits, truncated toward zero. -/
  | fcvti (d a : BitVec 5) (p : BitVec 6)
  /-- FCVTF, R181. Converts integer va to format D. -/
  | fcvtf (d a : BitVec 5) (p : BitVec 6)
  /-- FEXP2, R182. Writes 2 to the power va, rounded once toward zero. -/
  | fexp2 (d a : BitVec 5) (p : BitVec 6)
  /-- FRCP, R182. Writes the reciprocal of va, rounded once toward zero. -/
  | frcp (d a : BitVec 5) (p : BitVec 6)
  /-- FSCL, R181. Scales va by 2 to the integer in vb. -/
  | fscl (d a b : BitVec 5) (p : BitVec 6)
  /-- MXSCL, R187. Dequantises va by the block scale of e[ESEL.EA] into vd. -/
  | mxscl (d a : BitVec 5) (p : BitVec 6)
  /-- MXQNT, R188. Quantises each block of va to an MX element format and writes its scale byte. -/
  | mxqnt (d a : BitVec 5) (p : BitVec 6)
  /-- MXBDOT, R190. Forms one scaled dot product per block of va and vb, written at element k. -/
  | mxbdot (d a b : BitVec 5) (p : BitVec 6)
  /-- EMOV, R191. Copies scale register es to ed over the issuing micro-thread's lanes. -/
  | emov (e f : BitVec 4)
  /-- VQNT, R189. Converts va to format D without scales, saturating. -/
  | vqnt (d a : BitVec 5) (p : BitVec 6)
  /-- VLD, R224. Loads consecutive elements from memory into vd. -/
  | vld (d a : BitVec 5) (p : BitVec 6)
  /-- VST, R224. Stores the elements of vs to consecutive memory. -/
  | vst (s a : BitVec 5) (p : BitVec 6)
  /-- VLDS, R224. Loads strided elements into vd. -/
  | vlds (d a b : BitVec 5) (p : BitVec 6)
  /-- VSTS, R224. Stores the elements of vs with a byte stride. -/
  | vsts (s a b : BitVec 5) (p : BitVec 6)
  /-- VLDX, R224. Gathers elements at the indices in vb into vd. -/
  | vldx (d a b : BitVec 5) (p : BitVec 6)
  /-- VSTX, R224. Scatters the elements of vs to the indices in vb. -/
  | vstx (s a b : BitVec 5) (p : BitVec 6)
  /-- VLDL, R227. Loads WD rows of the lane-private slice into vd. -/
  | vldl (d a : BitVec 5) (p : BitVec 6)
  /-- VSTL, R227. Stores vs into WD rows of the lane-private slice. -/
  | vstl (s a : BitVec 5) (p : BitVec 6)
  /-- PLD, R228. Loads a predicate from packed bytes. -/
  | pld (a : BitVec 5) (p : BitVec 6)
  /-- PST, R228. Stores a predicate as packed bytes. -/
  | pst (a : BitVec 5) (p : BitVec 6)
  /-- MXLD, R230. Loads MX blocks: scale bytes into a scale register and elements into vd. -/
  | mxld (d a : BitVec 5) (e : BitVec 4) (p : BitVec 6)
  /-- MXST, R230. Stores MX blocks: elements of vs and scale bytes of a scale register. -/
  | mxst (s a : BitVec 5) (e : BitVec 4) (p : BitVec 6)
  /-- VVRLD, R335. Waits for one version per element word and loads their values into vd. -/
  | vvrld (d a b : BitVec 5) (p : BitVec 6)
  /-- VVRST, R335. Creates one version per element word from vs. -/
  | vvrst (s a b : BitVec 5) (p : BitVec 6)
  /-- SETVLX, R143. Sets VL as SETVL does and branches when the new VL is 0. -/
  | setvlx (d a : BitVec 5) (o : BitVec 16)
  /-- SETVL, R142. Sets VL to the request bounded by VLMAX and GVL and writes it to gd. -/
  | setvl (d a : BitVec 5)
  /-- SETVLF, R164. Packs whole rows into the next strip, setting VL, CCNT and the seam mask. -/
  | setvlf (d a : BitVec 5)
  /-- VKILL, R145. Frees the vector registers named by the mask in ga. -/
  | vkill (a : BitVec 5)
  /-- SETEW, R144. Writes the element widths and signedness of EW. -/
  | setew (a b : BitVec 4) (d : BitVec 5) (x y z : BitVec 1)
  /-- PGCLR, R201. Empties a pedigree tree. -/
  | pgclr (t : BitVec 2)
  /-- PGADD, R202. Appends a node to a pedigree tree and returns its index. -/
  | pgadd (d a b : BitVec 5) (t : BitVec 2)
  /-- PGANC, R203. Writes an ancestor mask in the TILESHAPE geometry into pd. -/
  | pganc (d : BitVec 6) (a b : BitVec 5) (t : BitVec 2)
  /-- PGPOS, R204. Writes base plus depth for each node into vd. -/
  | pgpos (d a : BitVec 5) (t : BitVec 2)
  /-- PGPATH, R205. Sets VL to a path's length and writes its tokens into vd. -/
  | pgpath (d a : BitVec 5) (t : BitVec 2)
  /-- PGPRUNE, R206. Keeps one path of a tree, renumbers it and writes the index map into vm. -/
  | pgprune (d a b : BitVec 5) (t : BitVec 2)
  /-- PGRD, R201. Reads one field of a pedigree node into gd. -/
  | pgrd (d a c : BitVec 5) (t : BitVec 2)
  /-- PGCNT, R204. Counts, per element, the nodes on a path that carry the element's token. -/
  | pgcnt (d a b : BitVec 5) (t : BitVec 2)
  /-- PGSIZE, R201. Writes the size of a pedigree tree to gd. -/
  | pgsize (d : BitVec 5) (t : BitVec 2)
  /-- SPLIT, R208. Waits for E to quiesce, saves the parent state and divides E into n micro-threads. -/
  | split (n : BitVec 5)
  /-- JOIN, R210. Stops a micro-thread; when all have joined, restores the parent state and merges the rename maps. -/
  | join
  /-- MTID, R213. Writes the issuing micro-thread's index to gd. -/
  | mtid (d : BitVec 5)
  /-- PFX, R47. Lends a predicate, a destination copy and last-use marks to the next instruction through PFXS. -/
  | pfx (p : BitVec 6) (i : BitVec 1) (v : BitVec 5) (c e l u : BitVec 1)
  /-- FILL_COMPLETE, R17. A long-latency producer's data arrives and fills its empty destination registers, releasing waiting readers. -/
  | fillComplete (c : CoreId) (w : Who) (n : Nat)
  /-- WAIT_TIMEOUT, R19. WAITTIMEOUT expires for a register, queue, event, sync, WAITA or TWIN wait and the waiting instruction traps. -/
  | waitTimeout (c : CoreId) (w : Who)
  /-- FE_TIMEOUT, R221. FETIMEOUT expires for a waiting tagged-word request, which is withdrawn and traps its sequencer. -/
  | feTimeout (c : CoreId) (n : Nat)
  /-- VER_TIMEOUT, R330. The wait bound of a waiting VRLD expires and it traps. -/
  | verTimeout (c : CoreId) (w : Who)
  /-- VER_FULL, R331. The wait bound of a VRST waiting at the depth expires and it traps. -/
  | verFull (c : CoreId) (w : Who)
  /-- TRAP_DELIVERY, R99. A raised trap reaches the oldest uncompleted instruction and is delivered to the handler through TVEC. -/
  | trapDelivery (c : CoreId) (w : Who)
  /-- PREDEADLINE_EXPIRY, R103. A sequencer not parked by PREDEADLINE, or 500 µs for brown-out, is forced at its next instruction boundary. -/
  | predeadlineExpiry (c : CoreId) (w : Who)
  /-- CONTEXT_SAVE, R104. Once every sequencer of a team has parked, its context is saved at CTXBASE. -/
  | contextSave (team : Nat)
  /-- TEAM_RESTORE, R105. The Drover restores a saved team on free cores, re-issuing withdrawn fills and appending held events. -/
  | teamRestore (team die cluster : Nat)
  /-- TEAM_PLACE, R367. The Drover places a new team of a live launch on the coolest suitable cluster. -/
  | teamPlace (launch : Nat)
  /-- VICTIM_SELECTION, R371. After 50 µs unplaced, the Drover picks lower-priority victims on the cluster needing fewest and requests their pre-emption. -/
  | victimSelection (launch : Nat)
  /-- HOT_SPOT_CHECK, R373. Every 10 ms the Drover reads cluster temperatures and moves teams away from hot clusters. -/
  | hotSpotCheck
  /-- LAUNCH, R362. The Drover consumes a LAUNCH record, declares regions, validates the loop-nest record and waits for preconditions. -/
  | launch (q : Nat)
  /-- LAUNCH_LIVE, R365. A launch's preconditions and producer wait are met and its walker starts enumerating. -/
  | launchLive (launch : Nat)
  /-- LAUNCH_COMPLETE, R368. When every iteration has ended and every team is released, the launch performs its accesses, creates its completion version and stores its completion word. -/
  | launchComplete (launch : Nat)
  /-- DROVER_COPY, R362. The Drover copies bytes through the base die's engine and completes when they are performed at system scope. -/
  | droverCopy (q : Nat)
  /-- WAITVER, R362. Holds the queue until a version is live, acquiring from its creator, or completes with status 2. -/
  | waitver (q : Nat)
  /-- MAKEVER, R362. After earlier commands complete, creates a version with release at the region's scope. -/
  | makever (q : Nat)
  /-- DROVER_FENCE, R362. Holds the queue until every earlier command of the queue has completed. -/
  | droverFence (q : Nat)
  /-- CANCEL, R369. Withdraws every command of the same context that carries the named TAG. -/
  | cancel (q : Nat)
  /-- INVALID_RECORD, R360. A consumed record with an unassigned OP, nonzero reserved field or misaligned CADDR completes with status 3. -/
  | invalidRecord (q : Nat)
  /-- QTAIL_WRITE, R358. A write to QTAIL advances TAIL, is ignored as stale, or sets QCFG.ERR when beyond the ring. -/
  | qtailWrite (q : Nat) (v : Word)
  /-- QUEUE_ENABLE, R356. Writing QCFG.EN = 1 enables a queue, setting HEAD and TAIL to 0 and storing header word 0. -/
  | queueEnable (q : Nat)
  /-- QUEUE_DISABLE, R356. Writing QCFG.EN = 0 stops consumption of further records of a queue. -/
  | queueDisable (q : Nat)
  /-- FLT_CLEAR, R359. Writing 1 to QCFG.FLT clears it and the Drover retries the failed ring read or header store. -/
  | fltClear (q : Nat)
  /-- HOST_EVENT_RING_ENABLE, R374. Writing HEVCFG.EN = 1 enables the host event ring with TAIL and HEAD at 0. -/
  | hostEventRingEnable
  /-- HEVHEAD_WRITE, R374. The host frees ring slots by writing HEVHEAD, letting held records enter. -/
  | hevheadWrite (v : Word)
  /-- HOST_EVENT_RECORD, R374. The Drover writes a host-bound record into the host event ring, holds it, or drops it and sets OVF. -/
  | hostEventRecord (r : EvRec)
  /-- REGISTER_WRITE, R395. A write through the register window to a register with no behaviour of its own stores its fields. -/
  | registerWrite (r : RegName) (v : Word)
  /-- PWRCTL_ENTER, R385. Writing PWRCTL.ENTER sets the host hold that holds the device in brown-out. -/
  | pwrctlEnter
  /-- PWRCTL_EXIT, R385. Writing PWRCTL.EXIT clears the host hold. -/
  | pwrctlExit
  /-- BRN_N_ASSERT, R385. Assertion of BRN_N holds the device in brown-out. -/
  | brnNAssert
  /-- BRN_N_DEASSERT, R385. Deassertion of BRN_N ends the pin's hold. -/
  | brnNDeassert
  /-- ENGINE_PARK_DEADLINE, R386. At 1.5 ms into entry every engine still busy parks its descriptor. -/
  | engineParkDeadline
  /-- BROWNOUT_HELD, R386. Once streams are drained and caches written back, rails go to retention, DRAM self-refreshes and STATE becomes 2. -/
  | brownoutHeld
  /-- BROWNOUT_EXIT, R388. In STATE 2 with the hold gone, exit begins, checking retention and raising the rails. -/
  | brownoutExit
  /-- BROWNOUT_RESUME, R388. Engines and sequencers resume, BROWNOUT_RESUME is posted to every hart and STATE becomes 0. -/
  | brownoutResume
  /-- SUPPLY_LOSS, R389. Loss of supply in STATE 2 ends in a cold boot with LOST set. -/
  | supplyLoss
  /-- COLD_BOOT, R278. Cold boot tests every cluster, assigns roles and resets device state. -/
  | coldBoot
  /-- ATTESTATION_REQUEST, R408. The host obtains the boot log and a signed report with its nonce through the mailbox. -/
  | attestationRequest (nonce : List Byte)
  /-- CROOK_ASSERT, R383. CROOK_N or a regulator current alarm cuts every cluster's LIM to 0x1111. -/
  | crookAssert
  /-- CROOK_DEASSERT, R383. The crook's assertion ends, starting the 100 µs release wait. -/
  | crookDeassert
  /-- CROOK_RELEASE, R383. 100 µs after the last assertion the controller releases the crook and starts its ramp. -/
  | crookRelease
  /-- CROOK_RAMP_STEP, R383. Every 10 µs during the ramp the crook's count rises by one. -/
  | crookRampStep
  /-- POWER_SAMPLE, R382. Every 10 µs the power controller samples module power. -/
  | powerSample (watts : Nat)
  /-- POWER_LOOP, R382. Every 1 ms the controller compares average power with the cap and trims GVL or the cap count. -/
  | powerLoop
  /-- THERMAL_ADJUST, R384. Every 10 ms each cluster's thermal count is lowered or raised. -/
  | thermalAdjust
  /-- LEASE, R404. A lease flit arrives and, if valid, sets the cap in force and its expiry. -/
  | lease (f : Flit)
  /-- LEASE_EXPIRY, R405. A lease expires without renewal and the cap falls to the lower of its cap and FAILSAFE. -/
  | leaseExpiry
  /-- MIGRATION_SCAN, R376. Every 1 ms the migration engine promotes hot LPDDR-6 frames and demotes cold HBM4 frames. -/
  | migrationScan
  /-- FRAME_COUNTER_HALVING, R376. Every 1 ms all frame access counters halve. -/
  | frameCounterHalving
  /-- MIGRATION, R377. The engine starts the next migration: sets MIG, removes translations, waits for accesses and copies the page. -/
  | migration
  /-- MIGRATE_DONE, R379. A page copy ends, the leaf is rewritten and MIGRATE_DONE is posted when requested. -/
  | migrateDone
  /-- HOT_COUNTER_HALVING, R293. After 2^20 class-2 accesses of a die its hot-row frequency counters halve. -/
  | hotCounterHalving (die : Nat)
  /-- BANK_ROLE_CHANGE, R288. A BANKROLE write's role change proceeds bank by bank and clears BUSY when it ends. -/
  | bankRoleChange (die : Nat)
  /-- BANK_SPARE, R285. At a quiet point a suspect L2 bank is replaced by a spare. -/
  | bankSpare (die bank : Nat)
  /-- SCORE_HALVING, R352. Every hour of GTS all suspicion scores halve. -/
  | scoreHalving
  /-- REMAP, R255. At a remap point failed rows and suspect lane groups are replaced by spares. -/
  | remap (c : CoreId)
  /-- TEST_RESULT, R279. The paddock test ends with a verdict, reported as TEST_RESULT; a failure retires the cluster. -/
  | testResult (die : Nat) (verdict : BitVec 2)
  /-- TIMED_ROTATION, R281. 60 s after the last swap, the next visible cluster is swapped with the ready paddock. -/
  | timedRotation (die : Nat)
  /-- SUSPICION_SWAP, R281. A cluster whose score reaches 64 is swapped with the paddock once it is ready. -/
  | suspicionSwap (die : Nat)
  /-- SWAP_END, R280. When the last team has left the outgoing cluster, it becomes the paddock. -/
  | swapEnd (die : Nat)
  /-- EVENT_SETTLE, R348. A queued event record becomes removable once local GTS reaches its stamp plus 250 ns. -/
  | eventSettle (c : CoreId)
  /-- COPY, R242. A Bobbin command copies COUNT bytes from SADDR to DADDR. -/
  | copy (c : CoreId) (ticket : Nat)
  /-- TOSLICE, R242. A Bobbin command moves elements from word layout into the lane-private slice. -/
  | toslice (c : CoreId) (ticket : Nat)
  /-- FROMSLICE, R242. A Bobbin command moves elements from the slice to word layout. -/
  | fromslice (c : CoreId) (ticket : Nat)
  /-- PLANES, R242. A Bobbin command converts word layout to bit-plane layout. -/
  | planes (c : CoreId) (ticket : Nat)
  /-- UNPLANES, R242. A Bobbin command converts bit-plane layout to word layout. -/
  | unplanes (c : CoreId) (ticket : Nat)
  /-- MXSPLIT, R242. A Bobbin command splits MX groups into slice element bits and scale bytes. -/
  | mxsplit (c : CoreId) (ticket : Nat)
  /-- COPY_DONE, R245. A Bobbin command's writes are performed at system scope and COPY_DONE is posted. -/
  | copyDone (c : CoreId) (ticket : Nat)
  /-- XCOPY_PUT, R399. A link engine copies local bytes to a remote module in XCOPY data flits. -/
  | xcopyPut (c : CoreId) (ticket : Nat)
  /-- XCOPY_GET, R399. A link engine copies remote bytes to local memory. -/
  | xcopyGet (c : CoreId) (ticket : Nat)
  /-- XCOPY_DATA_FLIT, R399. An XCOPY data flit arrives and its parts are written to the destination. -/
  | xcopyDataFlit (f : Flit)
  /-- XCOPY_DONE, R399. Every destination byte is performed and acknowledged, and XCOPY_DONE is posted. -/
  | xcopyDone (c : CoreId) (ticket : Nat) (status : BitVec 8) (addr : Word)
  /-- XCOPY_PATH_TIMEOUT, R399. A path down or unreachable for 100 ms ends the XCOPY with status 7. -/
  | xcopyPathTimeout (c : CoreId) (ticket : Nat)
  /-- TILE_READY, R269. A waiting tile task's enabled preconditions exist, or one falls below its floor and the task ends. -/
  | tileReady (die cluster slot : Nat)
  /-- TILE_PLACE, R269. A ready tile task is placed on free team cores with rows allocated. -/
  | tilePlace (die cluster slot : Nat)
  /-- K_STEP, R265. A k-step starts on all parts of a task when their ALU paths are free. -/
  | kStep (die cluster slot : Nat)
  /-- TILE_WINDOW_COMMIT, R270. A completed window is committed into PREG and XREG of each part, posting TILE_WINDOW when asked. -/
  | tileWindowCommit (die cluster slot : Nat)
  /-- TILE_FETCH_FAILURE, R266. A tile fetch fails on translation, permission or data and the task ends with status 3, 4 or 5. -/
  | tileFetchFailure (die cluster slot : Nat)
  /-- TILE_PARK, R269. A pre-empted team's running task stops at the next window boundary and parks. -/
  | tilePark (die cluster slot : Nat)
  /-- SPOOL_FETCH, R236. A read spool's prefetched elements arrive or are marked faulted. -/
  | spoolFetch (c : CoreId) (n cnt : Nat)
  /-- POSTED_REDUCTION_WALK_END, R304. A posted reduction's walk ends: it is performed, or its fault is deferred, held or reported as FAULT_DEFERRED. -/
  | postedReductionWalkEnd (c : CoreId) (w : Who)
  /-- FLOOR_APPLY, R337. A die applies a new region floor, re-examining waiting version operations. -/
  | floorApply (region die : Nat)
  /-- SYNC_BROADCAST, R342. A sync-register update from its home is applied to a die's mirror. -/
  | syncBroadcast (die : Nat)
  /-- NAK, R392. A received NAK makes the sender replay every flit from ACK + 1. -/
  | nak (port : Nat) (ack : BitVec 16)
  /-- ACK_TIMER, R392. 1 µs after an accepted flit the receiver returns an ACK. -/
  | ackTimer (port : Nat)
  /-- REPLAY_TIMEOUT, R392. 10 µs without an ACK while flits are held makes the sender replay. -/
  | replayTimeout (port : Nat)
  /-- LANE_FAILURE, R393. A Rigieb lane fails and the link drops to a ×8 half, or goes down on a second failure. -/
  | laneFailure (port lane : Nat)
  /-- RETRAIN, R393. In a quiet window, or after 100 ms, the link retrains to ×16 with the spare. -/
  | retrain (port : Nat)
  /-- BELLWETHER_POST, R402. A post reaches a switch or the root, which combines it, resends a result or ignores it. -/
  | bellwetherPost (f : Flit)
  /-- BELLWETHER_RESULT, R401. A group result reaches a member, filling its BWRED destinations and posting BW_RESULT when asked. -/
  | bellwetherResult (f : Flit)
  /-- BWRED_REPOST, R401. Every 20 µs without a result a member repeats its bellwether post. -/
  | bwredRepost (group : Nat)
  /-- CXL_HOST_ACCESS, R396. A host access to device memory through CXL.mem back-invalidates copies before it is performed. -/
  | cxlHostAccess (write : Bool) (pa n : Nat) (data : List Byte)
  /-- UCIE_SEGMENT_FAILURE, R380. A UCIe ring segment fails and its traffic is rerouted. -/
  | ucieSegmentFailure (segment : Nat)
  /-- DS_MODE_CHANGE, R30. A MODE.DS change takes effect at its point in E's order, copying primary lane state into the mirrors. -/
  | dsModeChange (c : CoreId)
  /-- ILL, R37. A fetched word that is not an instruction reaches execution and raises ILL with no other effect. -/
  | ill (w : BitVec 32)
  /-- FLIT_RECEIVED, R392. A flit arrives at a Rigieb receiver and is checked for CRC and sequence, then accepted, discarded as a duplicate, or discarded as bad or ahead with a NAK; any ACK it carries frees the sender's replay buffer. -/
  | flitReceived (port : Nat) (f : Flit)
  /-- HOST_SNOOP, R395. A CXL.cache snoop from the host reaches the host adapter and recalls or invalidates a host-memory line that the device holds. -/
  | hostSnoop (line : Nat) (invalidate : Bool)
  /-- CONTEXT_REGISTRATION, R353. The host driver registers a context descriptor through the management controller, and its sync-register grant is allocated and zeroed. -/
  | contextRegistration (desc : List Word)
  /-- CONTEXT_DESTRUCTION, R355. The host destroys a context, which clears its poisoned and failed marks, discards its regions and versions, and releases its sync-register grant. -/
  | contextDestruction (num : Nat)
  /-- MANAGEMENT_CONFIGURATION, R398. The host driver sets, through the management controller, the route table, the access table, a reduction group or the migration engine's free frames. -/
  | managementConfiguration (cfg : MgmtCfg)
  /-- UCIE_LANE_REPAIR, R380. A failing UCIe lane is repaired onto a redundant lane, and the repair is scored. -/
  | ucieLaneRepair (segment lane : Nat)
  deriving DecidableEq, Repr

end Sys2Proof
end

