-- ==== Sys2Proof/WellFormed.lean ====
section
/-! DEFINITION. Sys2Proof/WellFormed.lean: which operand values an instruction may hold (R37, R41, R43, R44, R46).
A field that the encoding fixes at zero is no operand, so it cannot be wrong here. -/

namespace Sys2Proof

/-- Scopes 0-4 of atomics and FENCE (R43, R44). -/
def scopeOk (s : BitVec 3) : Bool := s.toNat ≤ 4

/-- Loop levels 0-5 of LIDX and LCNT (R78). -/
def levelOk (l : BitVec 3) : Bool := l.toNat ≤ 5

/-- SPLIT counts 1, 2, 4, 8 and 16 (R37). -/
def splitOk (n : BitVec 5) : Bool := n == 1 || n == 2 || n == 4 || n == 8 || n == 16

/-- VHAD's k is 1-7 (R43). -/
def hadOk (k : BitVec 5) : Bool := 1 ≤ k.toNat && k.toNat ≤ 7

/-- A written predicate is p1-p63 (R41). -/
def predOk (p : BitVec 6) : Bool := p != 0

/-- The first register of a pair that may be odd is g0-g30 (R41). -/
def pairOk (d : BitVec 5) : Bool := d.toNat ≤ 30

/-- PGRD field codes 0-4 (R43). -/
def fieldOk (c : BitVec 5) : Bool := c.toNat ≤ 4

/-- PFX: pe = 0 requires pm = 0 and inv = 0, ce = 0 requires vc = 0 (R46). -/
def pfxOk (p : BitVec 6) (i : BitVec 1) (v : BitVec 5) (c e : BitVec 1) : Bool :=
  (e == 1 || (p == 0 && i == 0)) && (c == 1 || v == 0)

/-- The operands are values the encoding admits. An operation or event has no encoding and is always well formed. -/
def Instr.wellFormed : Instr → Bool
  | .add _ _ _ _ _ => true
  | .sub _ _ _ _ _ => true
  | .mul _ _ _ _ _ => true
  | .mulh _ _ _ _ _ => true
  | .mulhn _ _ _ _ _ => true
  | .div _ _ _ _ _ => true
  | .divn _ _ _ _ _ => true
  | .rem _ _ _ _ _ => true
  | .remn _ _ _ _ _ => true
  | .and _ _ _ _ _ => true
  | .or _ _ _ _ _ => true
  | .xor _ _ _ _ _ => true
  | .andn _ _ _ _ _ => true
  | .shl _ _ _ _ _ => true
  | .shr _ _ _ _ _ => true
  | .sar _ _ _ _ _ => true
  | .min _ _ _ _ _ => true
  | .max _ _ _ _ _ => true
  | .minn _ _ _ _ _ => true
  | .maxn _ _ _ _ _ => true
  | .slt _ _ _ _ _ => true
  | .sltn _ _ _ _ _ => true
  | .clz _ _ _ => true
  | .ctz _ _ _ => true
  | .popc _ _ _ => true
  | .mov _ _ _ => true
  | .gfull _ _ => true
  | .gempty _ => true
  | .addi _ _ _ _ => true
  | .andi _ _ _ _ => true
  | .ori _ _ _ _ => true
  | .xori _ _ _ _ => true
  | .shli _ _ _ _ => true
  | .shri _ _ _ _ => true
  | .sari _ _ _ _ => true
  | .slti _ _ _ _ => true
  | .ins16 _ _ _ => true
  | .ldi _ _ => true
  | .ldb _ _ _ _ => true
  | .ldbz _ _ _ _ => true
  | .ldh _ _ _ _ => true
  | .ldhz _ _ _ _ => true
  | .ldw _ _ _ _ => true
  | .ldwz _ _ _ _ => true
  | .ldd _ _ _ _ => true
  | .ldq _ _ _ _ => true
  | .stb _ _ _ _ => true
  | .sth _ _ _ _ => true
  | .stw _ _ _ _ => true
  | .std _ _ _ _ => true
  | .stq _ _ _ _ => true
  | .beq _ _ _ _ _ => true
  | .bne _ _ _ _ _ => true
  | .blt _ _ _ _ _ => true
  | .bge _ _ _ _ _ => true
  | .bltn _ _ _ _ _ => true
  | .bgen _ _ _ _ _ => true
  | .bmz _ => true
  | .boq _ => true
  | .jmp _ => true
  | .call _ => true
  | .ret => true
  | .callr _ => true
  | .jmpr _ => true
  | .lexit => true
  | .lidx _ l => levelOk l
  | .lcnt _ l => levelOk l
  | .yield => true
  | .nop => true
  | .bopush _ => true
  | .loop _ _ => true
  | .loopi _ _ => true
  | .csrrd _ _ => true
  | .csrwr _ _ => true
  | .csrset _ _ => true
  | .csrclr _ _ => true
  | .trap _ => true
  | .rett => true
  | .halt => true
  | .gtsrd _ => true
  | .evrd _ => true
  | .evwait => true
  | .waita _ _ => true
  | .fence _ s => scopeOk s
  | .sbar _ => true
  | .ifence => true
  | .tlbinvAll _ _ => true
  | .tlbinvPage _ _ => true
  | .tlbinvContext _ _ => true
  | .atadd _ _ _ _ _ _ s => scopeOk s
  | .atswp _ _ _ _ _ _ s => scopeOk s
  | .atcas _ _ _ _ _ _ s => scopeOk s
  | .atmin _ _ _ _ _ _ s => scopeOk s
  | .atmax _ _ _ _ _ _ s => scopeOk s
  | .atminn _ _ _ _ _ _ s => scopeOk s
  | .atmaxn _ _ _ _ _ _ s => scopeOk s
  | .atand _ _ _ _ _ _ s => scopeOk s
  | .ator _ _ _ _ _ _ s => scopeOk s
  | .atxor _ _ _ _ _ _ s => scopeOk s
  | .redadd _ _ _ _ _ s => scopeOk s
  | .redmin _ _ _ _ _ s => scopeOk s
  | .redmax _ _ _ _ _ s => scopeOk s
  | .lda _ _ _ s => scopeOk s
  | .stl _ _ _ _ s => scopeOk s
  | .sytas _ _ _ => true
  | .syfadd _ _ _ _ _ => true
  | .syrd _ _ _ => true
  | .sywr _ _ _ _ => true
  | .sywait _ _ _ _ => true
  | .ldff _ _ _ _ => true
  | .ldfe _ _ _ _ => true
  | .stef _ _ _ _ => true
  | .stff _ _ _ _ => true
  | .feclr _ _ _ => true
  | .feq _ _ _ _ => true
  | .vrld _ _ _ _ _ => true
  | .vrldle _ _ _ _ _ => true
  | .vrst _ _ _ _ _ => true
  | .vrfloor _ _ _ _ => true
  | .vrtop _ _ _ => true
  | .vrpoll _ _ _ _ _ => true
  | .qpush _ _ => true
  | .qpop _ _ => true
  | .spbind _ _ => true
  | .spunb _ => true
  | .spdrain _ => true
  | .spstat _ _ => true
  | .bcopy _ _ => true
  | .xcopy _ _ => true
  | .tenq _ _ => true
  | .twin _ _ => true
  | .trel _ => true
  | .tcancel _ => true
  | .bwred d _ _ => pairOk d
  | .pgmig _ _ => true
  | .vadd _ _ _ _ => true
  | .vsub _ _ _ _ => true
  | .vmul _ _ _ _ => true
  | .vmac _ _ _ _ => true
  | .vmsb _ _ _ _ => true
  | .vssa _ _ _ _ => true
  | .vmin _ _ _ _ => true
  | .vmax _ _ _ _ => true
  | .vand _ _ _ _ => true
  | .vor _ _ _ _ => true
  | .vxor _ _ _ _ => true
  | .vandn _ _ _ _ => true
  | .vshl _ _ _ _ => true
  | .vshr _ _ _ _ => true
  | .vmulh _ _ _ _ => true
  | .vsel _ _ _ _ => true
  | .vadds _ _ _ _ => true
  | .vsubs _ _ _ _ => true
  | .vrsubs _ _ _ _ => true
  | .vmuls _ _ _ _ => true
  | .vmacs _ _ _ _ => true
  | .vmins _ _ _ _ => true
  | .vmaxs _ _ _ _ => true
  | .vands _ _ _ _ => true
  | .vors _ _ _ _ => true
  | .vxors _ _ _ _ => true
  | .vshls _ _ _ _ => true
  | .vshrs _ _ _ _ => true
  | .vbcast _ _ _ => true
  | .vrand _ _ _ _ => true
  | .vslup _ _ _ _ => true
  | .vsldn _ _ _ _ => true
  | .vmov _ _ _ => true
  | .vnot _ _ _ => true
  | .vneg _ _ _ => true
  | .vabs _ _ _ => true
  | .vcvt _ _ _ => true
  | .vsatc _ _ _ => true
  | .vhad _ _ k _ => hadOk k
  | .vidx _ _ _ => true
  | .vceq d _ _ _ => predOk d
  | .vcne d _ _ _ => predOk d
  | .vclt d _ _ _ => predOk d
  | .vcle d _ _ _ => predOk d
  | .vceqs d _ _ _ => predOk d
  | .vcnes d _ _ _ => predOk d
  | .vclts d _ _ _ => predOk d
  | .vcles d _ _ _ => predOk d
  | .vcgts d _ _ _ => predOk d
  | .vcges d _ _ _ => predOk d
  | .vtst d _ _ _ => predOk d
  | .fceq d _ _ _ => predOk d
  | .fclt d _ _ _ => predOk d
  | .fcle d _ _ _ => predOk d
  | .fcun d _ _ _ => predOk d
  | .pand d _ _ => predOk d
  | .por d _ _ => predOk d
  | .pxor d _ _ => predOk d
  | .pandn d _ _ => predOk d
  | .pnot d _ => predOk d
  | .pmov d _ => predOk d
  | .pall d => predOk d
  | .pclr d => predOk d
  | .pcnt _ _ => true
  | .pffs _ _ => true
  | .pfilt d _ _ => predOk d
  | .mpush _ => true
  | .minv => true
  | .mpop => true
  | .mtop d => predOk d
  | .seamrd d => predOk d
  | .seamwr _ => true
  | .vredsum _ _ _ _ => true
  | .vredmin _ _ _ _ => true
  | .vredmax _ _ _ _ => true
  | .vredand _ _ _ _ => true
  | .vredor _ _ _ _ => true
  | .vargmax d _ _ _ => pairOk d
  | .vargmin d _ _ _ => pairOk d
  | .fredsum _ _ _ _ => true
  | .fredmax _ _ _ _ => true
  | .fargmax d _ _ _ => pairOk d
  | .vscansum _ _ _ => true
  | .vscanmax _ _ _ => true
  | .vscanmin _ _ _ => true
  | .fscansum _ _ _ => true
  | .vcompress _ _ _ => true
  | .vexpand _ _ _ => true
  | .vperm _ _ _ _ => true
  | .fadd _ _ _ _ => true
  | .fsub _ _ _ _ => true
  | .fmul _ _ _ _ => true
  | .fma _ _ _ _ => true
  | .fmin _ _ _ _ => true
  | .fmax _ _ _ _ => true
  | .fabs _ _ _ => true
  | .fneg _ _ _ => true
  | .fcvt _ _ _ => true
  | .fcvti _ _ _ => true
  | .fcvtf _ _ _ => true
  | .fexp2 _ _ _ => true
  | .frcp _ _ _ => true
  | .fscl _ _ _ _ => true
  | .mxscl _ _ _ => true
  | .mxqnt _ _ _ => true
  | .mxbdot _ _ _ _ => true
  | .emov _ _ => true
  | .vqnt _ _ _ => true
  | .vld _ _ _ => true
  | .vst _ _ _ => true
  | .vlds _ _ _ _ => true
  | .vsts _ _ _ _ => true
  | .vldx _ _ _ _ => true
  | .vstx _ _ _ _ => true
  | .vldl _ _ _ => true
  | .vstl _ _ _ => true
  | .pld _ p => predOk p
  | .pst _ _ => true
  | .mxld _ _ _ _ => true
  | .mxst _ _ _ _ => true
  | .vvrld _ _ _ _ => true
  | .vvrst _ _ _ _ => true
  | .setvlx _ _ _ => true
  | .setvl _ _ => true
  | .setvlf _ _ => true
  | .vkill _ => true
  | .setew _ _ _ _ _ _ => true
  | .pgclr _ => true
  | .pgadd _ _ _ _ => true
  | .pganc d _ _ _ => predOk d
  | .pgpos _ _ _ => true
  | .pgpath _ _ _ => true
  | .pgprune _ _ _ _ => true
  | .pgrd _ _ c _ => fieldOk c
  | .pgcnt _ _ _ _ => true
  | .pgsize _ _ => true
  | .split n => splitOk n
  | .join => true
  | .mtid _ => true
  | .pfx p i v c e _ _ => pfxOk p i v c e
  | .fillComplete _ _ _ => true
  | .waitTimeout _ _ => true
  | .feTimeout _ _ => true
  | .verTimeout _ _ => true
  | .verFull _ _ => true
  | .trapDelivery _ _ => true
  | .predeadlineExpiry _ _ => true
  | .contextSave _ => true
  | .teamRestore _ _ _ => true
  | .teamPlace _ => true
  | .victimSelection _ => true
  | .hotSpotCheck => true
  | .launch _ => true
  | .launchLive _ => true
  | .launchComplete _ => true
  | .droverCopy _ => true
  | .waitver _ => true
  | .makever _ => true
  | .droverFence _ => true
  | .cancel _ => true
  | .invalidRecord _ => true
  | .qtailWrite _ _ => true
  | .queueEnable _ => true
  | .queueDisable _ => true
  | .fltClear _ => true
  | .hostEventRingEnable => true
  | .hevheadWrite _ => true
  | .hostEventRecord _ => true
  | .registerWrite _ _ => true
  | .pwrctlEnter => true
  | .pwrctlExit => true
  | .brnNAssert => true
  | .brnNDeassert => true
  | .engineParkDeadline => true
  | .brownoutHeld => true
  | .brownoutExit => true
  | .brownoutResume => true
  | .supplyLoss => true
  | .coldBoot => true
  | .attestationRequest _ => true
  | .crookAssert => true
  | .crookDeassert => true
  | .crookRelease => true
  | .crookRampStep => true
  | .powerSample _ => true
  | .powerLoop => true
  | .thermalAdjust => true
  | .lease _ => true
  | .leaseExpiry => true
  | .migrationScan => true
  | .frameCounterHalving => true
  | .migration => true
  | .migrateDone => true
  | .hotCounterHalving _ => true
  | .bankRoleChange _ => true
  | .bankSpare _ _ => true
  | .scoreHalving => true
  | .remap _ => true
  | .testResult _ _ => true
  | .timedRotation _ => true
  | .suspicionSwap _ => true
  | .swapEnd _ => true
  | .eventSettle _ => true
  | .copy _ _ => true
  | .toslice _ _ => true
  | .fromslice _ _ => true
  | .planes _ _ => true
  | .unplanes _ _ => true
  | .mxsplit _ _ => true
  | .copyDone _ _ => true
  | .xcopyPut _ _ => true
  | .xcopyGet _ _ => true
  | .xcopyDataFlit _ => true
  | .xcopyDone _ _ _ _ => true
  | .xcopyPathTimeout _ _ => true
  | .tileReady _ _ _ => true
  | .tilePlace _ _ _ => true
  | .kStep _ _ _ => true
  | .tileWindowCommit _ _ _ => true
  | .tileFetchFailure _ _ _ => true
  | .tilePark _ _ _ => true
  | .spoolFetch _ _ _ => true
  | .postedReductionWalkEnd _ _ => true
  | .floorApply _ _ => true
  | .syncBroadcast _ => true
  | .nak _ _ => true
  | .ackTimer _ => true
  | .replayTimeout _ => true
  | .laneFailure _ _ => true
  | .retrain _ => true
  | .bellwetherPost _ => true
  | .bellwetherResult _ => true
  | .bwredRepost _ => true
  | .cxlHostAccess _ _ _ _ => true
  | .ucieSegmentFailure _ => true
  | .dsModeChange _ => true
  | .ill _ => true
  | .flitReceived _ _ => true
  | .hostSnoop _ _ => true
  | .contextRegistration _ => true
  | .contextDestruction _ => true
  | .managementConfiguration _ => true
  | .ucieLaneRepair _ _ => true

end Sys2Proof
end

