-- ==== Sys2Proof/Decode.lean ====
section
/-! DEFINITION. Sys2Proof/Decode.lean: the decoder, total on any bytes, which rejects by name every word that is not
an instruction (R36, R37, R43, R44), and after it the encoder, written from the same formats (R39). -/

namespace Sys2Proof

/-- Why bytes are not an instruction (R37). -/
inductive DecodeError
  /-- The major opcode is 0x00 or one of 0x29-0x3F. -/
  | unassignedMajor
  /-- The FN value, op4 or selector is not assigned. -/
  | unassignedFn
  /-- A field that the instruction does not use is not zero. -/
  | zeroField
  /-- A register, immediate or literal field holds a value outside its range. -/
  | illegalOperand
  /-- Fewer than four bytes. -/
  | tooShort
  deriving DecidableEq, Repr

/-- The `n` bits of a word from bit `lo` up. -/
abbrev bits (w : BitVec 32) (lo n : Nat) : BitVec n := w.extractLsb' lo n

/-- The instruction, if its zero fields (low bit, length) are zero and its operands are in range. -/
def accept (w : BitVec 32) (zs : List (Nat × Nat)) (i : Instr) : Except DecodeError Instr :=
  if zs.all (fun z => (w.extractLsb' z.1 z.2).toNat == 0) then
    if i.wellFormed then .ok i else .error .illegalOperand
  else .error .zeroField

/-- Major 0x01 (R43). -/
noncomputable def decodeInt (w : BitVec 32) : Except DecodeError Instr :=
  match (bits w 0 9).toNat with
  | 0 => accept w [] (.add (bits w 21 5) (bits w 16 5) (bits w 11 5) (bits w 10 1) (bits w 9 1))
  | 1 => accept w [] (.sub (bits w 21 5) (bits w 16 5) (bits w 11 5) (bits w 10 1) (bits w 9 1))
  | 2 => accept w [] (.mul (bits w 21 5) (bits w 16 5) (bits w 11 5) (bits w 10 1) (bits w 9 1))
  | 3 => accept w [] (.mulh (bits w 21 5) (bits w 16 5) (bits w 11 5) (bits w 10 1) (bits w 9 1))
  | 4 => accept w [] (.mulhn (bits w 21 5) (bits w 16 5) (bits w 11 5) (bits w 10 1) (bits w 9 1))
  | 5 => accept w [] (.div (bits w 21 5) (bits w 16 5) (bits w 11 5) (bits w 10 1) (bits w 9 1))
  | 6 => accept w [] (.divn (bits w 21 5) (bits w 16 5) (bits w 11 5) (bits w 10 1) (bits w 9 1))
  | 7 => accept w [] (.rem (bits w 21 5) (bits w 16 5) (bits w 11 5) (bits w 10 1) (bits w 9 1))
  | 8 => accept w [] (.remn (bits w 21 5) (bits w 16 5) (bits w 11 5) (bits w 10 1) (bits w 9 1))
  | 9 => accept w [] (.and (bits w 21 5) (bits w 16 5) (bits w 11 5) (bits w 10 1) (bits w 9 1))
  | 10 => accept w [] (.or (bits w 21 5) (bits w 16 5) (bits w 11 5) (bits w 10 1) (bits w 9 1))
  | 11 => accept w [] (.xor (bits w 21 5) (bits w 16 5) (bits w 11 5) (bits w 10 1) (bits w 9 1))
  | 12 => accept w [] (.andn (bits w 21 5) (bits w 16 5) (bits w 11 5) (bits w 10 1) (bits w 9 1))
  | 13 => accept w [] (.shl (bits w 21 5) (bits w 16 5) (bits w 11 5) (bits w 10 1) (bits w 9 1))
  | 14 => accept w [] (.shr (bits w 21 5) (bits w 16 5) (bits w 11 5) (bits w 10 1) (bits w 9 1))
  | 15 => accept w [] (.sar (bits w 21 5) (bits w 16 5) (bits w 11 5) (bits w 10 1) (bits w 9 1))
  | 16 => accept w [] (.min (bits w 21 5) (bits w 16 5) (bits w 11 5) (bits w 10 1) (bits w 9 1))
  | 17 => accept w [] (.max (bits w 21 5) (bits w 16 5) (bits w 11 5) (bits w 10 1) (bits w 9 1))
  | 18 => accept w [] (.minn (bits w 21 5) (bits w 16 5) (bits w 11 5) (bits w 10 1) (bits w 9 1))
  | 19 => accept w [] (.maxn (bits w 21 5) (bits w 16 5) (bits w 11 5) (bits w 10 1) (bits w 9 1))
  | 20 => accept w [] (.slt (bits w 21 5) (bits w 16 5) (bits w 11 5) (bits w 10 1) (bits w 9 1))
  | 21 => accept w [] (.sltn (bits w 21 5) (bits w 16 5) (bits w 11 5) (bits w 10 1) (bits w 9 1))
  | 22 => accept w [(11, 5), (9, 1)] (.clz (bits w 21 5) (bits w 16 5) (bits w 10 1))
  | 23 => accept w [(11, 5), (9, 1)] (.ctz (bits w 21 5) (bits w 16 5) (bits w 10 1))
  | 24 => accept w [(11, 5), (9, 1)] (.popc (bits w 21 5) (bits w 16 5) (bits w 10 1))
  | 25 => accept w [(11, 5), (9, 1)] (.mov (bits w 21 5) (bits w 16 5) (bits w 10 1))
  | 26 => accept w [(9, 7)] (.gfull (bits w 21 5) (bits w 16 5))
  | 27 => accept w [(9, 12)] (.gempty (bits w 21 5))
  | _ => .error .unassignedFn

/-- Major 0x06 (R43). -/
noncomputable def decodeShfi (w : BitVec 32) : Except DecodeError Instr :=
  match (bits w 13 2).toNat with
  | 0 => accept w [(6, 7)] (.shli (bits w 21 5) (bits w 16 5) (bits w 15 1) (bits w 0 6))
  | 1 => accept w [(6, 7)] (.shri (bits w 21 5) (bits w 16 5) (bits w 15 1) (bits w 0 6))
  | 2 => accept w [(6, 7)] (.sari (bits w 21 5) (bits w 16 5) (bits w 15 1) (bits w 0 6))
  | _ => .error .unassignedFn

/-- Major 0x0A (R43). -/
noncomputable def decodeLoad (w : BitVec 32) : Except DecodeError Instr :=
  match (bits w 12 3).toNat with
  | 0 => accept w [] (.ldb (bits w 21 5) (bits w 16 5) (bits w 15 1) (bits w 0 12))
  | 1 => accept w [] (.ldbz (bits w 21 5) (bits w 16 5) (bits w 15 1) (bits w 0 12))
  | 2 => accept w [] (.ldh (bits w 21 5) (bits w 16 5) (bits w 15 1) (bits w 0 12))
  | 3 => accept w [] (.ldhz (bits w 21 5) (bits w 16 5) (bits w 15 1) (bits w 0 12))
  | 4 => accept w [] (.ldw (bits w 21 5) (bits w 16 5) (bits w 15 1) (bits w 0 12))
  | 5 => accept w [] (.ldwz (bits w 21 5) (bits w 16 5) (bits w 15 1) (bits w 0 12))
  | 6 => accept w [] (.ldd (bits w 21 5) (bits w 16 5) (bits w 15 1) (bits w 0 12))
  | 7 => accept w [(21, 1)] (.ldq (bits w 22 4) (bits w 16 5) (bits w 15 1) (bits w 0 12))
  | _ => .error .unassignedFn

/-- Major 0x0B (R43). -/
noncomputable def decodeStore (w : BitVec 32) : Except DecodeError Instr :=
  match (bits w 12 3).toNat with
  | 0 => accept w [] (.stb (bits w 21 5) (bits w 16 5) (bits w 15 1) (bits w 0 12))
  | 1 => accept w [] (.sth (bits w 21 5) (bits w 16 5) (bits w 15 1) (bits w 0 12))
  | 2 => accept w [] (.stw (bits w 21 5) (bits w 16 5) (bits w 15 1) (bits w 0 12))
  | 3 => accept w [] (.std (bits w 21 5) (bits w 16 5) (bits w 15 1) (bits w 0 12))
  | 4 => accept w [(21, 1)] (.stq (bits w 22 4) (bits w 16 5) (bits w 15 1) (bits w 0 12))
  | _ => .error .unassignedFn

/-- Major 0x0C (R43). -/
noncomputable def decodeBranch (w : BitVec 32) : Except DecodeError Instr :=
  match (bits w 11 3).toNat with
  | 0 => accept w [] (.beq (bits w 21 5) (bits w 16 5) (bits w 15 1) (bits w 14 1) (bits w 0 11))
  | 1 => accept w [] (.bne (bits w 21 5) (bits w 16 5) (bits w 15 1) (bits w 14 1) (bits w 0 11))
  | 2 => accept w [] (.blt (bits w 21 5) (bits w 16 5) (bits w 15 1) (bits w 14 1) (bits w 0 11))
  | 3 => accept w [] (.bge (bits w 21 5) (bits w 16 5) (bits w 15 1) (bits w 14 1) (bits w 0 11))
  | 4 => accept w [] (.bltn (bits w 21 5) (bits w 16 5) (bits w 15 1) (bits w 14 1) (bits w 0 11))
  | 5 => accept w [] (.bgen (bits w 21 5) (bits w 16 5) (bits w 15 1) (bits w 14 1) (bits w 0 11))
  | 6 => accept w [(14, 12)] (.bmz (bits w 0 11))
  | 7 => accept w [(14, 12)] (.boq (bits w 0 11))
  | _ => .error .unassignedFn

/-- Major 0x0F (R43). -/
noncomputable def decodeCtl (w : BitVec 32) : Except DecodeError Instr :=
  match (bits w 0 4).toNat with
  | 0 => accept w [(4, 22)] (.ret)
  | 1 => accept w [(21, 5), (4, 12)] (.callr (bits w 16 5))
  | 2 => accept w [(21, 5), (4, 12)] (.jmpr (bits w 16 5))
  | 3 => accept w [(4, 22)] (.lexit)
  | 4 => accept w [(7, 14)] (.lidx (bits w 21 5) (bits w 4 3))
  | 5 => accept w [(7, 14)] (.lcnt (bits w 21 5) (bits w 4 3))
  | 6 => accept w [(4, 22)] (.yield)
  | 7 => accept w [(4, 22)] (.nop)
  | 8 => accept w [(21, 5), (4, 12)] (.bopush (bits w 16 5))
  | _ => .error .unassignedFn

/-- Major 0x12 (R43). -/
noncomputable def decodeSys (w : BitVec 32) : Except DecodeError Instr :=
  match (bits w 0 4).toNat with
  | 0 => accept w [(16, 5)] (.csrrd (bits w 21 5) (bits w 4 12))
  | 1 => accept w [(21, 5)] (.csrwr (bits w 16 5) (bits w 4 12))
  | 2 => accept w [(21, 5)] (.csrset (bits w 16 5) (bits w 4 12))
  | 3 => accept w [(21, 5)] (.csrclr (bits w 16 5) (bits w 4 12))
  | 4 => accept w [(16, 10)] (.trap (bits w 4 12))
  | 5 => accept w [(4, 22)] (.rett)
  | 6 => accept w [(4, 22)] (.halt)
  | 7 => accept w [(4, 17)] (.gtsrd (bits w 21 5))
  | 8 => accept w [(4, 19)] (.evrd (bits w 23 3))
  | 9 => accept w [(4, 22)] (.evwait)
  | 10 => accept w [(4, 12)] (.waita (bits w 21 5) (bits w 16 5))
  | 11 => accept w [(11, 15)] (.fence (bits w 7 4) (bits w 4 3))
  | 12 => accept w [(21, 5), (4, 12)] (.sbar (bits w 16 5))
  | 13 => accept w [(4, 22)] (.ifence)
  | 14 =>
    match (bits w 4 2).toNat with
    | 0 => accept w [(21, 5), (7, 9)] (.tlbinvAll (bits w 16 5) (bits w 6 1))
    | 1 => accept w [(21, 5), (7, 9)] (.tlbinvPage (bits w 16 5) (bits w 6 1))
    | 2 => accept w [(21, 5), (7, 9)] (.tlbinvContext (bits w 16 5) (bits w 6 1))
    | _ => .error .illegalOperand
  | _ => .error .unassignedFn

/-- Major 0x13 (R43). -/
noncomputable def decodeAtom (w : BitVec 32) : Except DecodeError Instr :=
  match (bits w 5 4).toNat with
  | 0 => accept w [] (.atadd (bits w 21 5) (bits w 16 5) (bits w 11 5) (bits w 10 1) (bits w 9 1) (bits w 3 2) (bits w 0 3))
  | 1 => accept w [] (.atswp (bits w 21 5) (bits w 16 5) (bits w 11 5) (bits w 10 1) (bits w 9 1) (bits w 3 2) (bits w 0 3))
  | 2 => accept w [] (.atcas (bits w 21 5) (bits w 16 5) (bits w 11 5) (bits w 10 1) (bits w 9 1) (bits w 3 2) (bits w 0 3))
  | 3 => accept w [] (.atmin (bits w 21 5) (bits w 16 5) (bits w 11 5) (bits w 10 1) (bits w 9 1) (bits w 3 2) (bits w 0 3))
  | 4 => accept w [] (.atmax (bits w 21 5) (bits w 16 5) (bits w 11 5) (bits w 10 1) (bits w 9 1) (bits w 3 2) (bits w 0 3))
  | 5 => accept w [] (.atminn (bits w 21 5) (bits w 16 5) (bits w 11 5) (bits w 10 1) (bits w 9 1) (bits w 3 2) (bits w 0 3))
  | 6 => accept w [] (.atmaxn (bits w 21 5) (bits w 16 5) (bits w 11 5) (bits w 10 1) (bits w 9 1) (bits w 3 2) (bits w 0 3))
  | 7 => accept w [] (.atand (bits w 21 5) (bits w 16 5) (bits w 11 5) (bits w 10 1) (bits w 9 1) (bits w 3 2) (bits w 0 3))
  | 8 => accept w [] (.ator (bits w 21 5) (bits w 16 5) (bits w 11 5) (bits w 10 1) (bits w 9 1) (bits w 3 2) (bits w 0 3))
  | 9 => accept w [] (.atxor (bits w 21 5) (bits w 16 5) (bits w 11 5) (bits w 10 1) (bits w 9 1) (bits w 3 2) (bits w 0 3))
  | 10 => accept w [(21, 5), (3, 1)] (.redadd (bits w 16 5) (bits w 11 5) (bits w 10 1) (bits w 9 1) (bits w 4 1) (bits w 0 3))
  | 11 => accept w [(21, 5), (3, 1)] (.redmin (bits w 16 5) (bits w 11 5) (bits w 10 1) (bits w 9 1) (bits w 4 1) (bits w 0 3))
  | 12 => accept w [(21, 5), (3, 1)] (.redmax (bits w 16 5) (bits w 11 5) (bits w 10 1) (bits w 9 1) (bits w 4 1) (bits w 0 3))
  | 13 => if (bits w 3 2).toNat == 1 then accept w [(11, 5), (9, 1)] (.lda (bits w 21 5) (bits w 16 5) (bits w 10 1) (bits w 0 3)) else .error .illegalOperand
  | 14 => if (bits w 3 2).toNat == 2 then accept w [(21, 5)] (.stl (bits w 16 5) (bits w 11 5) (bits w 10 1) (bits w 9 1) (bits w 0 3)) else .error .illegalOperand
  | _ => .error .unassignedFn

/-- Major 0x14 (R43). -/
noncomputable def decodeSync (w : BitVec 32) : Except DecodeError Instr :=
  match (bits w 0 9).toNat with
  | 0 => accept w [(11, 5), (9, 1)] (.sytas (bits w 21 5) (bits w 16 5) (bits w 10 1))
  | 1 => accept w [] (.syfadd (bits w 21 5) (bits w 16 5) (bits w 11 5) (bits w 10 1) (bits w 9 1))
  | 2 => accept w [(11, 5), (9, 1)] (.syrd (bits w 21 5) (bits w 16 5) (bits w 10 1))
  | 3 => accept w [(21, 5)] (.sywr (bits w 16 5) (bits w 11 5) (bits w 10 1) (bits w 9 1))
  | 4 => accept w [(21, 5)] (.sywait (bits w 16 5) (bits w 11 5) (bits w 10 1) (bits w 9 1))
  | _ => .error .unassignedFn

/-- Major 0x15 (R43). -/
noncomputable def decodeTag (w : BitVec 32) : Except DecodeError Instr :=
  match (bits w 12 3).toNat with
  | 0 => accept w [] (.ldff (bits w 21 5) (bits w 16 5) (bits w 15 1) (bits w 0 12))
  | 1 => accept w [] (.ldfe (bits w 21 5) (bits w 16 5) (bits w 15 1) (bits w 0 12))
  | 2 => accept w [] (.stef (bits w 21 5) (bits w 16 5) (bits w 15 1) (bits w 0 12))
  | 3 => accept w [] (.stff (bits w 21 5) (bits w 16 5) (bits w 15 1) (bits w 0 12))
  | 4 => accept w [(21, 5)] (.feclr (bits w 16 5) (bits w 15 1) (bits w 0 12))
  | 5 => accept w [] (.feq (bits w 21 5) (bits w 16 5) (bits w 15 1) (bits w 0 12))
  | _ => .error .unassignedFn

/-- Major 0x16 (R43). -/
noncomputable def decodeVers (w : BitVec 32) : Except DecodeError Instr :=
  match (bits w 0 9).toNat with
  | 0 => accept w [] (.vrld (bits w 21 5) (bits w 16 5) (bits w 11 5) (bits w 10 1) (bits w 9 1))
  | 1 => accept w [(21, 1)] (.vrldle (bits w 22 4) (bits w 16 5) (bits w 11 5) (bits w 10 1) (bits w 9 1))
  | 2 => accept w [] (.vrst (bits w 21 5) (bits w 16 5) (bits w 11 5) (bits w 10 1) (bits w 9 1))
  | 3 => accept w [(21, 5)] (.vrfloor (bits w 16 5) (bits w 11 5) (bits w 10 1) (bits w 9 1))
  | 4 => accept w [(11, 5), (9, 1)] (.vrtop (bits w 21 5) (bits w 16 5) (bits w 10 1))
  | 5 => accept w [] (.vrpoll (bits w 21 5) (bits w 16 5) (bits w 11 5) (bits w 10 1) (bits w 9 1))
  | _ => .error .unassignedFn

/-- Major 0x17 (R43). -/
noncomputable def decodeEng (w : BitVec 32) : Except DecodeError Instr :=
  match (bits w 0 11).toNat with
  | 0 => accept w [(23, 3), (11, 5)] (.qpush (bits w 21 2) (bits w 16 5))
  | 1 => accept w [(18, 3), (11, 5)] (.qpop (bits w 21 5) (bits w 16 2))
  | 2 => accept w [(25, 1), (11, 5)] (.spbind (bits w 21 4) (bits w 16 5))
  | 3 => accept w [(25, 1), (11, 10)] (.spunb (bits w 21 4))
  | 4 => accept w [(25, 1), (11, 10)] (.spdrain (bits w 21 4))
  | 5 => accept w [(20, 1), (11, 5)] (.spstat (bits w 21 5) (bits w 16 4))
  | 6 => accept w [(11, 5)] (.bcopy (bits w 21 5) (bits w 16 5))
  | 7 => accept w [(11, 5)] (.xcopy (bits w 21 5) (bits w 16 5))
  | 8 => accept w [(11, 5)] (.tenq (bits w 21 5) (bits w 16 5))
  | 9 => accept w [(11, 5)] (.twin (bits w 21 5) (bits w 16 5))
  | 10 => accept w [(21, 5), (11, 5)] (.trel (bits w 16 5))
  | 11 => accept w [(21, 5), (11, 5)] (.tcancel (bits w 16 5))
  | 12 => accept w [(11, 1)] (.bwred (bits w 21 5) (bits w 16 5) (bits w 12 4))
  | 13 => accept w [(21, 5)] (.pgmig (bits w 16 5) (bits w 11 5))
  | _ => .error .unassignedFn

/-- Major 0x18 (R43). -/
noncomputable def decodeVint (w : BitVec 32) : Except DecodeError Instr :=
  match (bits w 0 5).toNat with
  | 0 => accept w [] (.vadd (bits w 21 5) (bits w 16 5) (bits w 11 5) (bits w 5 6))
  | 1 => accept w [] (.vsub (bits w 21 5) (bits w 16 5) (bits w 11 5) (bits w 5 6))
  | 2 => accept w [] (.vmul (bits w 21 5) (bits w 16 5) (bits w 11 5) (bits w 5 6))
  | 3 => accept w [] (.vmac (bits w 21 5) (bits w 16 5) (bits w 11 5) (bits w 5 6))
  | 4 => accept w [] (.vmsb (bits w 21 5) (bits w 16 5) (bits w 11 5) (bits w 5 6))
  | 5 => accept w [] (.vssa (bits w 21 5) (bits w 16 5) (bits w 11 5) (bits w 5 6))
  | 6 => accept w [] (.vmin (bits w 21 5) (bits w 16 5) (bits w 11 5) (bits w 5 6))
  | 7 => accept w [] (.vmax (bits w 21 5) (bits w 16 5) (bits w 11 5) (bits w 5 6))
  | 8 => accept w [] (.vand (bits w 21 5) (bits w 16 5) (bits w 11 5) (bits w 5 6))
  | 9 => accept w [] (.vor (bits w 21 5) (bits w 16 5) (bits w 11 5) (bits w 5 6))
  | 10 => accept w [] (.vxor (bits w 21 5) (bits w 16 5) (bits w 11 5) (bits w 5 6))
  | 11 => accept w [] (.vandn (bits w 21 5) (bits w 16 5) (bits w 11 5) (bits w 5 6))
  | 12 => accept w [] (.vshl (bits w 21 5) (bits w 16 5) (bits w 11 5) (bits w 5 6))
  | 13 => accept w [] (.vshr (bits w 21 5) (bits w 16 5) (bits w 11 5) (bits w 5 6))
  | 14 => accept w [] (.vmulh (bits w 21 5) (bits w 16 5) (bits w 11 5) (bits w 5 6))
  | 15 => accept w [] (.vsel (bits w 21 5) (bits w 16 5) (bits w 11 5) (bits w 5 6))
  | _ => .error .unassignedFn

/-- Major 0x19 (R43). -/
noncomputable def decodeVints (w : BitVec 32) : Except DecodeError Instr :=
  match (bits w 0 5).toNat with
  | 0 => accept w [] (.vadds (bits w 21 5) (bits w 16 5) (bits w 11 5) (bits w 5 6))
  | 1 => accept w [] (.vsubs (bits w 21 5) (bits w 16 5) (bits w 11 5) (bits w 5 6))
  | 2 => accept w [] (.vrsubs (bits w 21 5) (bits w 16 5) (bits w 11 5) (bits w 5 6))
  | 3 => accept w [] (.vmuls (bits w 21 5) (bits w 16 5) (bits w 11 5) (bits w 5 6))
  | 4 => accept w [] (.vmacs (bits w 21 5) (bits w 16 5) (bits w 11 5) (bits w 5 6))
  | 5 => accept w [] (.vmins (bits w 21 5) (bits w 16 5) (bits w 11 5) (bits w 5 6))
  | 6 => accept w [] (.vmaxs (bits w 21 5) (bits w 16 5) (bits w 11 5) (bits w 5 6))
  | 7 => accept w [] (.vands (bits w 21 5) (bits w 16 5) (bits w 11 5) (bits w 5 6))
  | 8 => accept w [] (.vors (bits w 21 5) (bits w 16 5) (bits w 11 5) (bits w 5 6))
  | 9 => accept w [] (.vxors (bits w 21 5) (bits w 16 5) (bits w 11 5) (bits w 5 6))
  | 10 => accept w [] (.vshls (bits w 21 5) (bits w 16 5) (bits w 11 5) (bits w 5 6))
  | 11 => accept w [] (.vshrs (bits w 21 5) (bits w 16 5) (bits w 11 5) (bits w 5 6))
  | 12 => accept w [(16, 5)] (.vbcast (bits w 21 5) (bits w 11 5) (bits w 5 6))
  | 13 => accept w [] (.vrand (bits w 21 5) (bits w 16 5) (bits w 11 5) (bits w 5 6))
  | 14 => accept w [] (.vslup (bits w 21 5) (bits w 16 5) (bits w 11 5) (bits w 5 6))
  | 15 => accept w [] (.vsldn (bits w 21 5) (bits w 16 5) (bits w 11 5) (bits w 5 6))
  | _ => .error .unassignedFn

/-- Major 0x1A (R43). -/
noncomputable def decodeVun (w : BitVec 32) : Except DecodeError Instr :=
  match (bits w 0 5).toNat with
  | 0 => accept w [(11, 5)] (.vmov (bits w 21 5) (bits w 16 5) (bits w 5 6))
  | 1 => accept w [(11, 5)] (.vnot (bits w 21 5) (bits w 16 5) (bits w 5 6))
  | 2 => accept w [(11, 5)] (.vneg (bits w 21 5) (bits w 16 5) (bits w 5 6))
  | 3 => accept w [(11, 5)] (.vabs (bits w 21 5) (bits w 16 5) (bits w 5 6))
  | 4 => accept w [(11, 5)] (.vcvt (bits w 21 5) (bits w 16 5) (bits w 5 6))
  | 5 => accept w [(11, 5)] (.vsatc (bits w 21 5) (bits w 16 5) (bits w 5 6))
  | 6 => accept w [] (.vhad (bits w 21 5) (bits w 16 5) (bits w 11 5) (bits w 5 6))
  | _ => .error .unassignedFn

/-- Major 0x1B (R43). -/
noncomputable def decodeVx (w : BitVec 32) : Except DecodeError Instr :=
  match (bits w 0 5).toNat with
  | 0 => accept w [] (.vidx (bits w 21 5) (bits w 13 8) (bits w 5 8))
  | _ => .error .unassignedFn

/-- Major 0x1C (R43). -/
noncomputable def decodeVc (w : BitVec 32) : Except DecodeError Instr :=
  match (bits w 0 4).toNat with
  | 0 => accept w [] (.vceq (bits w 20 6) (bits w 15 5) (bits w 10 5) (bits w 4 6))
  | 1 => accept w [] (.vcne (bits w 20 6) (bits w 15 5) (bits w 10 5) (bits w 4 6))
  | 2 => accept w [] (.vclt (bits w 20 6) (bits w 15 5) (bits w 10 5) (bits w 4 6))
  | 3 => accept w [] (.vcle (bits w 20 6) (bits w 15 5) (bits w 10 5) (bits w 4 6))
  | 4 => accept w [] (.vceqs (bits w 20 6) (bits w 15 5) (bits w 10 5) (bits w 4 6))
  | 5 => accept w [] (.vcnes (bits w 20 6) (bits w 15 5) (bits w 10 5) (bits w 4 6))
  | 6 => accept w [] (.vclts (bits w 20 6) (bits w 15 5) (bits w 10 5) (bits w 4 6))
  | 7 => accept w [] (.vcles (bits w 20 6) (bits w 15 5) (bits w 10 5) (bits w 4 6))
  | 8 => accept w [] (.vcgts (bits w 20 6) (bits w 15 5) (bits w 10 5) (bits w 4 6))
  | 9 => accept w [] (.vcges (bits w 20 6) (bits w 15 5) (bits w 10 5) (bits w 4 6))
  | 10 => accept w [] (.vtst (bits w 20 6) (bits w 15 5) (bits w 10 5) (bits w 4 6))
  | 11 => accept w [] (.fceq (bits w 20 6) (bits w 15 5) (bits w 10 5) (bits w 4 6))
  | 12 => accept w [] (.fclt (bits w 20 6) (bits w 15 5) (bits w 10 5) (bits w 4 6))
  | 13 => accept w [] (.fcle (bits w 20 6) (bits w 15 5) (bits w 10 5) (bits w 4 6))
  | 14 => accept w [] (.fcun (bits w 20 6) (bits w 15 5) (bits w 10 5) (bits w 4 6))
  | _ => .error .unassignedFn

/-- Major 0x1D (R43). -/
noncomputable def decodePred (w : BitVec 32) : Except DecodeError Instr :=
  match (bits w 0 5).toNat with
  | 0 => accept w [(5, 3)] (.pand (bits w 20 6) (bits w 14 6) (bits w 8 6))
  | 1 => accept w [(5, 3)] (.por (bits w 20 6) (bits w 14 6) (bits w 8 6))
  | 2 => accept w [(5, 3)] (.pxor (bits w 20 6) (bits w 14 6) (bits w 8 6))
  | 3 => accept w [(5, 3)] (.pandn (bits w 20 6) (bits w 14 6) (bits w 8 6))
  | 4 => accept w [(5, 9)] (.pnot (bits w 20 6) (bits w 14 6))
  | 5 => accept w [(5, 9)] (.pmov (bits w 20 6) (bits w 14 6))
  | 6 => accept w [(5, 15)] (.pall (bits w 20 6))
  | 7 => accept w [(5, 15)] (.pclr (bits w 20 6))
  | 8 => accept w [(20, 1), (5, 9)] (.pcnt (bits w 21 5) (bits w 14 6))
  | 9 => accept w [(20, 1), (5, 9)] (.pffs (bits w 21 5) (bits w 14 6))
  | 10 => accept w [(5, 3)] (.pfilt (bits w 20 6) (bits w 14 6) (bits w 8 6))
  | 11 => accept w [(20, 6), (5, 9)] (.mpush (bits w 14 6))
  | 12 => accept w [(5, 21)] (.minv)
  | 13 => accept w [(5, 21)] (.mpop)
  | 14 => accept w [(5, 15)] (.mtop (bits w 20 6))
  | 15 => accept w [(5, 15)] (.seamrd (bits w 20 6))
  | 16 => accept w [(20, 6), (5, 9)] (.seamwr (bits w 14 6))
  | _ => .error .unassignedFn

/-- Major 0x1E (R43). -/
noncomputable def decodeReduce (w : BitVec 32) : Except DecodeError Instr :=
  match (bits w 0 5).toNat with
  | 0 => accept w [] (.vredsum (bits w 21 5) (bits w 16 5) (bits w 11 5) (bits w 5 6))
  | 1 => accept w [] (.vredmin (bits w 21 5) (bits w 16 5) (bits w 11 5) (bits w 5 6))
  | 2 => accept w [] (.vredmax (bits w 21 5) (bits w 16 5) (bits w 11 5) (bits w 5 6))
  | 3 => accept w [] (.vredand (bits w 21 5) (bits w 16 5) (bits w 11 5) (bits w 5 6))
  | 4 => accept w [] (.vredor (bits w 21 5) (bits w 16 5) (bits w 11 5) (bits w 5 6))
  | 5 => accept w [] (.vargmax (bits w 21 5) (bits w 16 5) (bits w 11 5) (bits w 5 6))
  | 6 => accept w [] (.vargmin (bits w 21 5) (bits w 16 5) (bits w 11 5) (bits w 5 6))
  | 7 => accept w [] (.fredsum (bits w 21 5) (bits w 16 5) (bits w 11 5) (bits w 5 6))
  | 8 => accept w [] (.fredmax (bits w 21 5) (bits w 16 5) (bits w 11 5) (bits w 5 6))
  | 9 => accept w [] (.fargmax (bits w 21 5) (bits w 16 5) (bits w 11 5) (bits w 5 6))
  | _ => .error .unassignedFn

/-- Major 0x1F (R43). -/
noncomputable def decodeScan (w : BitVec 32) : Except DecodeError Instr :=
  match (bits w 0 5).toNat with
  | 0 => accept w [(11, 5)] (.vscansum (bits w 21 5) (bits w 16 5) (bits w 5 6))
  | 1 => accept w [(11, 5)] (.vscanmax (bits w 21 5) (bits w 16 5) (bits w 5 6))
  | 2 => accept w [(11, 5)] (.vscanmin (bits w 21 5) (bits w 16 5) (bits w 5 6))
  | 3 => accept w [(11, 5)] (.fscansum (bits w 21 5) (bits w 16 5) (bits w 5 6))
  | 4 => accept w [(11, 5)] (.vcompress (bits w 21 5) (bits w 16 5) (bits w 5 6))
  | 5 => accept w [(11, 5)] (.vexpand (bits w 21 5) (bits w 16 5) (bits w 5 6))
  | 6 => accept w [] (.vperm (bits w 21 5) (bits w 16 5) (bits w 11 5) (bits w 5 6))
  | _ => .error .unassignedFn

/-- Major 0x20 (R43). -/
noncomputable def decodeFloat (w : BitVec 32) : Except DecodeError Instr :=
  match (bits w 0 5).toNat with
  | 0 => accept w [] (.fadd (bits w 21 5) (bits w 16 5) (bits w 11 5) (bits w 5 6))
  | 1 => accept w [] (.fsub (bits w 21 5) (bits w 16 5) (bits w 11 5) (bits w 5 6))
  | 2 => accept w [] (.fmul (bits w 21 5) (bits w 16 5) (bits w 11 5) (bits w 5 6))
  | 3 => accept w [] (.fma (bits w 21 5) (bits w 16 5) (bits w 11 5) (bits w 5 6))
  | 4 => accept w [] (.fmin (bits w 21 5) (bits w 16 5) (bits w 11 5) (bits w 5 6))
  | 5 => accept w [] (.fmax (bits w 21 5) (bits w 16 5) (bits w 11 5) (bits w 5 6))
  | 6 => accept w [(11, 5)] (.fabs (bits w 21 5) (bits w 16 5) (bits w 5 6))
  | 7 => accept w [(11, 5)] (.fneg (bits w 21 5) (bits w 16 5) (bits w 5 6))
  | 8 => accept w [(11, 5)] (.fcvt (bits w 21 5) (bits w 16 5) (bits w 5 6))
  | 9 => accept w [(11, 5)] (.fcvti (bits w 21 5) (bits w 16 5) (bits w 5 6))
  | 10 => accept w [(11, 5)] (.fcvtf (bits w 21 5) (bits w 16 5) (bits w 5 6))
  | 11 => accept w [(11, 5)] (.fexp2 (bits w 21 5) (bits w 16 5) (bits w 5 6))
  | 12 => accept w [(11, 5)] (.frcp (bits w 21 5) (bits w 16 5) (bits w 5 6))
  | 13 => accept w [] (.fscl (bits w 21 5) (bits w 16 5) (bits w 11 5) (bits w 5 6))
  | _ => .error .unassignedFn

/-- Major 0x21 (R43). -/
noncomputable def decodeMx (w : BitVec 32) : Except DecodeError Instr :=
  match (bits w 0 5).toNat with
  | 0 => accept w [(11, 5)] (.mxscl (bits w 21 5) (bits w 16 5) (bits w 5 6))
  | 1 => accept w [(11, 5)] (.mxqnt (bits w 21 5) (bits w 16 5) (bits w 5 6))
  | 2 => accept w [] (.mxbdot (bits w 21 5) (bits w 16 5) (bits w 11 5) (bits w 5 6))
  | 3 => accept w [(25, 1), (20, 1), (5, 11)] (.emov (bits w 21 4) (bits w 16 4))
  | 4 => accept w [(11, 5)] (.vqnt (bits w 21 5) (bits w 16 5) (bits w 5 6))
  | _ => .error .unassignedFn

/-- Major 0x22 (R43). -/
noncomputable def decodeVmem (w : BitVec 32) : Except DecodeError Instr :=
  match (bits w 0 5).toNat with
  | 0 => accept w [(11, 5)] (.vld (bits w 21 5) (bits w 16 5) (bits w 5 6))
  | 1 => accept w [(11, 5)] (.vst (bits w 21 5) (bits w 16 5) (bits w 5 6))
  | 2 => accept w [] (.vlds (bits w 21 5) (bits w 16 5) (bits w 11 5) (bits w 5 6))
  | 3 => accept w [] (.vsts (bits w 21 5) (bits w 16 5) (bits w 11 5) (bits w 5 6))
  | 4 => accept w [] (.vldx (bits w 21 5) (bits w 16 5) (bits w 11 5) (bits w 5 6))
  | 5 => accept w [] (.vstx (bits w 21 5) (bits w 16 5) (bits w 11 5) (bits w 5 6))
  | 6 => accept w [(11, 5)] (.vldl (bits w 21 5) (bits w 16 5) (bits w 5 6))
  | 7 => accept w [(11, 5)] (.vstl (bits w 21 5) (bits w 16 5) (bits w 5 6))
  | 8 => accept w [(21, 5), (11, 5)] (.pld (bits w 16 5) (bits w 5 6))
  | 9 => accept w [(21, 5), (11, 5)] (.pst (bits w 16 5) (bits w 5 6))
  | 10 => accept w [(15, 1)] (.mxld (bits w 21 5) (bits w 16 5) (bits w 11 4) (bits w 5 6))
  | 11 => accept w [(15, 1)] (.mxst (bits w 21 5) (bits w 16 5) (bits w 11 4) (bits w 5 6))
  | 12 => accept w [] (.vvrld (bits w 21 5) (bits w 16 5) (bits w 11 5) (bits w 5 6))
  | 13 => accept w [] (.vvrst (bits w 21 5) (bits w 16 5) (bits w 11 5) (bits w 5 6))
  | _ => .error .unassignedFn

/-- Major 0x24 (R43). -/
noncomputable def decodeConf (w : BitVec 32) : Except DecodeError Instr :=
  match (bits w 0 4).toNat with
  | 0 => accept w [(4, 12)] (.setvl (bits w 21 5) (bits w 16 5))
  | 1 => accept w [(4, 12)] (.setvlf (bits w 21 5) (bits w 16 5))
  | 2 => accept w [(21, 5), (4, 12)] (.vkill (bits w 16 5))
  | _ => .error .unassignedFn

/-- Major 0x26 (R43). -/
noncomputable def decodePedigree (w : BitVec 32) : Except DecodeError Instr :=
  match (bits w 0 4).toNat with
  | 0 => accept w [(10, 16), (4, 4)] (.pgclr (bits w 8 2))
  | 1 => accept w [(25, 1), (4, 4)] (.pgadd (bits w 20 5) (bits w 15 5) (bits w 10 5) (bits w 8 2))
  | 2 => accept w [(4, 4)] (.pganc (bits w 20 6) (bits w 15 5) (bits w 10 5) (bits w 8 2))
  | 3 => accept w [(25, 1), (10, 5), (4, 4)] (.pgpos (bits w 20 5) (bits w 15 5) (bits w 8 2))
  | 4 => accept w [(25, 1), (10, 5), (4, 4)] (.pgpath (bits w 20 5) (bits w 15 5) (bits w 8 2))
  | 5 => accept w [(25, 1), (4, 4)] (.pgprune (bits w 20 5) (bits w 15 5) (bits w 10 5) (bits w 8 2))
  | 6 => accept w [(25, 1), (4, 4)] (.pgrd (bits w 20 5) (bits w 15 5) (bits w 10 5) (bits w 8 2))
  | 7 => accept w [(25, 1), (4, 4)] (.pgcnt (bits w 20 5) (bits w 15 5) (bits w 10 5) (bits w 8 2))
  | 8 => accept w [(25, 1), (10, 10), (4, 4)] (.pgsize (bits w 20 5) (bits w 8 2))
  | _ => .error .unassignedFn

/-- Major 0x27 (R43). -/
noncomputable def decodeSpl (w : BitVec 32) : Except DecodeError Instr :=
  match (bits w 0 11).toNat with
  | 0 => accept w [(11, 10)] (.split (bits w 21 5))
  | 1 => accept w [(11, 15)] (.join)
  | 2 => accept w [(11, 10)] (.mtid (bits w 21 5))
  | _ => .error .unassignedFn

/-- The instruction a word is, or why it is none (R37, R43). -/
noncomputable def decode (w : BitVec 32) : Except DecodeError Instr :=
  match (bits w 26 6).toNat with
  | 1 => decodeInt w
  | 2 => accept w [] (.addi (bits w 21 5) (bits w 16 5) (bits w 15 1) (bits w 0 15))
  | 3 => accept w [] (.andi (bits w 21 5) (bits w 16 5) (bits w 15 1) (bits w 0 15))
  | 4 => accept w [] (.ori (bits w 21 5) (bits w 16 5) (bits w 15 1) (bits w 0 15))
  | 5 => accept w [] (.xori (bits w 21 5) (bits w 16 5) (bits w 15 1) (bits w 0 15))
  | 6 => decodeShfi w
  | 7 => accept w [] (.slti (bits w 21 5) (bits w 16 5) (bits w 15 1) (bits w 0 15))
  | 8 => accept w [(0, 3)] (.ins16 (bits w 21 5) (bits w 19 2) (bits w 3 16))
  | 9 => accept w [] (.ldi (bits w 21 5) (bits w 0 21))
  | 10 => decodeLoad w
  | 11 => decodeStore w
  | 12 => decodeBranch w
  | 13 => accept w [] (.jmp (bits w 0 26))
  | 14 => accept w [] (.call (bits w 0 26))
  | 15 => decodeCtl w
  | 16 => accept w [(16, 5)] (.loop (bits w 21 5) (bits w 0 16))
  | 17 => accept w [] (.loopi (bits w 16 10) (bits w 0 16))
  | 18 => decodeSys w
  | 19 => decodeAtom w
  | 20 => decodeSync w
  | 21 => decodeTag w
  | 22 => decodeVers w
  | 23 => decodeEng w
  | 24 => decodeVint w
  | 25 => decodeVints w
  | 26 => decodeVun w
  | 27 => decodeVx w
  | 28 => decodeVc w
  | 29 => decodePred w
  | 30 => decodeReduce w
  | 31 => decodeScan w
  | 32 => decodeFloat w
  | 33 => decodeMx w
  | 34 => decodeVmem w
  | 35 => accept w [] (.setvlx (bits w 21 5) (bits w 16 5) (bits w 0 16))
  | 36 => decodeConf w
  | 37 => accept w [(0, 10)] (.setew (bits w 22 4) (bits w 18 4) (bits w 13 5) (bits w 12 1) (bits w 11 1) (bits w 10 1))
  | 38 => decodePedigree w
  | 39 => decodeSpl w
  | 40 => accept w [(0, 10)] (.pfx (bits w 20 6) (bits w 19 1) (bits w 14 5) (bits w 13 1) (bits w 12 1) (bits w 11 1) (bits w 10 1))
  | _ => .error .unassignedMajor

/-- The word of four bytes, the first the least significant (R6, R36). -/
def wordOfBytes (b0 b1 b2 b3 : Byte) : BitVec 32 := b3 ++ b2 ++ b1 ++ b0

/-- Reads one instruction from bytes and gives the bytes after it. -/
noncomputable def decodeBytes : List Byte → Except DecodeError (Instr × List Byte)
  | b0 :: b1 :: b2 :: b3 :: rest =>
    match decode (wordOfBytes b0 b1 b2 b3) with
    | .ok i => .ok (i, rest)
    | .error e => .error e
  | _ => .error .tooShort

/-- The instruction of a word numbered as the opcode table numbers its bits; every row has 32 bits or none. -/
noncomputable def decodeTableWord (nbits w : Nat) : Option Instr :=
  if nbits ≤ 32 then
    let x := BitVec.ofNat 32 (w % 2 ^ nbits)
    match decodeBytes [x.extractLsb' 0 8, x.extractLsb' 8 8, x.extractLsb' 16 8, x.extractLsb' 24 8] with
    | .ok (i, _) => some i
    | .error _ => none
  else none

/-- Format A (R39): the word of a major opcode and the fields, high to low. -/
def wA (major : BitVec 6) (d a b : BitVec 5) (f g : BitVec 1) (fn : BitVec 9) : BitVec 32 :=
  BitVec.ofNat 32 (major.toNat * 2 ^ 26 + d.toNat * 2 ^ 21 + a.toNat * 2 ^ 16 + b.toNat * 2 ^ 11 + f.toNat * 2 ^ 10 + g.toNat * 2 ^ 9 + fn.toNat)

/-- Format I (R39): the word of a major opcode and the fields, high to low. -/
def wI (major : BitVec 6) (d a : BitVec 5) (f : BitVec 1) (i : BitVec 15) : BitVec 32 :=
  BitVec.ofNat 32 (major.toNat * 2 ^ 26 + d.toNat * 2 ^ 21 + a.toNat * 2 ^ 16 + f.toNat * 2 ^ 15 + i.toNat)

/-- Format M (gs for stores) (R39): the word of a major opcode and the fields, high to low. -/
def wM (major : BitVec 6) (d a : BitVec 5) (f : BitVec 1) (fn : BitVec 3) (o : BitVec 12) : BitVec 32 :=
  BitVec.ofNat 32 (major.toNat * 2 ^ 26 + d.toNat * 2 ^ 21 + a.toNat * 2 ^ 16 + f.toNat * 2 ^ 15 + fn.toNat * 2 ^ 12 + o.toNat)

/-- Format B (R39): the word of a major opcode and the fields, high to low. -/
def wB (major : BitVec 6) (a b : BitVec 5) (f g : BitVec 1) (fn : BitVec 3) (o : BitVec 11) : BitVec 32 :=
  BitVec.ofNat 32 (major.toNat * 2 ^ 26 + a.toNat * 2 ^ 21 + b.toNat * 2 ^ 16 + f.toNat * 2 ^ 15 + g.toNat * 2 ^ 14 + fn.toNat * 2 ^ 11 + o.toNat)

/-- Format J (R39): the word of a major opcode and the fields, high to low. -/
def wJ (major : BitVec 6) (o : BitVec 26) : BitVec 32 :=
  BitVec.ofNat 32 (major.toNat * 2 ^ 26 + o.toNat)

/-- Format L of LOOP (R39): the word of a major opcode and the fields, high to low. -/
def wL (major : BitVec 6) (a : BitVec 5) (e : BitVec 16) : BitVec 32 :=
  BitVec.ofNat 32 (major.toNat * 2 ^ 26 + a.toNat * 2 ^ 21 + e.toNat)

/-- Format L of LOOPI (R39): the word of a major opcode and the fields, high to low. -/
def wLI (major : BitVec 6) (c : BitVec 10) (e : BitVec 16) : BitVec 32 :=
  BitVec.ofNat 32 (major.toNat * 2 ^ 26 + c.toNat * 2 ^ 16 + e.toNat)

/-- Formats V, VS, VR and VM (R39): the word of a major opcode and the fields, high to low. -/
def wV (major : BitVec 6) (d a b : BitVec 5) (p : BitVec 6) (fn : BitVec 5) : BitVec 32 :=
  BitVec.ofNat 32 (major.toNat * 2 ^ 26 + d.toNat * 2 ^ 21 + a.toNat * 2 ^ 16 + b.toNat * 2 ^ 11 + p.toNat * 2 ^ 5 + fn.toNat)

/-- Format VC (R39): the word of a major opcode and the fields, high to low. -/
def wVC (major : BitVec 6) (d : BitVec 6) (a b : BitVec 5) (p : BitVec 6) (fn : BitVec 4) : BitVec 32 :=
  BitVec.ofNat 32 (major.toNat * 2 ^ 26 + d.toNat * 2 ^ 20 + a.toNat * 2 ^ 15 + b.toNat * 2 ^ 10 + p.toNat * 2 ^ 4 + fn.toNat)

/-- Format P (R39): the word of a major opcode and the fields, high to low. -/
def wP (major : BitVec 6) (d a b : BitVec 6) (fn : BitVec 5) : BitVec 32 :=
  BitVec.ofNat 32 (major.toNat * 2 ^ 26 + d.toNat * 2 ^ 20 + a.toNat * 2 ^ 14 + b.toNat * 2 ^ 8 + fn.toNat)

/-- Format VX (R39): the word of a major opcode and the fields, high to low. -/
def wVX (major : BitVec 6) (d : BitVec 5) (s t : BitVec 8) (fn : BitVec 5) : BitVec 32 :=
  BitVec.ofNat 32 (major.toNat * 2 ^ 26 + d.toNat * 2 ^ 21 + s.toNat * 2 ^ 13 + t.toNat * 2 ^ 5 + fn.toNat)

/-- Format Q (R39): the word of a major opcode and the fields, high to low. -/
def wQ (major : BitVec 6) (x y z : BitVec 5) (fn : BitVec 11) : BitVec 32 :=
  BitVec.ofNat 32 (major.toNat * 2 ^ 26 + x.toNat * 2 ^ 21 + y.toNat * 2 ^ 16 + z.toNat * 2 ^ 11 + fn.toNat)

/-- Format Z (R39): the word of a major opcode and the fields, high to low. -/
def wZ (major : BitVec 6) (d a : BitVec 5) (i : BitVec 12) (fn : BitVec 4) : BitVec 32 :=
  BitVec.ofNat 32 (major.toNat * 2 ^ 26 + d.toNat * 2 ^ 21 + a.toNat * 2 ^ 16 + i.toNat * 2 ^ 4 + fn.toNat)

/-- Format SV (R39): the word of a major opcode and the fields, high to low. -/
def wSV (major : BitVec 6) (d a : BitVec 5) (o : BitVec 16) : BitVec 32 :=
  BitVec.ofNat 32 (major.toNat * 2 ^ 26 + d.toNat * 2 ^ 21 + a.toNat * 2 ^ 16 + o.toNat)

/-- Format EW (R39): the word of a major opcode and the fields, high to low. -/
def wEW (major : BitVec 6) (a b : BitVec 4) (d : BitVec 5) (x y z : BitVec 1) : BitVec 32 :=
  BitVec.ofNat 32 (major.toNat * 2 ^ 26 + a.toNat * 2 ^ 22 + b.toNat * 2 ^ 18 + d.toNat * 2 ^ 13 + x.toNat * 2 ^ 12 + y.toNat * 2 ^ 11 + z.toNat * 2 ^ 10)

/-- Format PG (R39): the word of a major opcode and the fields, high to low. -/
def wPG (major : BitVec 6) (d : BitVec 6) (a b : BitVec 5) (t : BitVec 2) (fn : BitVec 4) : BitVec 32 :=
  BitVec.ofNat 32 (major.toNat * 2 ^ 26 + d.toNat * 2 ^ 20 + a.toNat * 2 ^ 15 + b.toNat * 2 ^ 10 + t.toNat * 2 ^ 8 + fn.toNat)

/-- Format X (R39): the word of a major opcode and the fields, high to low. -/
def wX (major : BitVec 6) (p : BitVec 6) (i : BitVec 1) (v : BitVec 5) (c e l u : BitVec 1) : BitVec 32 :=
  BitVec.ofNat 32 (major.toNat * 2 ^ 26 + p.toNat * 2 ^ 20 + i.toNat * 2 ^ 19 + v.toNat * 2 ^ 14 + c.toNat * 2 ^ 13 + e.toNat * 2 ^ 12 + l.toNat * 2 ^ 11 + u.toNat * 2 ^ 10)

/-- Format INS16 (R39): the word of a major opcode and the fields, high to low. -/
def wN (major : BitVec 6) (d : BitVec 5) (s : BitVec 2) (i : BitVec 16) : BitVec 32 :=
  BitVec.ofNat 32 (major.toNat * 2 ^ 26 + d.toNat * 2 ^ 21 + s.toNat * 2 ^ 19 + i.toNat * 2 ^ 3)

/-- Format LDI (R39): the word of a major opcode and the fields, high to low. -/
def wD (major : BitVec 6) (d : BitVec 5) (i : BitVec 21) : BitVec 32 :=
  BitVec.ofNat 32 (major.toNat * 2 ^ 26 + d.toNat * 2 ^ 21 + i.toNat)

/-- The word of an instruction (R39, R43); an operation or event has none and gives 0, which is no instruction. -/
def encode : Instr → BitVec 32
  | .add d a b f g => wA 1 d a b f g 0
  | .sub d a b f g => wA 1 d a b f g 1
  | .mul d a b f g => wA 1 d a b f g 2
  | .mulh d a b f g => wA 1 d a b f g 3
  | .mulhn d a b f g => wA 1 d a b f g 4
  | .div d a b f g => wA 1 d a b f g 5
  | .divn d a b f g => wA 1 d a b f g 6
  | .rem d a b f g => wA 1 d a b f g 7
  | .remn d a b f g => wA 1 d a b f g 8
  | .and d a b f g => wA 1 d a b f g 9
  | .or d a b f g => wA 1 d a b f g 10
  | .xor d a b f g => wA 1 d a b f g 11
  | .andn d a b f g => wA 1 d a b f g 12
  | .shl d a b f g => wA 1 d a b f g 13
  | .shr d a b f g => wA 1 d a b f g 14
  | .sar d a b f g => wA 1 d a b f g 15
  | .min d a b f g => wA 1 d a b f g 16
  | .max d a b f g => wA 1 d a b f g 17
  | .minn d a b f g => wA 1 d a b f g 18
  | .maxn d a b f g => wA 1 d a b f g 19
  | .slt d a b f g => wA 1 d a b f g 20
  | .sltn d a b f g => wA 1 d a b f g 21
  | .clz d a f => wA 1 d a 0 f 0 22
  | .ctz d a f => wA 1 d a 0 f 0 23
  | .popc d a f => wA 1 d a 0 f 0 24
  | .mov d a f => wA 1 d a 0 f 0 25
  | .gfull d a => wA 1 d a 0 0 0 26
  | .gempty d => wA 1 d 0 0 0 0 27
  | .addi d a f i => wI 2 d a f i
  | .andi d a f i => wI 3 d a f i
  | .ori d a f i => wI 4 d a f i
  | .xori d a f i => wI 5 d a f i
  | .shli d a f n => wI 6 d a f (0#9 ++ n)
  | .shri d a f n => wI 6 d a f (128#9 ++ n)
  | .sari d a f n => wI 6 d a f (256#9 ++ n)
  | .slti d a f i => wI 7 d a f i
  | .ins16 d s i => wN 8 d s i
  | .ldi d i => wD 9 d i
  | .ldb d a f o => wM 10 d a f 0 o
  | .ldbz d a f o => wM 10 d a f 1 o
  | .ldh d a f o => wM 10 d a f 2 o
  | .ldhz d a f o => wM 10 d a f 3 o
  | .ldw d a f o => wM 10 d a f 4 o
  | .ldwz d a f o => wM 10 d a f 5 o
  | .ldd d a f o => wM 10 d a f 6 o
  | .ldq d a f o => wM 10 (d ++ 0#1) a f 7 o
  | .stb s a f o => wM 11 s a f 0 o
  | .sth s a f o => wM 11 s a f 1 o
  | .stw s a f o => wM 11 s a f 2 o
  | .std s a f o => wM 11 s a f 3 o
  | .stq s a f o => wM 11 (s ++ 0#1) a f 4 o
  | .beq a b f g o => wB 12 a b f g 0 o
  | .bne a b f g o => wB 12 a b f g 1 o
  | .blt a b f g o => wB 12 a b f g 2 o
  | .bge a b f g o => wB 12 a b f g 3 o
  | .bltn a b f g o => wB 12 a b f g 4 o
  | .bgen a b f g o => wB 12 a b f g 5 o
  | .bmz o => wB 12 0 0 0 0 6 o
  | .boq o => wB 12 0 0 0 0 7 o
  | .jmp o => wJ 13 o
  | .call o => wJ 14 o
  | .ret => wZ 15 0 0 0 0
  | .callr a => wZ 15 0 a 0 1
  | .jmpr a => wZ 15 0 a 0 2
  | .lexit => wZ 15 0 0 0 3
  | .lidx d l => wZ 15 d 0 (0#9 ++ l) 4
  | .lcnt d l => wZ 15 d 0 (0#9 ++ l) 5
  | .yield => wZ 15 0 0 0 6
  | .nop => wZ 15 0 0 0 7
  | .bopush a => wZ 15 0 a 0 8
  | .loop a e => wL 16 a e
  | .loopi c e => wLI 17 c e
  | .csrrd d c => wZ 18 d 0 c 0
  | .csrwr a c => wZ 18 0 a c 1
  | .csrset a c => wZ 18 0 a c 2
  | .csrclr a c => wZ 18 0 a c 3
  | .trap n => wZ 18 0 0 n 4
  | .rett => wZ 18 0 0 0 5
  | .halt => wZ 18 0 0 0 6
  | .gtsrd d => wZ 18 d 0 0 7
  | .evrd d => wZ 18 (d ++ 0#2) 0 0 8
  | .evwait => wZ 18 0 0 0 9
  | .waita d a => wZ 18 d a 0 10
  | .fence o s => wZ 18 0 0 (0#5 ++ o ++ s) 11
  | .sbar a => wZ 18 0 a 0 12
  | .ifence => wZ 18 0 0 0 13
  | .tlbinvAll a r => wZ 18 0 a (0#9 ++ r ++ 0#2) 14
  | .tlbinvPage a r => wZ 18 0 a (0#9 ++ r ++ 1#2) 14
  | .tlbinvContext a r => wZ 18 0 a (0#9 ++ r ++ 2#2) 14
  | .atadd d a b f g o s => wA 19 d a b f g (0#4 ++ o ++ s)
  | .atswp d a b f g o s => wA 19 d a b f g (1#4 ++ o ++ s)
  | .atcas d a b f g o s => wA 19 d a b f g (2#4 ++ o ++ s)
  | .atmin d a b f g o s => wA 19 d a b f g (3#4 ++ o ++ s)
  | .atmax d a b f g o s => wA 19 d a b f g (4#4 ++ o ++ s)
  | .atminn d a b f g o s => wA 19 d a b f g (5#4 ++ o ++ s)
  | .atmaxn d a b f g o s => wA 19 d a b f g (6#4 ++ o ++ s)
  | .atand d a b f g o s => wA 19 d a b f g (7#4 ++ o ++ s)
  | .ator d a b f g o s => wA 19 d a b f g (8#4 ++ o ++ s)
  | .atxor d a b f g o s => wA 19 d a b f g (9#4 ++ o ++ s)
  | .redadd a b f g o s => wA 19 0 a b f g (10#4 ++ o ++ 0#1 ++ s)
  | .redmin a b f g o s => wA 19 0 a b f g (11#4 ++ o ++ 0#1 ++ s)
  | .redmax a b f g o s => wA 19 0 a b f g (12#4 ++ o ++ 0#1 ++ s)
  | .lda d a f s => wA 19 d a 0 f 0 (53#6 ++ s)
  | .stl a b f g s => wA 19 0 a b f g (58#6 ++ s)
  | .sytas d a f => wA 20 d a 0 f 0 0
  | .syfadd d a b f g => wA 20 d a b f g 1
  | .syrd d a f => wA 20 d a 0 f 0 2
  | .sywr a b f g => wA 20 0 a b f g 3
  | .sywait a b f g => wA 20 0 a b f g 4
  | .ldff d a f o => wM 21 d a f 0 o
  | .ldfe d a f o => wM 21 d a f 1 o
  | .stef s a f o => wM 21 s a f 2 o
  | .stff s a f o => wM 21 s a f 3 o
  | .feclr a f o => wM 21 0 a f 4 o
  | .feq d a f o => wM 21 d a f 5 o
  | .vrld d a b f g => wA 22 d a b f g 0
  | .vrldle d a b f g => wA 22 (d ++ 0#1) a b f g 1
  | .vrst d a b f g => wA 22 d a b f g 2
  | .vrfloor a b f g => wA 22 0 a b f g 3
  | .vrtop d a f => wA 22 d a 0 f 0 4
  | .vrpoll d a b f g => wA 22 d a b f g 5
  | .qpush q s => wQ 23 (0#3 ++ q) s 0 0
  | .qpop d q => wQ 23 d (0#3 ++ q) 0 1
  | .spbind n a => wQ 23 (0#1 ++ n) a 0 2
  | .spunb n => wQ 23 (0#1 ++ n) 0 0 3
  | .spdrain n => wQ 23 (0#1 ++ n) 0 0 4
  | .spstat d n => wQ 23 d (0#1 ++ n) 0 5
  | .bcopy d a => wQ 23 d a 0 6
  | .xcopy d a => wQ 23 d a 0 7
  | .tenq d a => wQ 23 d a 0 8
  | .twin d a => wQ 23 d a 0 9
  | .trel a => wQ 23 0 a 0 10
  | .tcancel a => wQ 23 0 a 0 11
  | .bwred d a b => wQ 23 d a (b ++ 0#1) 12
  | .pgmig a b => wQ 23 0 a b 13
  | .vadd d a b p => wV 24 d a b p 0
  | .vsub d a b p => wV 24 d a b p 1
  | .vmul d a b p => wV 24 d a b p 2
  | .vmac d a b p => wV 24 d a b p 3
  | .vmsb d a b p => wV 24 d a b p 4
  | .vssa d a b p => wV 24 d a b p 5
  | .vmin d a b p => wV 24 d a b p 6
  | .vmax d a b p => wV 24 d a b p 7
  | .vand d a b p => wV 24 d a b p 8
  | .vor d a b p => wV 24 d a b p 9
  | .vxor d a b p => wV 24 d a b p 10
  | .vandn d a b p => wV 24 d a b p 11
  | .vshl d a b p => wV 24 d a b p 12
  | .vshr d a b p => wV 24 d a b p 13
  | .vmulh d a b p => wV 24 d a b p 14
  | .vsel d a b p => wV 24 d a b p 15
  | .vadds d a b p => wV 25 d a b p 0
  | .vsubs d a b p => wV 25 d a b p 1
  | .vrsubs d a b p => wV 25 d a b p 2
  | .vmuls d a b p => wV 25 d a b p 3
  | .vmacs d a b p => wV 25 d a b p 4
  | .vmins d a b p => wV 25 d a b p 5
  | .vmaxs d a b p => wV 25 d a b p 6
  | .vands d a b p => wV 25 d a b p 7
  | .vors d a b p => wV 25 d a b p 8
  | .vxors d a b p => wV 25 d a b p 9
  | .vshls d a b p => wV 25 d a b p 10
  | .vshrs d a b p => wV 25 d a b p 11
  | .vbcast d b p => wV 25 d 0 b p 12
  | .vrand d a b p => wV 25 d a b p 13
  | .vslup d a b p => wV 25 d a b p 14
  | .vsldn d a b p => wV 25 d a b p 15
  | .vmov d a p => wV 26 d a 0 p 0
  | .vnot d a p => wV 26 d a 0 p 1
  | .vneg d a p => wV 26 d a 0 p 2
  | .vabs d a p => wV 26 d a 0 p 3
  | .vcvt d a p => wV 26 d a 0 p 4
  | .vsatc d a p => wV 26 d a 0 p 5
  | .vhad d a k p => wV 26 d a k p 6
  | .vidx d s t => wVX 27 d s t 0
  | .vceq d a b p => wVC 28 d a b p 0
  | .vcne d a b p => wVC 28 d a b p 1
  | .vclt d a b p => wVC 28 d a b p 2
  | .vcle d a b p => wVC 28 d a b p 3
  | .vceqs d a b p => wVC 28 d a b p 4
  | .vcnes d a b p => wVC 28 d a b p 5
  | .vclts d a b p => wVC 28 d a b p 6
  | .vcles d a b p => wVC 28 d a b p 7
  | .vcgts d a b p => wVC 28 d a b p 8
  | .vcges d a b p => wVC 28 d a b p 9
  | .vtst d a b p => wVC 28 d a b p 10
  | .fceq d a b p => wVC 28 d a b p 11
  | .fclt d a b p => wVC 28 d a b p 12
  | .fcle d a b p => wVC 28 d a b p 13
  | .fcun d a b p => wVC 28 d a b p 14
  | .pand d a b => wP 29 d a b 0
  | .por d a b => wP 29 d a b 1
  | .pxor d a b => wP 29 d a b 2
  | .pandn d a b => wP 29 d a b 3
  | .pnot d a => wP 29 d a 0 4
  | .pmov d a => wP 29 d a 0 5
  | .pall d => wP 29 d 0 0 6
  | .pclr d => wP 29 d 0 0 7
  | .pcnt d a => wP 29 (d ++ 0#1) a 0 8
  | .pffs d a => wP 29 (d ++ 0#1) a 0 9
  | .pfilt d a b => wP 29 d a b 10
  | .mpush a => wP 29 0 a 0 11
  | .minv => wP 29 0 0 0 12
  | .mpop => wP 29 0 0 0 13
  | .mtop d => wP 29 d 0 0 14
  | .seamrd d => wP 29 d 0 0 15
  | .seamwr a => wP 29 0 a 0 16
  | .vredsum d a b p => wV 30 d a b p 0
  | .vredmin d a b p => wV 30 d a b p 1
  | .vredmax d a b p => wV 30 d a b p 2
  | .vredand d a b p => wV 30 d a b p 3
  | .vredor d a b p => wV 30 d a b p 4
  | .vargmax d a b p => wV 30 d a b p 5
  | .vargmin d a b p => wV 30 d a b p 6
  | .fredsum d a b p => wV 30 d a b p 7
  | .fredmax d a b p => wV 30 d a b p 8
  | .fargmax d a b p => wV 30 d a b p 9
  | .vscansum d a p => wV 31 d a 0 p 0
  | .vscanmax d a p => wV 31 d a 0 p 1
  | .vscanmin d a p => wV 31 d a 0 p 2
  | .fscansum d a p => wV 31 d a 0 p 3
  | .vcompress d a p => wV 31 d a 0 p 4
  | .vexpand d a p => wV 31 d a 0 p 5
  | .vperm d a b p => wV 31 d a b p 6
  | .fadd d a b p => wV 32 d a b p 0
  | .fsub d a b p => wV 32 d a b p 1
  | .fmul d a b p => wV 32 d a b p 2
  | .fma d a b p => wV 32 d a b p 3
  | .fmin d a b p => wV 32 d a b p 4
  | .fmax d a b p => wV 32 d a b p 5
  | .fabs d a p => wV 32 d a 0 p 6
  | .fneg d a p => wV 32 d a 0 p 7
  | .fcvt d a p => wV 32 d a 0 p 8
  | .fcvti d a p => wV 32 d a 0 p 9
  | .fcvtf d a p => wV 32 d a 0 p 10
  | .fexp2 d a p => wV 32 d a 0 p 11
  | .frcp d a p => wV 32 d a 0 p 12
  | .fscl d a b p => wV 32 d a b p 13
  | .mxscl d a p => wV 33 d a 0 p 0
  | .mxqnt d a p => wV 33 d a 0 p 1
  | .mxbdot d a b p => wV 33 d a b p 2
  | .emov e f => wV 33 (0#1 ++ e) (0#1 ++ f) 0 0 3
  | .vqnt d a p => wV 33 d a 0 p 4
  | .vld d a p => wV 34 d a 0 p 0
  | .vst s a p => wV 34 s a 0 p 1
  | .vlds d a b p => wV 34 d a b p 2
  | .vsts s a b p => wV 34 s a b p 3
  | .vldx d a b p => wV 34 d a b p 4
  | .vstx s a b p => wV 34 s a b p 5
  | .vldl d a p => wV 34 d a 0 p 6
  | .vstl s a p => wV 34 s a 0 p 7
  | .pld a p => wV 34 0 a 0 p 8
  | .pst a p => wV 34 0 a 0 p 9
  | .mxld d a e p => wV 34 d a (0#1 ++ e) p 10
  | .mxst s a e p => wV 34 s a (0#1 ++ e) p 11
  | .vvrld d a b p => wV 34 d a b p 12
  | .vvrst s a b p => wV 34 s a b p 13
  | .setvlx d a o => wSV 35 d a o
  | .setvl d a => wZ 36 d a 0 0
  | .setvlf d a => wZ 36 d a 0 1
  | .vkill a => wZ 36 0 a 0 2
  | .setew a b d x y z => wEW 37 a b d x y z
  | .pgclr t => wPG 38 0 0 0 t 0
  | .pgadd d a b t => wPG 38 (0#1 ++ d) a b t 1
  | .pganc d a b t => wPG 38 d a b t 2
  | .pgpos d a t => wPG 38 (0#1 ++ d) a 0 t 3
  | .pgpath d a t => wPG 38 (0#1 ++ d) a 0 t 4
  | .pgprune d a b t => wPG 38 (0#1 ++ d) a b t 5
  | .pgrd d a c t => wPG 38 (0#1 ++ d) a c t 6
  | .pgcnt d a b t => wPG 38 (0#1 ++ d) a b t 7
  | .pgsize d t => wPG 38 (0#1 ++ d) 0 0 t 8
  | .split n => wQ 39 n 0 0 0
  | .join => wQ 39 0 0 0 1
  | .mtid d => wQ 39 d 0 0 2
  | .pfx p i v c e l u => wX 40 p i v c e l u
  | .fillComplete _ _ _ => 0
  | .waitTimeout _ _ => 0
  | .feTimeout _ _ => 0
  | .verTimeout _ _ => 0
  | .verFull _ _ => 0
  | .trapDelivery _ _ => 0
  | .predeadlineExpiry _ _ => 0
  | .contextSave _ => 0
  | .teamRestore _ _ _ => 0
  | .teamPlace _ => 0
  | .victimSelection _ => 0
  | .hotSpotCheck => 0
  | .launch _ => 0
  | .launchLive _ => 0
  | .launchComplete _ => 0
  | .droverCopy _ => 0
  | .waitver _ => 0
  | .makever _ => 0
  | .droverFence _ => 0
  | .cancel _ => 0
  | .invalidRecord _ => 0
  | .qtailWrite _ _ => 0
  | .queueEnable _ => 0
  | .queueDisable _ => 0
  | .fltClear _ => 0
  | .hostEventRingEnable => 0
  | .hevheadWrite _ => 0
  | .hostEventRecord _ => 0
  | .registerWrite _ _ => 0
  | .pwrctlEnter => 0
  | .pwrctlExit => 0
  | .brnNAssert => 0
  | .brnNDeassert => 0
  | .engineParkDeadline => 0
  | .brownoutHeld => 0
  | .brownoutExit => 0
  | .brownoutResume => 0
  | .supplyLoss => 0
  | .coldBoot => 0
  | .attestationRequest _ => 0
  | .crookAssert => 0
  | .crookDeassert => 0
  | .crookRelease => 0
  | .crookRampStep => 0
  | .powerSample _ => 0
  | .powerLoop => 0
  | .thermalAdjust => 0
  | .lease _ => 0
  | .leaseExpiry => 0
  | .migrationScan => 0
  | .frameCounterHalving => 0
  | .migration => 0
  | .migrateDone => 0
  | .hotCounterHalving _ => 0
  | .bankRoleChange _ => 0
  | .bankSpare _ _ => 0
  | .scoreHalving => 0
  | .remap _ => 0
  | .testResult _ _ => 0
  | .timedRotation _ => 0
  | .suspicionSwap _ => 0
  | .swapEnd _ => 0
  | .eventSettle _ => 0
  | .copy _ _ => 0
  | .toslice _ _ => 0
  | .fromslice _ _ => 0
  | .planes _ _ => 0
  | .unplanes _ _ => 0
  | .mxsplit _ _ => 0
  | .copyDone _ _ => 0
  | .xcopyPut _ _ => 0
  | .xcopyGet _ _ => 0
  | .xcopyDataFlit _ => 0
  | .xcopyDone _ _ _ _ => 0
  | .xcopyPathTimeout _ _ => 0
  | .tileReady _ _ _ => 0
  | .tilePlace _ _ _ => 0
  | .kStep _ _ _ => 0
  | .tileWindowCommit _ _ _ => 0
  | .tileFetchFailure _ _ _ => 0
  | .tilePark _ _ _ => 0
  | .spoolFetch _ _ _ => 0
  | .postedReductionWalkEnd _ _ => 0
  | .floorApply _ _ => 0
  | .syncBroadcast _ => 0
  | .nak _ _ => 0
  | .ackTimer _ => 0
  | .replayTimeout _ => 0
  | .laneFailure _ _ => 0
  | .retrain _ => 0
  | .bellwetherPost _ => 0
  | .bellwetherResult _ => 0
  | .bwredRepost _ => 0
  | .cxlHostAccess _ _ _ _ => 0
  | .ucieSegmentFailure _ => 0
  | .dsModeChange _ => 0
  | .ill _ => 0
  | .flitReceived _ _ => 0
  | .hostSnoop _ _ => 0
  | .contextRegistration _ => 0
  | .contextDestruction _ => 0
  | .managementConfiguration _ => 0
  | .ucieLaneRepair _ _ => 0

/-- The row has an encoding: it is an instruction of a program, not an operation or event. -/
def Instr.encoded (i : Instr) : Bool := encode i != 0

end Sys2Proof
end

