-- ==== Sys2Proof/Config.lean ====
section
/-! DEFINITION. Sys2Proof/Config.lean: what an implementation fixes and the spec leaves open, as constants without a
body: a statement about them holds whatever they are. -/

namespace Sys2Proof

/-- The hash of R293: the index of a line's frequency counter. -/
opaque Config.hotHash (line : Nat) : Nat

/-- The fixed hash over a die's CACHE banks that gives the bank of a line whose home bank has another role (R290). -/
opaque Config.bankHash (pa : Nat) : Nat

/-- What the lanes' carry latches and compare latches hold after the `n`-th vector instruction admitted (R107). -/
opaque Config.latches (n : Nat) : Plane × Plane

/-- The size of the version overflow pool in entries, part of the boot configuration (R328). -/
opaque Config.overflowEntries : Nat

/-- The signature that the device identity key gives a report (R408): the key is the device's own. -/
opaque Config.sign (report : List Byte) : List Byte

/-- The firmware images that the boot ROM checks at cold boot, each with its signature (R408). -/
opaque Config.bootImages : List (List Byte × List Byte)

/-- The boot log's running digest before any image is measured (R408). -/
opaque Config.firstDigest : List Byte

/-- The modulus of the RSA-3072 key that comes with the firmware, and the digest of the key held in fuses (R408). -/
opaque Config.bootKey : List Byte × List Byte

/-- Whether the test at the `n`-th cold boot retires a physical cluster of a die (R278). -/
opaque Config.bootFails (n die cluster : Nat) : Bool

/-- Whether a retained rail fell below its minimum during the brown-out that was entered at a GTS (R388). -/
opaque Config.retentionFails (entry : Nat) : Bool

/-- The temperature in degrees that the `n`-th reading finds in a cluster (R373). -/
opaque Config.temperature (n die cluster : Nat) : Int

/-- The bytes of a save area whose contents R104 and R354 do not lay out (how the sequencers' state, a rename map's entries
and the split state are put into their parts): the `n`-th save, the offset in the area. -/
opaque Config.savedByte (n off : Nat) : Byte

/-- Temperatures and reuse leave the choice among free frames of a tier open (R376): the frame taken. -/
opaque Config.pickFrame (free : List Nat) : Nat

/-- A choice that the spec leaves open, the `n`-th one made. -/
opaque Config.choose (n : Nat) : Nat

/-- A byte of the CXL.io configuration space, of which the spec gives no register (R395): the `n`-th read, the offset. -/
opaque Config.configByte (n off : Nat) : Byte

/-- What the lanes hold for a spool element whose access failed or whose data is poisoned, by its address (R238). -/
opaque Config.faultedData (a : Word) : Nat

end Sys2Proof
end

