-- ==== Sys2Proof/Machine/State.lean ====
section
/-! DEFINITION. Sys2Proof/Machine/State.lean: the state of a Daxren package as plain data, the reasons a step can
stop, and the state after reset. Each structure names the rules that give it; a field marked MODEL'S OWN is not the
spec's (notes/assumptions). -/

namespace Sys2Proof.Machine

/-! ## Reasons to stop -/

/-- Faults of the model. Every trap of the spec (R97) is a next state, not one of these. -/
inductive Fault
  /-- A program instruction is executed while no hart is placed on the core in focus. Raised by `issue`; `step` never
  reaches it, because it runs only threads of placed harts. Safe: the hardware executes nothing there (R13, R367). -/
  | noHart
  deriving DecidableEq, Repr

/-- Refusals of the model. -/
inductive Refusal
  /-- The instruction has no meaning yet. No meaning answers with it. Safe. -/
  | notModelled (mnemonic : String)
  deriving DecidableEq, Repr

/-! ## Sequencer state -/

/-- Trap causes (R97). -/
inductive Cause
  | ill | illPfx | illLoopend | loopDepth | stackOvf | regEmpty | misalign | xlate | perm | spadRange
  | feTimeout | verGone | verDup | verTimeout | verFull | laneUe | stitchFail | pgOvf | pgBadnode | splitIll
  | syscall | priv | waitTimeout | spoolFault | engineFault | dataPoison | deferXlate | deferPerm
  deriving DecidableEq, Repr

/-- The number TCAUSE receives (R97). -/
def Cause.code : Cause → BitVec 8
  | .ill => 1 | .illPfx => 2 | .illLoopend => 3 | .loopDepth => 4 | .stackOvf => 5 | .regEmpty => 6
  | .misalign => 7 | .xlate => 8 | .perm => 9 | .spadRange => 10 | .feTimeout => 11 | .verGone => 12
  | .verDup => 13 | .verTimeout => 14 | .verFull => 15 | .laneUe => 16 | .stitchFail => 17 | .pgOvf => 18
  | .pgBadnode => 19 | .splitIll => 20 | .syscall => 21 | .priv => 22 | .waitTimeout => 23 | .spoolFault => 24
  | .engineFault => 25 | .dataPoison => 26 | .deferXlate => 27 | .deferPerm => 28

/-- An entry of the hardware loop stack (R12, R73). -/
structure LoopEntry where
  start : Word
  fin : Word
  count : Word
  index : Word
  lvl : Int
  deriving DecidableEq, Repr

/-- What a fill brings to its destinations (R17, R20). -/
inductive FillSrc
  /-- The access has been performed; these are the words. -/
  | value (ws : List Word)
  /-- QPOP: the head of the queue, not yet removed (R94). -/
  | queue (q : BitVec 2)
  /-- EVRD: the least removable record, not yet removed (R85). -/
  | event
  /-- LDFF or LDFE held at a scratchpad (R220). -/
  | tagged
  /-- A sync update performed at its home as update `upd`; the old value is returned once every mirror has it (R344). -/
  | sync (reg upd : Nat) (old : Word)
  /-- BWRED: the result of a group's sequence, posted last at `at` (R401). -/
  | bell (group : Nat) (seq : BitVec 32) (idx val : Word) (evt : Bool) (posted : Nat)
  /-- A LOAD of function `fn` that a forced pre-emption found stalled by a migration: not performed (R298). -/
  | load (fn : BitVec 3) (ea : Word)
  /-- An atomic that a forced pre-emption found stalled by a migration: not performed (R298). -/
  | atom (op : BitVec 4) (ea operand : Word) (cas : Option Word)
  deriving DecidableEq, Repr

/-- An outstanding fill: its destinations, all empty, in register order (R17). -/
structure Fill where
  id : Nat
  dests : List (BitVec 5)
  src : FillSrc
  deriving DecidableEq, Repr

/-- What a sequencer waits for (R19, R97 kinds 0-6, R221, R330, R331). `sample` is GFULL's wait to write what it has read
(R18, R62), `update` a SYWR whose update is performed at its home, `floor` a VRFLOOR whose floor is raised (R332, R344), `order`
an SBAR or IFENCE (R90, R91); these and `other` have no bound. -/
inductive WaitKind
  | reg | queue | branch | event | sync | waita | twin | tagged | version | room | sample | update | floor | order | other
  deriving DecidableEq, Repr

/-- An access that a thread has issued and not performed, as SBAR, IFENCE and a tile task's completion name it: a fill or a
posted reduction by its number, an engine command by its list and ticket, or what the thread waits in (R90, R91, R270). -/
inductive Owed
  | fill (id : Nat)
  | posted (id : Nat)
  | command (link : Bool) (ticket : BitVec 16)
  | wait (kind : WaitKind) (num : Word) (since : Nat)
  deriving DecidableEq, Repr

/-- How a version operation that waited at its home was settled (R330, R331, R337). -/
inductive VersEnd
  /-- A VRLD was given this value. -/
  | served (v : Word)
  /-- A VRST created its version. -/
  | made
  | gone
  | dup
  deriving DecidableEq, Repr

/-- What a waiting version operation asks its word's home: the context, the word's address, the version, the value that a
VRST stores, the bound of its wait in microseconds, and how it was settled, once it is (R329-R331, R337). -/
structure VersAsk where
  ctx : Nat
  addr : Word
  ver : BitVec 32
  val : Option Word
  bound : Nat
  ended : Option VersEnd := none
  deriving DecidableEq, Repr

/-- Which version instruction waits: VRLD into a register, VRST, or a vector form with the spools that it streams (R330, R331,
R335). -/
inductive VersOp
  | load (d : BitVec 5)
  | store
  | lanes (spools : List Nat)
  deriving DecidableEq, Repr

/-- A wait in progress: its kind, the number its timeout reports, when it began (R29), its bound in microseconds,
whether a held tagged store has been served (R221), what a version operation asks, for each word from the first one not
served on, and which one it is (R330, R335), the full registers that it marked empty at issue, which are full again if it ends
without being served (R330), VTIMEOUT as it stood when the instruction issued (R329), and the accesses that an SBAR or IFENCE
still waits for (R90, R91). -/
structure Wait where
  kind : WaitKind
  num : Word
  since : Nat
  bound : Nat
  served : Bool := false
  asks : List VersAsk := []
  op : VersOp := .store
  holds : List (BitVec 5) := []
  vtimeout : Nat := 0
  owed : List (Who × Owed) := []
  deriving DecidableEq, Repr

/-- What a sequencer is doing (R15, R83, R99, R101, R210). -/
inductive Run
  | running
  | halted
  /-- Parked at an iteration boundary or forced (R101, R103). -/
  | parked
  /-- A micro-thread that waits in JOIN (R210). -/
  | joined
  /-- Stopped by a double trap (R99). -/
  | stopped
  deriving DecidableEq, Repr

/-- A posted reduction whose walk continues, with its number (R304). -/
structure Posted where
  id : Nat := 0
  op4 : BitVec 4
  va : Word
  operand : Word
  user : Bool
  deriving DecidableEq, Repr

/-- A sequencer or micro-thread: what exists once per sequencer (R12-R21, R71, R98 scope S); TVEC counts in A and E
alone. `cut`: a forced pre-emption lands inside the instruction that the thread executes next, which stops at the
latest at this element if it records VSTART (R103). -/
structure Thread where
  pc : Word := 0
  g : Vector Word 32 := Vector.replicate 32 0
  full : BitVec 32 := BitVec.allOnes 32
  fills : List Fill := []
  clvl : Int := 0
  loops : List LoopEntry := []
  rets : List Word := []
  run : Run := .halted
  wait : Option Wait := none
  posted : List Posted := []
  deferred : List (Cause × Word) := []
  tcause : BitVec 8 := 0
  tval : Word := 0
  tpc : Word := 0
  tmt : BitVec 4 := 0
  busy : Bool := false
  super : Bool := false
  pfxp : Bool := false
  plvl : Bool := false
  tvec : Word := 0
  tkeep : Word := 0
  cut : Option Nat := none
  deriving DecidableEq, Repr

/-- The PFX fields (R27 PFXS, R47). -/
structure Pfx where
  pend : Bool := false
  pm : BitVec 6 := 0
  inv : Bool := false
  vc : BitVec 5 := 0
  ce : Bool := false
  pe : Bool := false
  lua : Bool := false
  lub : Bool := false
  deriving DecidableEq, Repr

/-- A vector register of a rename map (R109, R112): its bit-planes (stored width = their number, none when freed), the
SD of its last write, whether JOIN merged it since (R119, R210), and the renaming record: pool rows, pool or backing area, age of the last write; of a
spilled one, the marks (bit-plane, lane) of bits whose parity fails (R114, R251). -/
structure VReg where
  planes : List Plane := []
  sd : Bool := false
  merged : Bool := false
  rows : List Nat := []
  inPool : Bool := true
  stamp : Nat := 0
  marks : List (Nat × Nat) := []
  deriving DecidableEq, Repr

/-- A destination kept across an interruption (R176, R224): the register, the planes written so far, the pool rows, none
once it is spilled (R114), and the pending per-row register's planes when there is one. -/
structure Pending where
  vd : BitVec 5
  planes : List Plane
  rows : List Nat := []
  perRow : List Plane := []
  deriving DecidableEq, Repr

/-- What the execute sequencer holds once per micro-thread (R25 scope E, R112, R176), and the pool rows of a tile task's
part (R264). -/
structure EState where
  vl : Nat := 0
  ew : BitVec 16 := 0
  fmt : BitVec 12 := 0
  esel : BitVec 12 := 0
  vstart : BitVec 15 := 0
  vrstate : Word := 0
  msdepth : Nat := 0
  pfx : Pfx := {}
  ccnt : BitVec 15 := 0
  seamctl : BitVec 6 := 0
  sampstat : BitVec 2 := 0
  tilerows : Nat := 128
  tilecols : Nat := 128
  fstat : BitVec 4 := 0
  rcls : BitVec 2 := 1
  /-- v0-v31 (R41, R112, against the v33 of R417: DEDUCED, notes/assumptions/71.md). -/
  vregs : Vector VReg 32 := Vector.replicate 32 {}
  pending : Option Pending := none
  tile : List Nat := []
  deriving DecidableEq, Repr

/-- A micro-thread: its scalar and its lane side (R207). -/
structure Micro where
  thr : Thread := {}
  ex : EState := {}
  deriving DecidableEq, Repr

/-! ## Hart state -/

/-- A node of a pedigree tree (R197); LIVE and TREE follow from its place. -/
structure PgNode where
  uflags : BitVec 6
  dlp : BitVec 16
  token : BitVec 20
  depth : Nat
  parent : BitVec 10
  deriving DecidableEq, Repr

/-- A prefetched element of a read spool (R237, R238). -/
inductive SpEl
  | data (v : Nat)
  | fault (code : BitVec 4) (addr : Word)
  | poison (addr : Word)
  deriving DecidableEq, Repr

/-- A spool (R232-R240): its descriptor as bound, its position, what it has fetched from there on, the last fault, how
many indices an indirect kind has taken from its index spool, whether it fetches nothing until the instruction that a
fault stopped resumes (R238), and the elements of the strip that an interrupted instruction has passed, which VEXPAND reads
when it resumes (R172, R175). -/
structure Spool where
  bound : Bool := false
  desc : List Word := []
  super : Bool := false
  pos : Nat := 0
  buf : List SpEl := []
  code : BitVec 4 := 0
  faddr : Word := 0
  ibase : Nat := 0
  held : Bool := false
  past : List SpEl := []
  deriving DecidableEq, Repr

/-- What a request held at a scratchpad word asks (R219). -/
inductive TagOp
  | ldff | ldfe | stef (v : Word)
  deriving DecidableEq, Repr

/-- A tagged request held at a scratchpad (R220): who waits, with which fill, since when, and the address it names. -/
structure TagReq where
  id : Nat
  core : CoreId
  who : Who
  fill : Nat
  op : TagOp
  word : Nat
  ea : Word
  since : Nat
  bound : Nat
  deriving DecidableEq, Repr

/-- An engine command of a core, Bobbin or XCOPY (R241-R245, R397-R399): its ticket, its descriptor, the hart (team,
number, context) and thread that issued it, whether it has started and as the how-many-th command of the package (R244,
R315), whether it has ended, its status, count done and faulting address, the bytes of a PUT that were sent, the parts of its destination (offset, length)
that are written, the port that it took when it started (R398), the GTS since when its path is down, and the GTS at which its
completion record was posted (R246, R348). -/
structure EngCmd where
  ticket : BitVec 16
  desc : List Word
  super : Bool
  who : Who
  team : Nat := 0
  hartid : Nat := 0
  ctx : Nat := 0
  started : Bool := false
  stamp : Nat := 0
  ended : Bool := false
  status : BitVec 8 := 0
  done : Nat := 0
  sent : Nat := 0
  got : List (Nat × Nat) := []
  faddr : Word := 0
  port : Option Nat := none
  downSince : Option Nat := none
  postedAt : Option Nat := none
  deriving DecidableEq, Repr

/-- A request to park (R101, R103): since when, and at which GTS it is forced. -/
structure ParkReq where
  since : Nat
  force : Nat
  deriving DecidableEq, Repr

/-- A queued event record and whether it is HELD or LATE is in its flags (R246, R348). -/
structure EvItem where
  record : EvRec
  arrived : Nat
  settled : Bool
  deriving DecidableEq, Repr

/-- The parent's scalar state that SPLIT saves; its mask levels, seam mask and spilled return entries lie in the backing
area (R114, R208). -/
structure SplitSave where
  thr : Thread
  ex : EState
  deriving DecidableEq, Repr

/-- A hart (R13) with everything its context holds (R104): identity (R27), the two sequencers, the micro-threads, the
H-scope CSRs, queues, scratchpad, the rows of the register pool by number, those not listed 0 (R107, R109), the marks
(logical row, lane) of stored bits whose parity fails (R249, R251), lane state that is not renamed, pedigree file, spools,
events and the next ticket. -/
structure Hart where
  team : Nat := 0
  ctx : Nat := 0
  hartid : Nat := 0
  teamid : Nat := 0
  teamsize : Nat := 1
  corelid : Nat := 0
  a : Thread := {}
  e : Thread := {}
  ex : EState := {}
  split : Nat := 0
  mts : Vector Micro 16 := Vector.replicate 16 {}
  splitSave : Option SplitSave := none
  trapMt : Option (Fin 16) := none
  cycles : Nat := 0
  ds : Bool := false
  dsPending : Option Bool := none
  fetimeout : BitVec 32 := 1000
  vtimeout : BitVec 32 := 10000
  waittimeout : BitVec 32 := 100000
  predeadline : BitVec 32 := 100
  ctxbase : Nat := 0
  area : Nat := 0
  backing : Nat := 0
  tilesave : Nat := 0
  qs : Vector (List Word) 4 := Vector.replicate 4 []
  bo : List Bool := []
  spad : List Host.Cell := []
  spadEmpty : List Nat := []
  spadWait : List TagReq := []
  pool : List (Nat × Plane) := []
  damaged : List (Nat × Nat) := []
  preds : Vector Plane 64 := Vector.replicate 64 0
  levels : Vector Plane 24 := Vector.replicate 24 0
  seam : Plane := 0
  slice : Vector Plane 256 := Vector.replicate 256 0
  scales : Vector (List Byte) 16 := Vector.replicate 16 (List.replicate 512 0x7F)
  trees : Vector (List PgNode) 4 := Vector.replicate 4 []
  spools : Vector Spool 16 := Vector.replicate 16 {}
  evq : List EvItem := []
  evHeld : List EvRec := []
  nextTicket : BitVec 16 := 1
  iters : List Nat := []
  inIter : Bool := false
  fillSeq : Nat := 0
  writeSeq : Nat := 0
  park : Option ParkReq := none
  deriving DecidableEq, Repr

/-! ## Core state -/

/-- A cached translation (R294-R297): context, page, frame, the leaf's rights, and where the leaf lies. -/
structure TlbEntry where
  ctx : Nat
  base : Nat
  size : Nat
  pa : Nat
  leaf : Nat
  glob : Bool
  user : Bool
  x : Bool
  w : Bool
  r : Bool
  d : Bool
  deriving DecidableEq, Repr

/-- The state of a line in an L1 data cache that holds it (R291). -/
inductive LineState
  | shared | exclusive | modified
  deriving DecidableEq, Repr

/-- A physical core (R2): its resident hart, its caches (R91, R217, R291, R297), the commands of its Bobbin engine and those
it gave the link engines, which outlive the hart's stay (R105, R241, R244, R398), its lanes' rows that belong to no hart:
operand buffer, carry and compare latches (R107, R249), and its lanes' condition (R248-R256): the map from logical to
physical lane groups and how many spare groups it has taken, each physical group's map from logical rows to spare rows
1,008-1,023 (group, row, spare), the rows whose parity has failed and that are to be retired (physical group, row), the
checks that will fail in a lane and the copies that will differ (lane, times), and the bits (row, lane) of the operand buffer that
lose their parity while it holds the next instruction's operands (R249, R251). -/
structure Core where
  resident : Bool := false
  hart : Hart := {}
  icache : List (Nat × List Byte) := []
  l1 : List (Nat × LineState) := []
  tlb : List TlbEntry := []
  bobbin : List EngCmd := []
  xcopy : List EngCmd := []
  opBuf : List Plane := []
  carry : Plane := 0
  compare : Plane := 0
  laneGroups : List (Nat × Nat) := []
  spareGroups : Nat := 0
  spareRows : List (Nat × Nat × Nat) := []
  failedRows : List (Nat × Nat) := []
  laneErrs : List (Nat × Nat) := []
  stitchErrs : List (Nat × Nat) := []
  bufErrs : List (Nat × Nat) := []
  moveErrs : List Nat := []
  deriving DecidableEq, Repr

/-! ## Clusters and dies -/

/-- The state of a tile slot (R269). -/
inductive TileState
  | free | waiting | ready | running | hold | drain | parked
  deriving DecidableEq, Repr

/-- A part of a placed tile task (R261, R270): its core and hart, windows committed and released, WRAP of the window
last committed, and the accesses of its streams that precede its final TREL and were not performed then. -/
structure TilePart where
  core : Nat
  hart : Nat
  committed : Nat := 0
  released : Nat := 0
  wrap : Bool := false
  owed : List (Who × Owed) := []
  deriving DecidableEq, Repr

/-- One operand value of a k-step: significand and power of two, after the scale (R140, R262). -/
structure KVal where
  sig : Int
  exp : Int
  deriving DecidableEq, Repr

/-- A slot of a tile scheduler (R267-R270): generation, record, scale snapshots, the team and core that enqueued it,
its parts, the window in progress, how many of its k-steps are done, the operands of those, one list for each k-step (of A by row, of
B by column; none is a NaN), the 16-byte parts read whose
lines k-steps still to come use: address, physical line, bytes, and whether the unit stalls for want of room for a line
(R266). -/
structure TileSlot where
  state : TileState := .free
  gen : Nat := 1
  record : List Word := []
  snapA : List Byte := []
  snapB : List Byte := []
  team : Nat := 0
  hart : Nat := 0
  ctx : Nat := 0
  core : CoreId := ⟨0, 0, 0⟩
  super : Bool := false
  parts : List TilePart := []
  window : Nat := 0
  kdone : Nat := 0
  opsA : List (List (Option KVal)) := []
  opsB : List (List (Option KVal)) := []
  fetched : List (Word × Nat × List Byte) := []
  starved : Bool := false
  deriving DecidableEq, Repr

/-- The role of a physical cluster (R278). -/
inductive Role
  | visible | paddock | reserve | retired
  deriving DecidableEq, Repr

/-- A physical cluster: role, whether it is leaving (R280), PATTERN, EFF and thermal count (R276, R384), temperature in
degrees (an input), whether no team could be moved from it when hot (R384), the tile fetch unit's cached translations
(R297), the scheduler's slots (R267). -/
structure Cluster where
  role : Role := .visible
  leaving : Bool := false
  pattern : BitVec 16 := 0xFFFF
  eff : BitVec 16 := 0xFFFF
  thermal : Nat := 16
  temp : Int := 0
  stuckHot : Bool := false
  tlb : List TlbEntry := []
  slots : Vector TileSlot 64 := Vector.replicate 64 {}
  deriving DecidableEq, Repr

/-- A swap in progress on a die: outgoing cluster, incoming cluster if any, and the cluster that failed its test when
there is none (R280, R283). -/
structure Swap where
  out : Nat
  inn : Option Nat
  failed : Nat := 0
  deriving DecidableEq, Repr

/-- A tile-operand line that is pinned: the line, the bank that holds it, and the cluster (die, number) and slot that use it
(R266, R286, R288). -/
structure OpPin where
  line : Nat
  bank : Nat
  die : Nat
  cluster : Nat
  slot : Nat
  deriving DecidableEq, Repr

/-- A compute die: power grant (R120), bank roles and their change (R287, R288), bank spares (R285), hot counters and
pins, the least recently used first (R293), pinned tile-operand lines (R266), the lines that L2 holds, each with its bank
(R2, R290), atomic contention counters (R299), cluster rotation (R279-R283), and the faults that the test of its paddock
has found: a lane group of a core, or one of its logical rows (R279). -/
structure Die where
  gvl : Nat := 16384
  bankSel : Bool := false
  bankBusy : Bool := false
  roles : Vector (BitVec 3) 32 := (Vector.replicate 32 0).set 31 4
  newRoles : List (Nat × BitVec 3) := []
  bankMap : List (Nat × Nat) := []
  bankSpares : Nat := 0
  hot : List (Nat × Nat) := []
  hotCount : Nat := 0
  pins : List (Nat × BitVec 2) := []
  opPins : List OpPin := []
  l2 : List (Nat × Nat) := []
  contention : List (Nat × Nat) := []
  clusters : Vector Cluster 66 :=
    ((Vector.replicate 66 {}).set 64 { role := .paddock }).set 65 { role := .reserve }
  rotPtr : Nat := 65
  lastSwapEnd : Option Nat := none
  swap : Option Swap := none
  paddockReady : Bool := false
  testBegan : Nat := 0
  testFaults : List (CoreId × Nat × Option Nat) := []
  deriving DecidableEq, Repr

/-! ## Versioned regions and sync registers -/

/-- A versioned word's versions, and its base version (R327). -/
structure VersWord where
  addr : Word
  live : List (BitVec 32 × Word) := []
  base : Option (BitVec 32 × Word) := none
  deriving DecidableEq, Repr

/-- A declared region (R323): its context and number, its range, the floor in force, each die's applied floor, and for each
die the floors raised, in order, that it has still to apply (R332, R337). -/
structure Region where
  ctx : Nat
  num : Nat
  base : Word
  length : Nat
  timeout : Nat
  scope : Nat
  depth : Nat
  floor : BitVec 32
  applied : Vector (BitVec 32) 8
  raised : Vector (List (BitVec 32)) 8 := Vector.replicate 8 []
  words : List VersWord := []
  deriving DecidableEq, Repr

/-- Whose completion version is created at a word's home: a launch's, a MAKEVER's, or a tile task's (R339). -/
inductive Maker
  | launch (id : Nat)
  | command (order : Nat)
  | tile (die cluster slot : Nat)
  deriving DecidableEq, Repr

/-- A completion version that waits at the depth, and since when (R339). -/
structure Making where
  maker : Maker
  since : Nat
  ask : VersAsk
  deriving DecidableEq, Repr

/-- A sync update on its way to a die's mirror (R342). -/
structure SyncMsg where
  reg : Nat
  upd : Nat
  val : Word
  deriving DecidableEq, Repr

/-! ## Drover -/

/-- A registered context (R353-R355): the words of its descriptor, its marks, whether its regions are declared, the
parts of its save pool in use (offset, length). -/
structure Context where
  num : Nat
  desc : List Word
  poisoned : Bool := false
  failed : Bool := false
  declared : Bool := false
  pool : List (Nat × Nat) := []
  deriving DecidableEq, Repr

/-- A command ring's queue (R356-R361). -/
structure Queue where
  en : Bool := false
  err : Bool := false
  flt : Bool := false
  prio : BitVec 3 := 0
  quantum : BitVec 16 := 1
  lsize : BitVec 4 := 0
  ctx : BitVec 16 := 0
  base : BitVec 57 := 0
  tail : BitVec 32 := 0
  head : BitVec 32 := 0
  deficit : Nat := 0
  headerDue : Bool := false
  dueBase : BitVec 57 := 0
  dueCtx : BitVec 16 := 0
  deriving DecidableEq, Repr

/-- A command read from a ring and not completed (R360-R362): its order of consumption, queue, context, record words,
whether it has started and as the how-many-th command of the package, and its status once it has ended while the store of
its completion word waits (R298, R315, R360). A LAUNCH is
one only in that last case. -/
structure Cmd where
  order : Nat
  q : Nat
  ctx : Nat
  record : List Word
  started : Bool := false
  ended : Option Nat := none
  stamp : Nat := 0
  deriving DecidableEq, Repr

/-- Where a launch stands (R362-R368). -/
inductive LaunchState
  | waiting | live | complete
  deriving DecidableEq, Repr

/-- A launch (R362-R369): its command, its loop-nest record's words, its walker's next ordinal, its teams, and
whether its preconditions have been met. -/
structure Launch where
  order : Nat
  q : Nat
  ctx : Nat
  record : List Word
  nest : List Word
  state : LaunchState := .waiting
  next : Nat := 0
  placed : Bool := false
  nextTeam : Nat := 0
  cancelled : Bool := false
  failed : Bool := false
  gone : Bool := false
  met : Bool := false
  readySince : Option Nat := none
  deriving DecidableEq, Repr

/-- Where a team stands (R370). -/
inductive TeamState
  | running | parking | saved | released | failed
  deriving DecidableEq, Repr

/-- A team (R366-R373): its launch, its cores in HARTID order (those it left while SAVED), its save areas (base, size:
context save and register backing area of each hart in turn, then the tile save area), while SAVED its harts and its
parked tile slots, the GTS of its hot-spot moves and of its last move of any kind, whether the pending park is a
hot-spot move, the cluster that a swap gives it, whether a swap moves it (R280), and whether it had parked for a swap when brown-out
was entered (R282). -/
structure Team where
  launch : Nat
  ctx : Nat
  teamid : Nat
  prio : BitVec 3
  q : Nat
  state : TeamState := .running
  die : Nat
  cluster : Nat
  cores : List Nat
  saved : List Hart := []
  slots : List (Nat × TileSlot) := []
  areas : List (Nat × Nat) := []
  placeOrder : Nat := 0
  parkedAt : Nat := 0
  failing : Bool := false
  moves : List Nat := []
  lastMove : Option Nat := none
  hotMove : Bool := false
  target : Option (Nat × Nat) := none
  swapMove : Bool := false
  atEntry : Bool := false
  deriving DecidableEq, Repr

/-! ## Power, migration, fabric, management -/

/-- The power controller, the crook, the brown-out register, whether engines have parked for it, and the leases
(R381-R389, R404-R407). -/
structure Power where
  capCount : Nat := 16
  sampleSum : Nat := 0
  sampleCount : Nat := 0
  crookOn : Bool := false
  crookEnd : Option Nat := none
  crookCount : Nat := 16
  brn : Bool := false
  hold : Bool := false
  lost : Bool := false
  state : BitVec 2 := 0
  entryGts : Nat := 0
  engPark : Bool := false
  src : BitVec 12 := 0
  failsafe : BitVec 16 := 1200
  leaseValid : Bool := false
  leaseExp : Bool := false
  leaseCap : BitVec 16 := 1200
  leaseSeq : BitVec 32 := 0
  leaseSeen : Bool := false
  leaseEnd : Nat := 0
  deriving DecidableEq, Repr

/-- A request to the migration engine (R376-R379): the page, where it goes, and who is told; `auto`: the frame of a request
that the engine makes itself. -/
structure MigReq where
  va : Word
  ctx : Nat
  tier : BitVec 2
  notify : Bool
  core : CoreId
  team : Nat
  hart : Nat
  user : Bool
  auto : Option Nat := none
  deriving DecidableEq, Repr

/-- A migration in progress: the leaf's address and size, the old and new frame, and the request it serves. -/
structure MigRun where
  leaf : Nat
  size : Nat
  src : Nat
  dst : Nat
  req : MigReq
  deriving DecidableEq, Repr

/-- The migration engine (R376-R379): reverse map (leaf recorded, its frame and size), frame access counters, the free
frames as numbers of 64 KiB. -/
structure Migration where
  reqs : List MigReq := []
  run : Option MigRun := none
  rmap : List (Nat × Nat × Nat) := []
  counts : List (Nat × Nat) := []
  free : List Nat := []
  deriving DecidableEq, Repr

/-- The width of a Rigieb link (R390). -/
inductive Width
  | x16 | x8low | x8high | down
  deriving DecidableEq, Repr

/-- A Rigieb link (R390-R394): width, failed lanes, the lane the spare stands for, standby of the peer, the sender's
replay buffer, next sequence and last acknowledgement, the receiver's expected sequence, whether its NAK for the gap is
sent, flits accepted since the last ACK and since when, what goes out next, and accepted flits for the layer above; whether
this module reports STANDBY, when a flit last was on its way, since when a lane has failed, until when the link retrains, and the
nodes that no flit through it can reach, with since when (R393, R394, R399). -/
structure Link where
  width : Width := .x16
  failed : List Nat := []
  spare : Option Nat := none
  standby : Bool := false
  replay : List Flit := []
  nextSeq : BitVec 16 := 0
  ackWait : Option Nat := none
  expect : BitVec 16 := 0
  nakSent : Bool := false
  unacked : Nat := 0
  unackedSince : Option Nat := none
  out : List Flit := []
  rx : List Flit := []
  node : BitVec 12 := 0
  downSince : Option Nat := none
  resting : Bool := false
  lastFlit : Nat := 0
  failedAt : Option Nat := none
  trainEnd : Option Nat := none
  cut : List (BitVec 12 × Nat) := []
  deriving DecidableEq, Repr

/-- A remote module's command that this module serves (R398, R399): the issuer's node and core, the ticket, its operation, this
module's address and context, the issuer's address, bytes, how many are done, since when and at which start it runs. -/
structure Remote where
  node : BitVec 12
  core : Nat
  ticket : BitVec 16
  get : Bool
  ctx : Nat
  addr : Word
  back : Word
  count : Nat
  done : Nat := 0
  got : List (Nat × Nat) := []
  since : Nat
  stamp : Nat
  deriving DecidableEq, Repr

/-- A bellwether group (R400-R402): members, root, last completed sequence and its winner, posts of the next. -/
structure Group where
  num : Nat
  members : List (BitVec 12 × CoreId)
  root : BitVec 12
  last : BitVec 32 := 0
  any : Bool := false
  win : Word × Word := (0, 0)
  posts : List (BitVec 32 × Nat × Word × Word) := []
  deriving DecidableEq, Repr

/-- A unit that has a suspicion score (R351): lane groups by physical number, L2 banks by physical number,
pseudo-channels by HBM4 stack, link lanes by link and lane, UCIe lanes by segment and lane. -/
inductive ScoreUnit
  | laneGroup (c : CoreId) (g : Nat)
  | core (c : CoreId)
  | cluster (die cluster : Nat)
  | bank (die bank : Nat)
  | channel (stack channel : Nat)
  | link (port lane : Nat)
  | ucie (segment lane : Nat)
  deriving DecidableEq, Repr

/-- The management controller and the boot ROM (R351, R380, R398, R400, R408); `bootFailed`: an image failed its check, and
the module offers only the attestation mailbox. -/
structure Mgmt where
  routes : List (BitVec 12 × Nat) := []
  access : List (BitVec 12 × BitVec 16 × BitVec 16) := []
  groups : List Group := []
  segDown : List Nat := []
  laneRepairs : List (Nat × Nat) := []
  movedChannels : List (Nat × Nat) := []
  scores : List (ScoreUnit × Nat) := []
  replaced : List ScoreUnit := []
  reached : List ScoreUnit := []
  bootLog : List (List Byte) := []
  digest : List Byte := []
  report : List Byte := []
  reports : List (ScoreUnit × Nat) := []
  bootFailed : Bool := false
  dieFailed : List Nat := []
  deriving DecidableEq, Repr

/-- The host event ring and the Drover's buffer (R374). -/
structure HostRing where
  en : Bool := false
  ovf : Bool := false
  lsize : BitVec 4 := 0
  base : BitVec 52 := 0
  tail : BitVec 32 := 0
  head : BitVec 32 := 0
  buf : List EvRec := []
  deriving DecidableEq, Repr

/-- What the hardware around the machine and the host do to it besides the rows of the opcode table: faults that checks
find (R248-R256, R279, R349-R351), and the host's accesses of its own memory and of the register window (R8, R320, R395). -/
inductive Input
  /-- The next `n` checks of an element group in a lane fail (R250). -/
  | residue (c : CoreId) (lane n : Nat)
  /-- The next `n` comparisons of an element group with its mirror find a difference (R253). -/
  | mismatch (c : CoreId) (lane n : Nat)
  /-- The bit of a logical row in a lane loses its parity; one of the operand buffer does while the next instruction's operands
  stand there (R249, R251). -/
  | rowParity (c : CoreId) (row lane : Nat)
  /-- The data of a Bobbin command fail their parity, and again when read again (R349). -/
  | copyParity (c : CoreId) (ticket : Nat)
  /-- A check corrects an error of an L2 bank, a pseudo-channel or a link lane: one point (R351). -/
  | corrected (u : ScoreUnit)
  /-- A 16-byte part is found uncorrectable: it is poisoned, and the L2 bank or pseudo-channel that held it takes 16 points; no
  score counts LPDDR-6 (R349, R351). -/
  | uncorrectable (part : Nat) (u : Option ScoreUnit)
  /-- The row-move path of a core finds bad parity, and again when it reads again, the next time it moves a part between memory
  and lanes (R349). -/
  | moveParity (c : CoreId) (part : Nat)
  /-- The tile fetch unit or the scheduler of a cluster errs: 16 points (R351). -/
  | tileError (die cluster : Nat)
  /-- A test of a paddock finds a lane group, or a row of one, faulty (R279). -/
  | testFault (c : CoreId) (group : Nat) (row : Option Nat)
  /-- A host thread stores bytes to host memory (R320). -/
  | hostStore (pa : Nat) (bs : List Byte)
  /-- A host thread loads bytes of host memory (R320). -/
  | hostLoad (pa n : Nat)
  /-- The host reads a register of the register window (R8, R395). -/
  | regRead (r : RegName)
  /-- The host reads the attestation mailbox: whether an image failed its check, and the boot log (R408). -/
  | mailbox
  /-- The host reads bytes of the CXL.io configuration space, whose contents the spec does not give (R395). -/
  | configRead (off n : Nat)
  /-- The fabric behind a port comes to be able, or unable, to carry flits to a node (R399). -/
  | fabric (port : Nat) (node : BitVec 12) (reach : Bool)
  /-- A link engine sends the next data flit of a GET that a core of another module has issued (R399). -/
  | remoteGet (node : BitVec 12) (c : CoreId) (ticket : Nat)
  /-- The path to the module whose command this one serves is looked at (R399). -/
  | remotePath (node : BitVec 12) (c : CoreId) (ticket : Nat)
  deriving DecidableEq, Repr

/-- MODEL'S OWN: a turn of the agenda (notes/assumptions/1.md). -/
inductive Turn
  /-- The thread runs its next instruction. -/
  | thread (c : CoreId) (w : Who)
  /-- An operation, event or input of the opcode table takes place. -/
  | event (i : Instr)
  /-- An input that is no row of the opcode table. -/
  | input (x : Input)
  /-- Nanoseconds pass. -/
  | tick (ns : Nat)
  deriving DecidableEq, Repr

/-! ## The package -/

/-- The state of a package. `core` is the core in focus, at `loc`; `others` holds the remaining cores that ever held a
hart. `agenda`, `who`, `free` and `auto` are the MODEL'S OWN:
which agent acts next, the counter of free values drawn, and the rotation among agents when the agenda is empty.
`hostLines` are the lines of host memory that the adapter holds, exclusive or shared (R395, R396); `remotes` the commands of
other modules under way here (R399); `hostRead` is what the host's last access read (R8, R320, R396); `starts` counts engine commands as they start (R315);
`timers` holds the GTS at which each periodic event
last took place. -/
structure State where
  gts : Nat := 0
  agenda : List Turn := []
  loc : CoreId := ⟨0, 0, 0⟩
  who : Who := .e
  free : Nat := 0
  auto : Nat := 0
  core : Core := {}
  others : List (CoreId × Core) := []
  mem : List Host.Cell := []
  poison : List Nat := []
  dies : Vector Die 8 := Vector.replicate 8 {}
  regions : List Region := []
  making : List Making := []
  sync : List (Nat × Word) := []
  syncUpd : Nat := 0
  mirrors : Vector (List (Nat × Word)) 8 := Vector.replicate 8 []
  syncMsgs : Vector (List SyncMsg) 8 := Vector.replicate 8 []
  queues : Vector Queue 64 := Vector.replicate 64 {}
  served : Vector Nat 8 := Vector.replicate 8 63
  orders : Nat := 0
  ctxs : List Context := []
  cmds : List Cmd := []
  launches : List (Nat × Launch) := []
  teams : List (Nat × Team) := []
  nextId : Nat := 0
  ring : HostRing := {}
  power : Power := {}
  mig : Migration := {}
  links : Vector Link 5 := Vector.replicate 5 {}
  mgmt : Mgmt := {}
  hostLines : List (Nat × Bool) := []
  remotes : List Remote := []
  hostRead : List Byte := []
  starts : Nat := 0
  timers : Vector Nat 8 := Vector.replicate 8 0
  deriving DecidableEq, Repr

/-- The machine right after cold boot (R14, R27, R278, R287, R356, R374, R385, R407): no context is registered, no hart
is placed, memory lists nothing. -/
def State.reset : State := {}

end Sys2Proof.Machine
end

