-- ==== Sys2Proof/Machine/Access.lean ====
section
/-! DEFINITION. Sys2Proof/Machine/Access.lean: reading and writing state by place. Association lists, cores and harts
by identity, bytes of memory, poison, page walks and cached translations, and the resolution of a virtual address to
the bytes it names (R65, R215, R294-R298, R350, R375). -/

namespace Sys2Proof.Machine

/-! ## Association lists -/

/-- The value of a key, or a default. -/
def assocGet {α β : Type} [DecidableEq α] (d : β) : List (α × β) → α → β
  | [], _ => d
  | (k, v) :: r, a => if k = a then v else assocGet d r a

/-- The list with a key's value replaced, or the pair added at its end. -/
def assocSet {α β : Type} [DecidableEq α] : List (α × β) → α → β → List (α × β)
  | [], a, v => [(a, v)]
  | (k, w) :: r, a, v => if k = a then (a, v) :: r else (k, w) :: assocSet r a v

/-- The list without a key. -/
def assocDel {α β : Type} [DecidableEq α] (l : List (α × β)) (a : α) : List (α × β) :=
  l.filter (fun p => decide (p.1 ≠ a))

/-- The value of a key, if there is one. -/
def assocFind {α β : Type} [DecidableEq α] : List (α × β) → α → Option β
  | [], _ => none
  | (k, v) :: r, a => if k = a then some v else assocFind r a

/-- A list with its element at an index replaced. -/
def listSet {α : Type} (l : List α) (n : Nat) (f : α → α) : List α :=
  l.mapIdx (fun i x => if i = n then f x else x)

/-! ## Bits and bytes -/

/-- The bits of a natural number as a word. -/
abbrev word (n : Nat) : Word := BitVec.ofNat 64 n

/-- A word's `n` low bits, read as signed and extended to 64 bits (R6 Sext). -/
def sext (n : Nat) (w : Word) : Word := BitVec.ofInt 64 (sextNat n w.toNat)

/-- The bits `lo` to `lo + n - 1` of a word as a number. -/
def field (w : Word) (lo n : Nat) : Nat := w.toNat / 2 ^ lo % 2 ^ n

/-- The truth value of one bit. -/
def bit (w : Word) (i : Nat) : Bool := w.getLsbD i

/-- The number a list of bytes is, the first the least significant (R6). -/
def ofBytes : List Byte → Nat
  | [] => 0
  | b :: r => b.toNat + 256 * ofBytes r

/-- The `n` bytes of a number, the least significant first (R6). -/
def bytesOf : Nat → Nat → List Byte
  | 0, _ => []
  | n + 1, x => BitVec.ofNat 8 x :: bytesOf n (x / 256)

/-- A 57-bit address field extended by its bit 56 (R235). -/
def sext57 (w : Word) : Word := sext 57 w

/-- The address is in canonical form (R65). -/
def canonical (w : Word) : Bool := sext57 w == w

/-! ## Physical memory -/

/-- A byte of memory; an address that nothing lists reads 0 (notes/assumptions/3.md). -/
def memGet : List Host.Cell → Nat → Byte
  | [], _ => 0
  | (k, b) :: r, a => if k = a then b else memGet r a

/-- The cells that bytes from an address up are, those that read 0 left out. -/
def cellsOf : Nat → List Byte → List Host.Cell
  | _, [] => []
  | a, b :: r => if b = 0 then cellsOf (a + 1) r else (a, b) :: cellsOf (a + 1) r

/-- Memory with bytes written from an address up. -/
def memWrite (m : List Host.Cell) (a : Nat) (bs : List Byte) : List Host.Cell :=
  m.filter (fun c => decide (c.1 < a)) ++ cellsOf a bs ++ m.filter (fun c => decide (a + bs.length ≤ c.1))

/-- The `n` bytes from an address up. -/
def memRead (m : List Host.Cell) (a n : Nat) : List Byte :=
  let f := m.filter (fun c => decide (a ≤ c.1) && decide (c.1 < a + n))
  (List.range n).map (fun i => memGet f (a + i))

/-- The addresses of a memory rise strictly and no listed byte is 0: the canonical form. -/
def memWf (m : List Host.Cell) : Bool :=
  m.all (fun c => c.2 != 0) && (m.map (·.1)).Pairwise (· < ·)

/-- The memory of a state is canonical. -/
abbrev State.memOk (s : State) : Prop := memWf s.mem = true

/-- The 64-bit little-endian word at a physical address. -/
def physWord (s : State) (pa : Nat) : Word := word (ofBytes (memRead s.mem pa 8))

/-- The 16-byte parts that `n` bytes from an address touch (R309, R350). -/
def partsOf (a n : Nat) : List Nat :=
  if n = 0 then [] else (List.range ((a + n - 1) / 16 - a / 16 + 1)).map (· + a / 16)

/-- Some part that the bytes touch is poisoned (R350). -/
def poisoned (s : State) (a n : Nat) : Bool := (partsOf a n).any (fun p => s.poison.contains p)

/-- Memory and poison after a store: a part written whole loses its poison (R350). -/
def State.physStore (s : State) (a : Nat) (bs : List Byte) : State :=
  { s with
    mem := memWrite s.mem a bs
    poison := s.poison.filter (fun p => !(decide (a ≤ 16 * p) && decide (16 * p + 16 ≤ a + bs.length))) }

/-- Poison after an instruction or command that stores in parts: a part is clean that its spans (address, length) together
cover whole (R224, R309, R350). -/
def State.clearWhole (s : State) (spans : List (Nat × Nat)) : State :=
  { s with poison := s.poison.filter (fun p => !(List.range 16).all (fun b =>
      spans.any (fun x => decide (x.1 ≤ 16 * p + b) && decide (16 * p + b < x.1 + x.2)))) }

/-- The physical address lies in memory: HBM4, LPDDR-6, host memory, or a bank of the chip scratchpad whose role is
SCRATCH (R292, R375, R396). -/
def physOk (s : State) (pa : Nat) : Bool :=
  if pa < 0x05_00_0000_0000 then true
  else if 0x9_0000_0000_0000 ≤ pa && pa ≤ 0x9_FFFF_FFFF_FFFF then true
  else if 0xF_E000_0000_0000 ≤ pa && pa < 0xF_E008_0000_0000 then
    let o := pa - 0xF_E000_0000_0000
    let b := o % 0x1_0000_0000 / 0x80_0000
    match s.dies.toList[o / 0x1_0000_0000]? with
    | some d => decide (o % 0x80_0000 < 0x60_0000) &&
        (match d.roles.toList[b]? with | some r => r == 1 | none => false)
    | none => false
  else false

/-- The physical address is in host memory (R396). -/
def isHost (pa : Nat) : Bool := decide (0x9_0000_0000_0000 ≤ pa) && decide (pa ≤ 0x9_FFFF_FFFF_FFFF)

/-- The physical address is in the chip scratchpad's range (R292). -/
def isScratch (pa : Nat) : Bool := decide (0xF_E000_0000_0000 ≤ pa)

/-! ## Cores, harts, threads -/

/-- A core by identity. -/
def State.getCore (s : State) (c : CoreId) : Core := if c = s.loc then s.core else assocGet {} s.others c

/-- The state with a core replaced. -/
def State.setCore (s : State) (c : CoreId) (k : Core) : State :=
  if c = s.loc then { s with core := k } else { s with others := assocSet s.others c k }

/-- The state with the focus moved to a thread of a core. -/
def State.focus (s : State) (c : CoreId) (w : Who) : State :=
  if c = s.loc then { s with who := w }
  else
    { s with
      loc := c, who := w, core := assocGet {} s.others c
      others := assocDel (assocSet s.others s.loc s.core) c }

/-- Every core that ever held a hart, the one in focus first. -/
def State.cores (s : State) : List (CoreId × Core) := (s.loc, s.core) :: s.others

/-- A thread of a hart. -/
def Hart.thr (h : Hart) : Who → Thread
  | .a => h.a
  | .e => h.e
  | .mt k => h.mts[k].thr

/-- A hart with a thread replaced. -/
def Hart.setThr (h : Hart) (t : Thread) : Who → Hart
  | .a => { h with a := t }
  | .e => { h with e := t }
  | .mt k => { h with mts := h.mts.set k { h.mts[k] with thr := t } }

/-- The lane side of E or of a micro-thread (for A, that of E). -/
def Hart.est (h : Hart) : Who → EState
  | .a => h.ex
  | .e => h.ex
  | .mt k => h.mts[k].ex

/-- A hart with a lane side replaced. -/
def Hart.setEst (h : Hart) (x : EState) : Who → Hart
  | .a => { h with ex := x }
  | .e => { h with ex := x }
  | .mt k => { h with mts := h.mts.set k { h.mts[k] with ex := x } }

/-- The hart in focus. -/
abbrev State.hart (s : State) : Hart := s.core.hart

/-- The thread in focus. -/
abbrev State.thr (s : State) : Thread := s.core.hart.thr s.who

/-- The lane side in focus. -/
abbrev State.est (s : State) : EState := s.core.hart.est s.who

/-- The state with the hart in focus replaced. -/
def State.setHart (s : State) (h : Hart) : State := { s with core := { s.core with hart := h } }

/-- The state with the thread in focus replaced. -/
def State.setThr (s : State) (t : Thread) : State := s.setHart (s.hart.setThr t s.who)

/-- The state with the lane side in focus replaced. -/
def State.setEst (s : State) (x : EState) : State := s.setHart (s.hart.setEst x s.who)

/-- A scalar register of a thread. -/
def Thread.reg (t : Thread) (r : BitVec 5) : Word := t.g[r.toNat]'r.isLt

/-- A thread with a scalar register written and full (R17). -/
def Thread.setReg (t : Thread) (r : BitVec 5) (v : Word) : Thread :=
  { t with g := t.g.set r.toNat v r.isLt, full := t.full ||| (1#32 <<< r.toNat) }

/-- Whether a scalar register is full (R16). -/
def Thread.isFull (t : Thread) (r : BitVec 5) : Bool := t.full.getLsbD r.toNat

/-- A thread with a scalar register marked empty, its bits kept (R17, R62). -/
def Thread.setEmpty (t : Thread) (r : BitVec 5) : Thread :=
  { t with full := t.full &&& ~~~(1#32 <<< r.toNat) }

/-- The team of a hart, if the Drover placed it. -/
def State.teamOf (s : State) (h : Hart) : Option Team := assocFind s.teams h.team

/-- The core that holds logical hart `n` of the hart's team; the core itself for its own number (R215, R257). -/
def State.partCore (s : State) (c : CoreId) (h : Hart) (n : Nat) : CoreId :=
  if n = h.hartid then c
  else
    match s.teamOf h with
    | some t => match t.cores[n]? with | some k => ⟨t.die, t.cluster, k⟩ | none => c
    | none => c

/-! ## Homes and L2 (R286, R289, R290, R376) -/

/-- The home die of a physical line (R289). -/
def homeDie (pa : Nat) : Nat := pa / 2 ^ 12 % 8

/-- The home bank of a physical line within its die (R289). -/
def homeBank (pa : Nat) : Nat := (pa / 2 ^ 15 % 32) ^^^ (pa / 2 ^ 20 % 32)

/-- A die of the package by number; the reset die outside 0-7, which no rule names. -/
def State.die (s : State) (n : Nat) : Die := s.dies.toList.getD n {}

/-- The state with a die changed. -/
def State.setDie (s : State) (n : Nat) (f : Die → Die) : State :=
  if h : n < 8 then { s with dies := s.dies.set n (f s.dies[n]) } else s

/-- A cluster of a die. -/
def State.cluster (s : State) (d n : Nat) : Cluster := (s.die d).clusters.toList.getD n {}

/-- The state with a cluster changed. -/
def State.setCluster (s : State) (d n : Nat) (f : Cluster → Cluster) : State :=
  s.setDie d (fun x => if h : n < 66 then { x with clusters := x.clusters.set n (f x.clusters[n]) } else x)

/-- The lines that a logical bank's data array holds: 6 MiB of 64 bytes (R2, R285, R286). -/
def bankLines : Nat := 98304

/-- The logical banks of a die with a role (R286). -/
def Die.banksOf (d : Die) (role : BitVec 3) : List Nat := (List.range 32).filter (fun b => d.roles.toList.getD b 0 == role)

/-- The bank of a line's home die that holds its data: the home bank when its role is CACHE, else a CACHE bank that a fixed
hash picks, none when the die has no CACHE bank (R289, R290). -/
def Die.dataBank (d : Die) (line : Nat) : Option Nat :=
  let b := homeBank (64 * line)
  let cs := d.banksOf 0
  if cs.contains b then some b
  else if cs.isEmpty then none
  else cs[Config.bankHash (64 * line) % cs.length]?

/-- The line is pinned: a hot row or a tile operand (R266, R293). -/
def Die.pinned (d : Die) (line : Nat) : Bool :=
  d.pins.any (fun p => decide (p.1 = line)) || d.opPins.any (fun p => decide (p.line = line))

/-- A die's L2 with a line taken into a bank; a full bank gives up one of its lines that are not pinned, `n` says which:
the spec gives no replacement rule (DESIGN CHOICE, notes/assumptions/12.md). -/
def Die.l2Take (d : Die) (line bank n : Nat) : Die :=
  let here := d.l2.filter (fun x => decide (x.2 = bank))
  if here.length < bankLines then { d with l2 := (line, bank) :: d.l2 }
  else
    let loose := here.filter (fun x => !d.pinned x.1)
    match loose[n % loose.length]? with
    | some v => { d with l2 := (line, bank) :: d.l2.erase v }
    | none => d

/-- A hot row has been used: it is the most recent of the pins (R293). -/
def Die.usePin (d : Die) (line : Nat) : Die :=
  match d.pins.find? (fun p => decide (p.1 = line)) with
  | some p => { d with pins := d.pins.erase p ++ [p] }
  | none => d

/-- An access reaches the home die's L2: a line that it does not hold is a miss, which counts toward its 2 MiB frame when
it is in a tier (R376), and is then held (R290), but not for a class-0 access, which holds it only in flight (`keep`,
R293). -/
def State.touchL2 (s : State) (line : Nat) (keep : Bool) : State :=
  let pa := 64 * line
  let d := s.die (homeDie pa)
  if isHost pa || isScratch pa || d.l2.any (fun x => decide (x.1 = line)) then s
  else if d.pinned line then s.setDie (homeDie pa) (fun d => d.usePin line)
  else
    let f := pa / 0x20_0000
    let n := assocGet 0 s.mig.counts f
    let s1 := { s with mig := { s.mig with counts := assocSet s.mig.counts f (min 65535 (n + 1)) } }
    match (if keep then d.dataBank line else none) with
    | some b =>
      { s1.setDie (homeDie pa) (fun d => d.l2Take line b (Config.choose s.free)) with free := s.free + 1 }
    | none => s1

/-! ## Places (R215) -/

/-- Where the bytes of an access lie: in a hart's scratchpad, by the core that holds it, or in physical memory. -/
inductive Place
  | spad (c : CoreId) (off : Nat)
  | phys (pa : Nat)
  deriving DecidableEq, Repr

/-- The result of resolving an address (R65), each with the state that a walk leaves. -/
inductive Resolved
  | ok (p : Place) (s : State)
  | fail (c : Cause) (s : State)
  | stall (s : State)

/-- The first address of the two windows' 256 MiB (R215). -/
def windowBase : Nat := 0xFFFF_FFFF_F000_0000

/-- The scratchpad place of a window address of a hart of a core, or none where SPAD_RANGE is raised (R215). -/
def windowPlace (s : State) (c : CoreId) (h : Hart) (va : Nat) : Option Place :=
  let o := va - windowBase
  if o < 0x2_0000 then (if o < 0x1_8000 then some (.spad c o) else none)
  else if 0x10_0000 ≤ o && o < 0x20_0000 then
    let q := o - 0x10_0000
    if q / 0x2_0000 < h.teamsize && q % 0x2_0000 < 0x1_8000 then
      some (.spad (s.partCore c h (q / 0x2_0000)) (q % 0x2_0000))
    else none
  else none

/-! ## Bytes at a place -/

/-- The `n` bytes at a place. -/
def State.loadAt (s : State) (p : Place) (n : Nat) : List Byte :=
  match p with
  | .spad c o => memRead (s.getCore c).hart.spad o n
  | .phys pa => memRead s.mem pa n

/-- A core without some L1 lines (R291). -/
def Core.dropLines (k : Core) (lines : List Nat) : Core := { k with l1 := k.l1.filter (fun l => !lines.contains l.1) }

/-- The 64-byte lines that bytes touch (R289). -/
def linesOf (a n : Nat) : List Nat :=
  if n = 0 then [] else (List.range ((a + n - 1) / 64 - a / 64 + 1)).map (· + a / 64)

/-- Every core but `c` (all of them when none is named) loses its L1 copy of the lines (R291). -/
def State.recall (s : State) (c : Option CoreId) (lines : List Nat) : State :=
  { s with
    core := if c = some s.loc then s.core else s.core.dropLines lines
    others := s.others.map (fun p => if c = some p.1 then p else (p.1, p.2.dropLines lines)) }

/-- The host adapter holds a line of host memory, exclusive where it is to be written (R395, R396). -/
def State.holdHost (s : State) (line : Nat) (excl : Bool) : State :=
  if s.hostLines.any (fun x => decide (x.1 = line) && (x.2 || !excl)) then s
  else { s with hostLines := (line, excl) :: s.hostLines.filter (fun x => decide (x.1 ≠ line)) }

/-- The host adapter holds the lines of host memory among these exclusive (R395, R396). -/
def State.ownHost (s : State) (lines : List Nat) : State :=
  (lines.filter (fun l => isHost (64 * l))).foldl (fun s l => s.holdHost l true) s

/-- The state with bytes stored at a place; the copies of other L1 caches are invalidated (R291), and the adapter holds a line of
host memory exclusive (R396). -/
def State.storeAt (s : State) (c : Option CoreId) (p : Place) (bs : List Byte) : State :=
  match p with
  | .spad o off =>
    let k := s.getCore o
    s.setCore o { k with hart := { k.hart with spad := memWrite k.hart.spad off bs } }
  | .phys pa => ((s.physStore pa bs).recall c (linesOf pa bs.length)).ownHost (linesOf pa bs.length)

/-- The bytes at a place are poisoned (R350). -/
def State.poisonedAt (s : State) (p : Place) (n : Nat) : Bool :=
  match p with
  | .spad _ _ => false
  | .phys pa => poisoned s pa n

/-- A 16-byte part is marked poisoned (R349). -/
def State.poisonPart (s : State) (part : Nat) : State :=
  if s.poison.contains part then s else { s with poison := s.poison ++ [part] }

/-- Some part that the bytes at a place touch fails its parity on a core's row-move path (R349). -/
def State.moveFails (s : State) (c : CoreId) (p : Place) (n : Nat) : Bool :=
  match p with
  | .spad _ _ => false
  | .phys pa => (partsOf pa n).any (fun q => (s.getCore c).moveErrs.contains q)

/-- The row-move faults of a core without those that an access has met. -/
def State.moveMet (s : State) (c : CoreId) (p : Place) (n : Nat) : State :=
  match p with
  | .spad _ _ => s
  | .phys pa =>
    let k := s.getCore c
    s.setCore c { k with moveErrs := k.moveErrs.filter (fun q => !(partsOf pa n).contains q) }

/-- Data on their way into the lanes are poisoned, or lost on the row-move path (R349, R350). -/
def State.lostAt (s : State) (c : CoreId) (p : Place) (n : Nat) : Bool := s.poisonedAt p n || s.moveFails c p n

/-- Bytes stored from the lanes: a part that the row-move path has lost is poisoned, since poison travels with the data (R349,
R350; DEDUCED, notes/assumptions/60.md). -/
def State.movedTo (s : State) (c : CoreId) (p : Place) (n : Nat) : State :=
  if s.moveFails c p n then
    match p with
    | .spad _ _ => s
    | .phys pa => (partsOf pa n).foldl (fun s q => s.poisonPart q) (s.moveMet c p n)
  else s

/-- A core's L1 after an access to a line, which it then holds in a state: the line is its most recent; at most 8 lines of
one set stay (R217, R291). -/
def Core.touchL1 (k : Core) (line : Nat) (st : LineState) : Core :=
  let same := (k.l1.filter (fun l => decide (l.1 ≠ line) && decide (l.1 % 128 = line % 128))).take 7
  let rest := k.l1.filter (fun l => decide (l.1 % 128 ≠ line % 128))
  { k with l1 := (line, st) :: (same ++ rest) }

/-- The state of a line in a core's L1; none when it is invalid (R291). -/
def Core.lineState (k : Core) (line : Nat) : Option LineState := assocFind k.l1 line

/-- The access by a core's scalar side to a physical address is satisfied from its L1 (R17, R217). -/
def Core.hits (k : Core) (pa : Nat) : Bool := (k.lineState (pa / 64)).isSome

/-- The cores whose L1 holds a line: the sharers of its directory entry (R291). -/
def State.sharers (s : State) (line : Nat) : List CoreId :=
  (s.cores.filter (fun p => (p.2.lineState line).isSome)).map (·.1)

/-- A directory entry (R291): the state of the line's copies, and who holds them: up to four cores exactly, otherwise the
clusters (die, number) that may. -/
structure DirEntry where
  state : LineState
  exact : List CoreId
  clusters : List (Nat × Nat)
  deriving DecidableEq, Repr

/-- The directory's entry of a line; none when no L1 holds it (R291). -/
def State.dirEntry (s : State) (line : Nat) : Option DirEntry :=
  let cs := s.sharers line
  match cs with
  | [] => none
  | c :: _ =>
    some { state := ((s.getCore c).lineState line).getD .shared
           exact := if cs.length ≤ 4 then cs else []
           clusters := if cs.length ≤ 4 then [] else (cs.map (fun c => (c.die, c.cluster))).eraseDups }

/-- A core whose copy of a line, exclusive or modified until now, is shared: it has been recalled for a read (R291). -/
def Core.shareLine (k : Core) (line : Nat) : Core :=
  { k with l1 := k.l1.map (fun l => if l.1 = line then (line, .shared) else l) }

/-- Another agent reads a line: every L1 but `c`'s that holds it keeps a shared copy (R291). -/
def State.shareLine (s : State) (c : Option CoreId) (line : Nat) : State :=
  { s with
    core := if c = some s.loc then s.core else s.core.shareLine line
    others := s.others.map (fun p => if c = some p.1 then p else (p.1, p.2.shareLine line)) }

/-- The state in which a core's L1 holds a line after an access: modified by a write; after a read as before, or exclusive
when no other L1 holds it, else shared (R291; the state after a read that finds no copy is PRESUMED,
notes/assumptions/12.md). -/
def State.lineAfter (s : State) (c : CoreId) (line : Nat) (write : Bool) : LineState :=
  if write then .modified
  else match (s.getCore c).lineState line with
    | some st => st
    | none => if (s.sharers line).isEmpty then .exclusive else .shared

/-- The caches after a scalar access of a core to a physical address: windows, chip scratchpad and host lines apart, the
line is in its L1, and no other L1 holds it if it is written; host lines are held by the adapter (R217, R291, R292, R396). -/
def State.touch (s : State) (c : CoreId) (pa : Nat) (write : Bool) : State :=
  let line := pa / 64
  if isScratch pa then s
  else
    let st := s.lineAfter c line write
    let s1 :=
      if isHost pa then
        s.holdHost line write
      else if (s.getCore c).hits pa then s
      else s.touchL2 line true
    let s2 := if write then s1.recall (some c) [line] else if (s.getCore c).hits pa then s1 else s1.shareLine (some c) line
    s2.setCore c ((s2.getCore c).touchL1 line st)

/-- The caches after a read of the vector side or an engine, which reaches L2 directly; `keep` is false for a class-0
access (R217, R291, R293). -/
def State.touchDirect (s : State) (pa : Nat) (keep : Bool) : State :=
  let line := pa / 64
  if isScratch pa then s
  else
    let s1 :=
      if isHost pa then
        s.holdHost line false
      else s.touchL2 line keep
    s1.shareLine none line

/-! ## Translation -/

/-- What an access does (R296). -/
inductive Access
  | read | write | rmw | fetch
  deriving DecidableEq, Repr

/-- The root table of a context (R294, R353). -/
def State.rootOf (s : State) (ctx : Nat) : Option Nat :=
  (s.ctxs.find? (fun x => decide (x.num = ctx))).map
    (fun x => match x.desc with | w :: _ => field w 21 31 * 2 ^ 21 | [] => 0)

/-- The end of a page walk (R294-R296): a leaf (where it lies, its word, its page size), or XLATE. -/
inductive Walk
  | leaf (addr : Nat) (entry : Word) (size : Nat)
  | none
  deriving DecidableEq, Repr

/-- The levels of a walk below the root: index position, index width, page size of a leaf (0: none allowed), alignment
of the next table (0: no pointer allowed) (R294). -/
def walkLevels : List (Nat × Nat × Nat × Nat) :=
  [(39, 18, 0, 0x1000), (30, 9, 0x4000_0000, 0x1000), (21, 9, 0x20_0000, 0x100), (16, 5, 0x1_0000, 0)]

/-- A walk from a table over the levels that remain (R294, R295). -/
def walkFrom (m : List Host.Cell) (va : Nat) : List (Nat × Nat × Nat × Nat) → Nat → Walk
  | [], _ => .none
  | (pos, width, page, next) :: rest, table =>
    let addr := table + 8 * (va / 2 ^ pos % 2 ^ width)
    let e := word (ofBytes (memRead m addr 8))
    let pa := field e 8 44 * 256
    if !bit e 0 || bit e 57 || field e 52 4 != 0 || (bit e 2 && !bit e 1) then .none
    else if !bit e 1 && !bit e 2 && !bit e 3 then
      if next = 0 || pa % next ≠ 0 then .none else walkFrom m va rest pa
    else if page = 0 || pa % page ≠ 0 then .none
    else .leaf addr e page

/-- The lines that a walk reads from a table on: those of its entries (R294, R297). -/
def walkLines (m : List Host.Cell) (va : Nat) : List (Nat × Nat × Nat × Nat) → Nat → List Nat
  | [], _ => []
  | (pos, width, _, next) :: rest, table =>
    let addr := table + 8 * (va / 2 ^ pos % 2 ^ width)
    let e := word (ofBytes (memRead m addr 8))
    let pa := field e 8 44 * 256
    addr / 64 ::
      (if bit e 0 && !bit e 1 && !bit e 2 && !bit e 3 && next != 0 && pa % next == 0 then walkLines m va rest pa else [])

/-- A walk has read its tables through L2, coherently: an L1 that held a line of one modified or exclusive now shares it (R291,
R297). -/
def State.walked (s : State) (v root : Nat) : State :=
  (walkLines s.mem v walkLevels root).foldl (fun s l => s.touchDirect (64 * l) true) s

/-- The cached translation of an address in a context, if there is one (R297). -/
def tlbFind (tlb : List TlbEntry) (ctx va : Nat) : Option TlbEntry :=
  tlb.find? (fun t => decide (t.ctx = ctx) && decide (t.base ≤ va) && decide (va < t.base + t.size))

/-- The rights that an access of a page needs (R296). -/
def allowed (user : Bool) (acc : Access) (t : TlbEntry) : Bool :=
  (!user || t.user) &&
    (match acc with
      | .read => t.r
      | .write => t.w
      | .rmw => t.r && t.w
      | .fetch => t.x)

/-- The result of a translation: the physical address, the caches with what the walk added and the state with the
entry's A and D bits set; a cause; or a wait for a migration (R298); the last two with the state that the walk leaves. -/
inductive Xlate
  | ok (pa : Nat) (tlb : List TlbEntry) (s : State)
  | fail (c : Cause) (s : State)
  | stall (s : State)

/-- A walker that sets A in a leaf that maps a tier frame records the leaf in the reverse map (R376). -/
def State.recordLeaf (s : State) (leaf frame size : Nat) : State :=
  if !decide (frame < 0x500_0000_0000) || s.mig.rmap.contains (leaf, frame, size) then s
  else { s with mig := { s.mig with rmap := s.mig.rmap ++ [(leaf, frame, size)] } }

/-- Whether an access writes. -/
def Access.writes : Access → Bool
  | .write => true
  | .rmw => true
  | _ => false

/-- The cached translation that serves an access; a first write of a page whose D is 0 walks again (R295, R297). -/
def tlbHit (tlb : List TlbEntry) (ctx : Nat) (user : Bool) (acc : Access) (v : Nat) : Option TlbEntry :=
  match tlbFind tlb ctx v with
  | some t => if allowed user acc t && (acc.writes && !t.d) then none else some t
  | none => none

/-- A walker's atomic update of an entry: performed at its home, so that no L1 keeps a copy of the line (R291, R296). -/
def State.setEntry (s : State) (addr : Nat) (e : Word) : State :=
  { s with mem := memWrite s.mem addr (bytesOf 8 e.toNat) }.recall none [addr / 64]

/-- Translates an address with a set of cached translations of at most `cap` entries (R294-R298). -/
def translate (s : State) (tlb : List TlbEntry) (cap ctx : Nat) (user : Bool) (acc : Access) (va : Word) : Xlate :=
  let v := va.toNat % 2 ^ 57
  match tlbHit tlb ctx user acc v with
  | some t =>
    if !allowed user acc t then .fail .perm s
    else
      let pa := t.pa + (v - t.base)
      if physOk s pa then .ok pa tlb s else .fail .perm s
  | none =>
    match s.rootOf ctx with
    | none => .fail .xlate s
    | some root =>
      let s0 := s.walked v root
      match walkFrom s.mem v walkLevels root with
      | .none => .fail .xlate s0
      | .leaf addr e size =>
        if bit e 56 then .stall s0
        else
          let frame := field e 8 44 * 256
          let t : TlbEntry :=
            { ctx := ctx, base := v / size * size, size := size, pa := frame, leaf := addr,
              glob := bit e 5, user := bit e 4, x := bit e 3, w := bit e 2, r := bit e 1,
              d := bit e 7 || acc.writes }
          if !allowed user acc t then .fail .perm s0
          else
            let pa := frame + v % size
            if !physOk s pa then .fail .perm s0
            else
              let e' := e ||| (1#64 <<< 6) ||| (if acc.writes then 1#64 <<< 7 else 0)
              let s1 := if e' = e then s0 else s0.setEntry addr e'
              let s2 := if bit e 6 then s1 else s1.recordLeaf addr frame size
              let old := tlb.filter (fun x => !(decide (x.ctx = ctx) && decide (x.base = t.base)))
              .ok pa ((t :: old).take cap) s2

end Sys2Proof.Machine
end

