-- ==== Sys2Proof/Machine/Own.lean ====
section
/-! DEFINITION. Sys2Proof/Machine/Own.lean: engine descriptors (R241, R242, R397), the lines that a started command owns
(R244, R315, R316), and the resolution of a data access behind them. -/

namespace Sys2Proof.Machine

/-- Word `n` of a descriptor or record. -/
def dw (d : List Word) (n : Nat) : Word := d.getD n 0

/-- The bytes of an element of a width (R223 EB). -/
def ebOf (width : Nat) : Nat := if width ≤ 8 then 1 else if width ≤ 16 then 2 else 4

/-- A 57-bit address field of a descriptor: physical fields zero-extended, virtual ones extended by bit 56 (R235). -/
def addrField (phys : Bool) (w : Word) : Word :=
  let a := w &&& 0x01FF_FFFF_FFFF_FFFF#64
  if phys then a else sext57 a

/-- A physical address field with a bit above 51 set is refused (R235). -/
def physBad (phys : Bool) (w : Word) : Bool := phys && field w 52 5 != 0

/-! ## Bobbin descriptors (R241, R242) -/

def bOp (d : List Word) : Nat := field (dw d 0) 0 4
def bWidth (d : List Word) : Nat := field (dw d 0) 9 5 + 1
def bRow0 (d : List Word) : Nat := field (dw d 0) 16 8
def bPhys (d : List Word) : Bool := bit (dw d 0) 58
def bSaddr (d : List Word) : Word := addrField (bPhys d) (dw d 1)
def bDaddr (d : List Word) : Word := addrField (bPhys d) (dw d 2)
def bCount (d : List Word) : Nat := field (dw d 3) 0 32
def bScales (d : List Word) : Word := addrField (bPhys d) (dw d 4)
def bLane0 (d : List Word) : Nat := field (dw d 5) 0 14

/-- The bytes of a bit-plane layout of `n` elements (R242). -/
def planeBytes (n width : Nat) : Nat := (n + 63) / 64 * (8 * width)

/-- The bytes of one block of 32 elements of a width in an MX group (R130, R229): 32, 24 or 16. -/
def mxBlockBytes (width : Nat) : Nat := 4 * width

/-- The bytes of MX groups that hold `n` elements, up to the last block used (R229). -/
def mxBytes (n width : Nat) : Nat :=
  if n = 0 then 0
  else
    let g := (n - 1) / 512
    g * (16 + 16 * mxBlockBytes width) + 16 + ((n - 1) / 32 % 16 + 1) * mxBlockBytes width

/-- The source bytes of a command: address and length. -/
def bSource (d : List Word) : Word × Nat :=
  match bOp d with
  | 0 => (bSaddr d, bCount d)
  | 1 => (bSaddr d, bCount d * ebOf (bWidth d))
  | 3 => (bSaddr d, bCount d * ebOf (bWidth d))
  | 4 => (bSaddr d, planeBytes (bCount d) (bWidth d))
  | 5 => (bSaddr d, mxBytes (bCount d) (bWidth d))
  | _ => (0, 0)

/-- The destination bytes in memory of a command: address and length. -/
def bDest (d : List Word) : Word × Nat :=
  match bOp d with
  | 0 => (bDaddr d, bCount d)
  | 2 => (bDaddr d, bCount d * ebOf (bWidth d))
  | 3 => (bDaddr d, planeBytes (bCount d) (bWidth d))
  | 4 => (bDaddr d, bCount d * ebOf (bWidth d))
  | 5 => (bScales d, (bCount d + 31) / 32)
  | _ => (0, 0)

/-- The command names slice rows (R242). -/
def bSlice (d : List Word) : Bool := bOp d == 1 || bOp d == 2 || bOp d == 5

/-! ## XCOPY descriptors (R397) -/

def xOp (d : List Word) : Nat := field (dw d 0) 0 4
def xNode (d : List Word) : BitVec 12 := BitVec.ofNat 12 (field (dw d 0) 4 12)
def xPort (d : List Word) : Nat := field (dw d 0) 16 4
def xPhys (d : List Word) : Bool := bit (dw d 0) 58
def xLaddr (d : List Word) : Word := addrField (xPhys d) (dw d 1)
def xRaddr (d : List Word) : Word := addrField false (dw d 2)
def xCount (d : List Word) : Nat := field (dw d 3) 0 40
def xRctx (d : List Word) : BitVec 16 := BitVec.ofNat 16 (field (dw d 4) 0 16)

/-- The local destination bytes of a remote copy. -/
def xDest (d : List Word) : Word × Nat := if xOp d = 1 then (xLaddr d, xCount d) else (0, 0)

/-! ## Owned lines (R244, R315, R316) -/

/-- Where the hart that issued a command is: on a core, in its team's saved contexts, or nowhere any more (R105, R244). -/
inductive HartAt
  | core (c : CoreId)
  | saved (hs : List Hart) (n : Nat)
  | gone

/-- Where the hart that issued a command of core `c` is. -/
def State.cmdHart (s : State) (c : CoreId) (k : EngCmd) : HartAt :=
  match assocFind s.teams k.team with
  | none => .core c
  | some t =>
    if t.state == .running || t.state == .parking then
      match t.cores[k.hartid]? with
      | some n => .core ⟨t.die, t.cluster, n⟩
      | none => .gone
    else if k.hartid < t.saved.length then .saved t.saved k.hartid
    else .gone

/-- Where the scratchpad of a saved hart lies in its save area (R104). -/
def Hart.savedSpad (h : Hart) : Nat := h.ctxbase + 0x1_4000

/-- The place of a window address of a saved hart: in the save areas of its team (R104, R215, R244). -/
def windowSaved (hs : List Hart) (n va : Nat) : Option Place :=
  let o := va - windowBase
  let at' (m off : Nat) : Option Place :=
    if off < 0x1_8000 then (hs[m]?).map (fun h => .phys (h.savedSpad + off)) else none
  if o < 0x2_0000 then at' n o
  else if 0x10_0000 ≤ o && o < 0x20_0000 then at' ((o - 0x10_0000) / 0x2_0000) ((o - 0x10_0000) % 0x2_0000)
  else none

/-- The place of a window address for a command of core `c`. -/
def State.cmdWindow (s : State) (c : CoreId) (k : EngCmd) (va : Nat) : Option Place :=
  match s.cmdHart c k with
  | .core d => windowPlace s d (s.getCore d).hart va
  | .saved hs n => windowSaved hs n va
  | .gone => none

/-- Where an address of a context below the windows lies, found by a walk that leaves no trace. -/
def State.ctxPlace (s : State) (ctx : Nat) (a : Word) : Option Place :=
  if !canonical a || windowBase ≤ a.toNat then none
  else
    match s.rootOf ctx with
    | none => none
    | some root =>
      match walkFrom s.mem (a.toNat % 2 ^ 57) walkLevels root with
      | .leaf _ e size => some (.phys (field e 8 44 * 256 + a.toNat % size))
      | .none => none

/-- Where a byte of a command's range lies, found by a walk that leaves no trace. -/
def State.cmdPlace (s : State) (c : CoreId) (k : EngCmd) (phys : Bool) (a : Word) : Option Place :=
  if phys then some (.phys a.toNat)
  else if canonical a && windowBase ≤ a.toNat then s.cmdWindow c k a.toNat
  else s.ctxPlace k.ctx a

/-- How many bytes the 64-byte line of a place lies above another place of the same space. -/
def Place.lineAbove : Place → Place → Option Nat
  | .spad c o, .spad d q => if c = d ∧ q ≤ o / 64 * 64 then some (o / 64 * 64 - q) else none
  | .phys pa, .phys q => if q ≤ pa / 64 * 64 then some (pa / 64 * 64 - q) else none
  | _, _ => none

/-- A command has bytes of its destination range, `got` apart, still to write in the line of a place. The range is looked at in
steps of 64 KiB, the smallest page. -/
def ownsRange (at' : Word → Option Place) (got : List (Nat × Nat)) (r : Word × Nat) (p : Place) : Bool :=
  let a := r.1.toNat
  if r.2 = 0 then false
  else
    let first := a / 0x1_0000
    (List.range ((a + r.2 - 1) / 0x1_0000 - first + 1)).any (fun i =>
      let base := (first + i) * 0x1_0000
      match (at' (word base)).bind (fun q => p.lineAbove q) with
      | some d =>
        decide (d < 0x1_0000) && (List.range 64).any (fun b =>
          let x := base + d + b
          decide (a ≤ x) && decide (x < a + r.2) &&
            !got.any (fun g => decide (g.1 ≤ x - a) && decide (x - a < g.1 + g.2)))
      | none => false)

/-- An engine command has bytes of its destination range still to write in the line of a place. -/
def State.ownsLine (s : State) (c : CoreId) (k : EngCmd) (phys : Bool) (r : Word × Nat) (p : Place) : Bool :=
  ownsRange (s.cmdPlace c k phys) k.got r p

/-- A command that has started and not ended owns the destination lines that it has not written (R315); `before` names
the start of a command that asks: later ones do not hold it back. -/
def EngCmd.owns (k : EngCmd) (before : Option Nat) : Bool :=
  k.started && !k.ended && (match before with | some n => decide (k.stamp < n) | none => true)

/-- The destination bytes of a COPY record: address and length (R362). -/
def copyDest (r : List Word) : Word × Nat := (sext57 (dw r 3 &&& 0x01FF_FFFF_FFFF_FFFF#64), field (dw r 4) 0 40)

/-- A COPY of the Drover that has started and not ended owns its destination lines, as an engine command does (R315, R362). -/
def Cmd.owns (k : Cmd) (before : Option Nat) : Bool :=
  k.started && k.ended.isNone && field (dw k.record 0) 0 8 == 2 &&
    (match before with | some n => decide (k.stamp < n) | none => true)

/-- A PUT of another module owns its destination lines here, as an engine command does (R315, R399). -/
def Remote.owns (r : Remote) (before : Option Nat) : Bool :=
  !r.get && (match before with | some n => decide (r.stamp < n) | none => true)

/-- An engine owns the line of a place, so that an access of another agent waits (R315, R362). -/
def State.owned (s : State) (before : Option Nat) (p : Place) : Bool :=
  s.cores.any (fun x =>
    x.2.bobbin.any (fun k => k.owns before && s.ownsLine x.1 k (bPhys k.desc) (bDest k.desc) p) ||
      x.2.xcopy.any (fun k => k.owns before && s.ownsLine x.1 k (xPhys k.desc) (xDest k.desc) p)) ||
    s.cmds.any (fun k => k.owns before && ownsRange (s.ctxPlace k.ctx) [] (copyDest k.record) p) ||
    s.remotes.any (fun r => r.owns before && ownsRange (s.ctxPlace r.ctx) r.got (r.addr, r.count) p)

/-- The places of the lines that `n` bytes at a place touch, `n` bytes being in one line or whole lines. -/
def Place.lines (p : Place) (n : Nat) : List Place :=
  (List.range ((n + 63) / 64)).map (fun i =>
    match p with
    | .spad c o => .spad c (o + 64 * i)
    | .phys pa => .phys (pa + 64 * i))

/-- Translates an address; a walk waits while an engine owns a line of a table that it reads (R297, R315). -/
def State.xlate (s : State) (before : Option Nat) (tlb : List TlbEntry) (cap ctx : Nat) (user : Bool) (acc : Access)
    (va : Word) : Xlate :=
  let v := va.toNat % 2 ^ 57
  let waits := (tlbHit tlb ctx user acc v).isNone &&
    (match s.rootOf ctx with
     | some root => (walkLines s.mem v walkLevels root).any (fun l => s.owned before (.phys (64 * l)))
     | none => false)
  if waits then .stall s else translate s tlb cap ctx user acc va

/-- A resolved access of `n` bytes waits while an engine owns a line of it (R315). -/
def Resolved.behind (r : Resolved) (before : Option Nat) (n : Nat) : Resolved :=
  match r with
  | .ok p s => if (p.lines n).any (s.owned before) then .stall s else .ok p s
  | r => r

/-- Resolves a data access through a core's cached translations, in a context and with the windows of a hart: canonical
form, alignment, windows, translation (R65, R215). -/
def resolveWith (s : State) (before : Option Nat) (c : CoreId) (ctx : Nat) (window : Nat → Option Place) (user : Bool) (acc : Access)
    (va : Word) (align : Nat) : Resolved :=
  if !canonical va then .fail .xlate s
  else if va.toNat % align ≠ 0 then .fail .misalign s
  else if windowBase ≤ va.toNat then
    match window va.toNat with
    | some p => .ok p s
    | none => .fail .spadRange s
  else
    match s.xlate before (s.getCore c).tlb 256 ctx user acc va with
    | .ok pa tlb s' => .ok (.phys pa) (s'.setCore c { s'.getCore c with tlb := tlb })
    | .fail e s' => .fail e s'
    | .stall s' => .stall s'

/-- Resolves a data access by a hart of a core (R65, R215), behind the lines that engines own (R315). -/
def resolve (s : State) (c : CoreId) (user : Bool) (acc : Access) (va : Word) (align : Nat) : Resolved :=
  (resolveWith s none c (s.getCore c).hart.ctx (windowPlace s c (s.getCore c).hart) user acc va align).behind none align

/-- Resolves a data access of the thread in focus (R65, R215, R315). -/
def resolveThr (s : State) (acc : Access) (va : Word) (size : Nat) : Resolved :=
  resolve s s.loc (!s.thr.super) acc va size

/-- A thread of the resident hart has issued an engine command that has not started: the command is an access of the
thread's stream that is not performed yet (R310, R316). -/
def Core.unstarted (k : Core) (w : Who) : Bool :=
  (k.bobbin ++ k.xcopy).any (fun x => !x.started && decide (x.who = w) && decide (x.team = k.hart.team))

end Sys2Proof.Machine
end

