-- ==== Sys2Proof/Machine/Ops.lean ====
section
/-! DEFINITION. Sys2Proof/Machine/Ops.lean: the shared operations of every instruction: fills, waits, event records,
taking a trap and returning from one, hardware loops, instruction fetch, and the frame in which an instruction issues
(R14-R20, R38, R71-R76, R85, R97-R101, R246, R348, R374). -/

namespace Sys2Proof.Machine

/-- A step's outcome. -/
abbrev Out := Host.Outcome State Fault Refusal

/-! ## Event records (R246-R247, R348, R374) -/

/-- A record posted now by a source. -/
def mkRec (s : State) (typ : BitVec 8) (source : BitVec 16) (p0 p1 : Word) : EvRec :=
  { typ := typ, flags := 0, source := source, seq := 0, gts := s.gts, p0 := p0, p1 := p1 }

/-- The event source number of a core (R347). -/
def coreSource (c : CoreId) : BitVec 16 := BitVec.ofNat 16 (c.die * 0x1000 + 8 * c.cluster + c.core)

/-- The record enters a hart's event queue, late if its settle point has passed; a full queue leaves it with its
source (R246, R348). -/
def Hart.post (h : Hart) (now : Nat) (r : EvRec) : Hart :=
  if h.evq.length < 256 then
    let late := decide (r.gts + 250 < now)
    let r' := if late then { r with flags := r.flags ||| 1 } else r
    { h with evq := h.evq ++ [{ record := r', arrived := now, settled := late }] }
  else { h with evHeld := h.evHeld ++ [r] }

/-- The record goes to the hart of a core (R247). -/
def State.postCore (s : State) (c : CoreId) (r : EvRec) : State :=
  let k := s.getCore c
  s.setCore c { k with hart := k.hart.post s.gts r }

/-- The record goes to the hart `hartid` of a team, wherever it is: to its core, or to the Drover, which holds it while
the team is saved; a hart that no team of the Drover holds is reached at `c` (R105, R247). -/
def State.postHart (s : State) (team hartid : Nat) (c : CoreId) (r : EvRec) : State :=
  match assocFind s.teams team with
  | none => s.postCore c r
  | some t =>
    match t.state with
    | .saved =>
      let t' := { t with saved := listSet t.saved hartid (fun h => { h with evHeld := h.evHeld ++ [r] }) }
      { s with teams := assocSet s.teams team t' }
    | .running =>
      match t.cores[hartid]? with
      | some k => s.postCore ⟨t.die, t.cluster, k⟩ r
      | none => s
    | .parking =>
      match t.cores[hartid]? with
      | some k => s.postCore ⟨t.die, t.cluster, k⟩ r
      | none => s
    | .released => s
    | .failed => s

/-- A queued record is removable (R348). -/
def EvItem.removable (now : Nat) (i : EvItem) : Bool := i.settled || decide (i.record.gts + 250 ≤ now)

/-- The queue order of records: GTS, ties to the lower source number (R348). -/
def recBefore (a b : EvRec) : Bool :=
  decide (a.gts < b.gts) || (a.gts == b.gts && decide (a.source.toNat < b.source.toNat))

/-- The least removable record of a queue (R348). -/
def leastRemovable (now : Nat) : List EvItem → Option EvItem
  | [] => none
  | i :: r =>
    match leastRemovable now r with
    | none => if i.removable now then some i else none
    | some j => if i.removable now && !recBefore j.record i.record then some i else some j

/-- The hart with a record removed; the oldest record held by a source enters the freed place (R246). -/
def Hart.removeEvent (h : Hart) (now : Nat) (i : EvItem) : Hart :=
  let h' := { h with evq := h.evq.erase i }
  match h'.evHeld with
  | [] => h'
  | r :: rest => Hart.post { h' with evHeld := rest } now r

/-- The bytes of an event record (R247), its sequence in bytes 4-7 (R374). -/
def recBytes (r : EvRec) : List Byte :=
  [r.typ, r.flags] ++ bytesOf 2 r.source.toNat ++ bytesOf 4 r.seq.toNat ++ bytesOf 8 r.gts ++
    bytesOf 8 r.p0.toNat ++ bytesOf 8 r.p1.toNat

/-- The size in records of the host event ring (R374). -/
def HostRing.size (h : HostRing) : Nat := 2 ^ (h.lsize.toNat + 4)

/-- The Drover writes a record into the host event ring and advances TAIL (R374). -/
def State.ringWrite (s : State) (r : EvRec) : State :=
  let h := s.ring
  let a := h.base.toNat + 32 * (h.tail.toNat % h.size)
  { (s.physStore a (recBytes { r with seq := h.tail })).recall none (linesOf a 32) with
    ring := { h with tail := h.tail + 1 } }

/-- A record put into a list in queue order, after those that it does not come before (R348, R374). -/
def insertRec (r : EvRec) : List EvRec → List EvRec
  | [] => [r]
  | x :: xs => if recBefore r x then r :: x :: xs else x :: insertRec r xs

/-- The logic rails are lowered or just rising: nothing but the always-on domain moves (R386-R388). -/
def State.asleep (s : State) : Bool := decide (2 ≤ s.power.state.toNat)

/-- A record for the host joins the Drover's buffer of 256 records, in queue order, or is dropped with OVF set (R374). -/
def State.postHost (s : State) (r : EvRec) : State :=
  if s.ring.en && decide (s.ring.buf.length < 256) then { s with ring := { s.ring with buf := insertRec r s.ring.buf } }
  else { s with ring := { s.ring with ovf := true } }

/-- The records of the Drover's buffer enter the ring, in order, each once no record before it can still come: 250 ns after its
stamp (R348 as it applies at the Drover; DEDUCED, notes/assumptions/62.md); while the ring has room, and behind the lines that
engines own (R315, R374). `n` bounds how many. -/
def State.flushRing (s : State) : Nat → State
  | 0 => s
  | n + 1 =>
    match s.ring.buf with
    | [] => s
    | r :: rest =>
      if s.ring.en && !s.asleep && decide (r.gts + 250 ≤ s.gts) && (s.ring.tail - s.ring.head).toNat ≠ s.ring.size &&
          !s.owned none (.phys (s.ring.base.toNat + 32 * (s.ring.tail.toNat % s.ring.size))) then
        ({ s with ring := { s.ring with buf := rest } }.ringWrite r).flushRing n
      else s

/-! ## Fills (R17, R18, R20) -/

/-- Marks registers empty, in order. -/
def Thread.emptyAll (t : Thread) : List (BitVec 5) → Thread
  | [] => t
  | r :: rs => (t.setEmpty r).emptyAll rs

/-- Writes registers with words, in order; a register beyond the words takes 0. -/
def Thread.writeAll (t : Thread) : List (BitVec 5) → List Word → Thread
  | [], _ => t
  | r :: rs, ws => (t.setReg r (ws.headD 0)).writeAll rs ws.tail

/-- Some register of a list has an outstanding fill (R18). -/
def Thread.pendingReg (t : Thread) (rs : List (BitVec 5)) : Bool :=
  t.fills.any (fun f => f.dests.any (fun d => rs.contains d))

/-- A fill may start: fewer than 16 are outstanding; while E is split the bound is counted for each micro-thread (R18; DESIGN
CHOICE, notes/assumptions/52.md). -/
def Thread.fillRoom (t : Thread) : Bool := decide (t.fills.length < 16)

/-- Starts a fill of registers in the thread in focus: they become empty (R17). -/
def State.startFill (s : State) (dests : List (BitVec 5)) (src : FillSrc) : State :=
  let h := s.hart
  let t := h.thr s.who
  let t' := { t.emptyAll dests with fills := t.fills ++ [{ id := h.fillSeq, dests := dests, src := src }] }
  s.setHart ({ h with fillSeq := h.fillSeq + 1 }.setThr t' s.who)

/-- Completes a fill of a thread: its registers take the words and it is outstanding no longer (R17). -/
def Thread.complete (t : Thread) (f : Fill) (ws : List Word) : Thread :=
  { t.writeAll f.dests ws with fills := t.fills.filter (fun x => decide (x.id ≠ f.id)) }

/-- An access of a fill that is not performed yet and counts as a load (QPOP, tagged and sync operations, BWRED, a withdrawn load
or atomic) or as a store (tagged and sync operations, BWRED, a withdrawn atomic) for FENCE (R20, R89, R94, R298, R401). -/
def Fill.unperformed (f : Fill) (store : Bool) : Bool :=
  match f.src with
  | .queue _ => !store
  | .load _ _ => !store
  | .atom _ _ _ _ => true
  | .tagged => true
  | .sync _ _ _ => true
  | .bell _ _ _ _ _ _ => true
  | _ => false

/-- A fill before whose completion no later access of its stream begins: a tagged load that is not served, a sync update
that is not performed everywhere, an EVRD whose record is not removed, a BWRED without its result, a scalar access that is
re-issued (R222, R298, R317, R321, R345, R401). -/
def Fill.blocks (f : Fill) : Bool :=
  match f.src with
  | .tagged => true
  | .sync _ _ _ => true
  | .event => true
  | .bell _ _ _ _ _ _ => true
  | .load _ _ => true
  | .atom _ _ _ _ => true
  | _ => false

/-- A later access of the thread may not begin (R222, R317, R345); a release waits also for the posted reductions of its
stream (R304). -/
def Thread.held (t : Thread) (release : Bool) : Bool := t.fills.any Fill.blocks || (release && !t.posted.isEmpty)

/-- The next access of the thread in focus, a release or not, may not begin: an earlier access of its stream, an engine
command that has not started among them, is not performed (R310, R312, R316). -/
def State.held (s : State) (release : Bool) : Bool := s.thr.held release || s.core.unstarted s.who

/-! ## Hardware loops (R73-R76) -/

/-- The body end at an address: entries that end there at the call level advance or are popped (R74). Gives the loop
stack and the next PC. -/
def bodyEnd (lvl : Int) (at' : Word) : List LoopEntry → List LoopEntry × Word
  | [] => ([], at' + 4)
  | x :: r =>
    if x.lvl = lvl ∧ x.fin = at' then
      if 1 < x.count.toNat then
        ({ x with index := x.index + 1, count := x.count - 1 } :: r, x.start)
      else bodyEnd lvl at' r
    else (x :: r, at' + 4)

/-- The instruction at an address is the last of the innermost active body (R74, R75). -/
def atBodyEnd (t : Thread) (pc : Word) : Bool :=
  match t.loops with
  | [] => false
  | x :: _ => decide (x.lvl = t.clvl) && x.fin == pc

/-- The pops of a taken transfer to a target (R76). -/
def popLoops (lvl : Int) (target : Word) : List LoopEntry → List LoopEntry
  | [] => []
  | x :: r =>
    if x.lvl = lvl ∧ ¬(x.start.toNat ≤ target.toNat ∧ target.toNat ≤ x.fin.toNat) then popLoops lvl target r
    else x :: r

/-- The entries that stay when the call level falls to `lvl` (R76, R82). -/
def dropAbove (lvl : Int) : List LoopEntry → List LoopEntry
  | [] => []
  | x :: r => if lvl < x.lvl then dropAbove lvl r else x :: r

/-- A thread whose wait has ended: the registers that the wait marked empty are full again, with the bits they kept
(R330). -/
def Thread.endWait (t : Thread) : Thread :=
  match t.wait with
  | none => t
  | some w => { t with wait := none, full := w.holds.foldl (fun f r => f ||| (1#32 <<< r.toNat)) t.full }

/-- A thread after its instruction has completed: PC and loops under R74, no wait, and parked if a body's last
instruction completed while a request is pending (R101). -/
def Thread.advance (t : Thread) (park : Bool) : Thread :=
  let p := bodyEnd t.clvl t.pc t.loops
  { t with
    loops := p.1, pc := p.2, wait := none
    run := if park && atBodyEnd t t.pc then .parked else t.run }

/-! ## Traps (R97-R100) -/

/-- Bits [56:2] of TVEC as the address they name (R98, R99). -/
def tvecAddr (tvec : Word) : Word := sext57 ((tvec &&& 0x01FF_FFFF_FFFF_FFFC#64))

/-- TSTATUS.TMT and the micro-thread number of a thread (R98, R213). -/
def mtidOf : Who → BitVec 4
  | .mt k => BitVec.ofNat 4 k.val
  | _ => 0

/-- The thread's registers after delivery has saved into them and raised the level and CLVL (R71, R99). -/
def Thread.saveTrap (t : Thread) (w : Who) (pend : Bool) (c : Cause) (val pc : Word) : Thread :=
  { t.endWait with
    tcause := c.code, tval := val, tpc := pc &&& 0x01FF_FFFF_FFFF_FFFF#64, plvl := t.super, pfxp := pend
    busy := true, super := true, tmt := (mtidOf w), clvl := t.clvl + 1 }

/-- A hart asked to park, to be forced after `us` microseconds, by PREDEADLINE as it stands now when none is given
(DESIGN CHOICE, notes/assumptions/20.md); a request that is pending stays (R101, R103, R371). -/
def Hart.askPark (h : Hart) (now : Nat) (us : Option Nat) : Hart :=
  if h.park.isSome then h
  else { h with park := some { since := now, force := now + (us.getD h.predeadline.toNat) * 1000 } }

/-- The cores of a team. -/
def Team.ids (t : Team) : List CoreId := t.cores.map (fun k => ⟨t.die, t.cluster, k⟩)

/-- Every hart of a team is asked to park (R101). -/
def State.askHarts (s : State) (t : Team) (us : Option Nat) : State :=
  t.ids.foldl (fun s c =>
    let k := s.getCore c
    s.setCore c { k with hart := k.hart.askPark s.gts us }) s

/-- The team of a hart is to be saved and marked failed, its launch hands out no more, its context is failed, and the
host is told (R99, R355, R428). -/
def State.failContext (s : State) (c : Cause) (pc : Word) : State :=
  let h := s.hart
  let p0 := word (h.ctx % 0x10000 + h.teamid % 0x10000 * 2 ^ 16 + h.hartid % 8 * 2 ^ 32 +
    (if s.who = .a then 0 else 2 ^ 35) + (mtidOf s.who).toNat * 2 ^ 36 + c.code.toNat * 2 ^ 40)
  let s1 := { s with ctxs := s.ctxs.map (fun (x : Context) => if x.num = h.ctx then { x with failed := true } else x) }
  let s2 := match assocFind s1.teams h.team with
    | some t =>
      { s1.askHarts t none with
        teams := assocSet s1.teams h.team { t with state := .parking, failing := true }
        launches := s1.launches.map
          (fun (l : Nat × Launch) => if l.1 = t.launch then (l.1, { l.2 with failed := true }) else l) }
    | none => s1
  s2.postHost (mkRec s2 12 0x8001 p0 (pc &&& 0x01FF_FFFF_FFFF_FFFF#64))

/-- A double trap: the sequencer stops without delivery (R99). -/
def State.doubleTrap (s : State) (c : Cause) (pc : Word) : State :=
  (s.setThr { s.thr.endWait with run := .stopped }).failContext c pc

/-- The address of a cause's entry in the dispatch table (R99). -/
def tableEntry (tvec : Word) (c : Cause) : Word :=
  (tvecAddr tvec &&& ~~~0x7FF#64) + word (8 * c.code.toNat)

/-- TVEC of a thread: one for each sequencer, so that the micro-threads share E's (R98). -/
def Hart.tvecOf (h : Hart) : Who → Word
  | .a => h.a.tvec
  | _ => h.e.tvec

/-- Takes a trap in the thread in focus: saves cause, value, PC and status, enters supervisor level, and goes to the
handler of TVEC (R99); none while the table read waits for a migration (R298). -/
def State.tryTrap (s : State) (c : Cause) (val pc : Word) : Option State :=
  let t := s.thr
  let tvec := s.hart.tvecOf s.who
  if t.busy then some (s.doubleTrap c pc)
  else
    let x := s.est
    let s0 := match s.who with
      | .a => s
      | _ => s.setEst { x with pfx := { x.pfx with pend := false } }
    let t1 := t.saveTrap s.who (s.who ≠ .a && x.pfx.pend) c val pc
    let s1 := s0.setHart (match s.who with
      | .mt k => { s0.hart.setThr t1 s.who with trapMt := some k }
      | _ => s0.hart.setThr t1 s.who)
    if !bit tvec 63 then some (s1.setThr { t1 with pc := tvecAddr tvec })
    else
      match resolve s1 s1.loc false .read (tableEntry tvec c) 8 with
      | .stall _ => none
      | .fail _ s2 => some (s2.doubleTrap c pc)
      | .ok p s2 =>
        if s2.poisonedAt p 8 then some (s2.doubleTrap c pc)
        else
          let h := word (ofBytes (s2.loadAt p 8))
          if h.toNat % 4 ≠ 0 then some (s2.doubleTrap c pc)
          else some (s2.setThr { s2.thr with pc := h })

/-- Takes a trap in the thread in focus (R99). A table read that waits for a migration leaves the state as it was: the
trap is taken again when the thread runs again (R298). -/
def State.takeTrap (s : State) (c : Cause) (val pc : Word) : State := (s.tryTrap c val pc).getD s

/-- A thread after RETT: PC, level, pending-prefix state, BUSY and CLVL as R82 and R99 give. -/
def Thread.returnTrap (t : Thread) : Thread :=
  { t with
    pc := sext57 (t.tpc &&& ~~~3#64), super := t.plvl, busy := false
    clvl := t.clvl - 1, loops := dropAbove (t.clvl - 1) t.loops, wait := none }

/-- Returns from a trap in the thread in focus (R50, R82, R99, R100); each RETT of a micro-thread, that of a nested trap also,
lets the others run again (DESIGN CHOICE, notes/assumptions/67.md). -/
def State.returnTrap (s : State) : State :=
  let t := s.thr
  let x := s.est
  let s1 := match s.who with
    | .a => s
    | _ => s.setEst { x with pfx := { x.pfx with pend := t.pfxp } }
  s1.setHart (match s.who with
    | .mt _ => { s1.hart.setThr t.returnTrap s.who with trapMt := none }
    | _ => s1.hart.setThr t.returnTrap s.who)

/-! ## Issue (R13, R38, R45, R46, R48, R75) -/

/-- What an instruction's body answers. -/
inductive Res
  /-- It completed: PC advances under R74. -/
  | adv (s : State)
  /-- It completed and set PC itself. -/
  | go (s : State)
  /-- It raises a cause; the state is the one to trap from. -/
  | trap (s : State) (c : Cause) (v : Word)
  /-- It completed, and then its trap is delivered at the address where execution continues (R81). -/
  | advTrap (s : State) (c : Cause) (v : Word)
  /-- It waits, bounded in microseconds; at the bound it raises the cause with the value. -/
  | block (s : State) (k : WaitKind) (n : Word) (bound : Nat) (c : Cause) (v : Word)
  /-- It waits at the homes of versions for what it asks; at the bound of the first word not served it raises the cause with
  the value (R330, R331, R335). -/
  | ask (s : State) (k : WaitKind) (n : Word) (qs : List VersAsk) (op : VersOp) (c : Cause) (v : Word)
  /-- It waits without a bound. -/
  | stall (s : State)

/-- The major opcode of a word (R36). -/
def major (w : BitVec 32) : Nat := (bits w 26 6).toNat

/-- A word that R13 gives to the execute sequencer alone. -/
def onlyE (w : BitVec 32) : Bool :=
  let m := major w
  (decide (0x18 ≤ m) && decide (m ≤ 0x26)) || m == 0x28 || (m == 0x27 && decide ((bits w 0 11).toNat ≤ 1)) ||
    (m == 0x0C && decide (6 ≤ (bits w 11 3).toNat))

/-- A word that R13 gives to the access sequencer alone: BOPUSH. In a micro-thread it raises SPLIT_ILL (R95). -/
def onlyA (w : BitVec 32) : Bool := major w == 0x0F && (bits w 0 4).toNat == 8

/-- A privileged encoding (R45). -/
def privileged (w : BitVec 32) : Bool :=
  major w == 0x12 &&
    ((bits w 0 4).toNat == 5 || (bits w 0 4).toNat == 14 ||
      (decide ((bits w 0 4).toNat ≤ 3) && decide (0x100 ≤ (bits w 4 12).toNat)))

/-- A control transfer of R75 or R143. -/
def isTransfer (w : BitVec 32) : Bool :=
  let m := major w
  m == 0x0C || m == 0x0D || m == 0x0E || (m == 0x0F && decide ((bits w 0 4).toNat ≤ 3)) || m == 0x10 || m == 0x11 ||
    m == 0x23 || (m == 0x12 && (bits w 0 4).toNat == 5)

/-- The word reads a v register through va; EMOV's field names a scale register (R43, R48). -/
def readsVa (w : BitVec 32) : Bool :=
  let m := major w
  m == 0x18 || (m == 0x19 && (bits w 0 5).toNat != 12) || m == 0x1A || m == 0x1C || m == 0x1E || m == 0x1F ||
    m == 0x20 || (m == 0x21 && (bits w 0 5).toNat != 3)

/-- The word reads a v register through bits [15:11], or [14:10] in VC (R48). -/
def readsVb (w : BitVec 32) : Bool :=
  let m := major w
  let fn := (bits w 0 5).toNat
  m == 0x18 || (m == 0x1C && (decide ((bits w 0 4).toNat ≤ 3) || decide (10 ≤ (bits w 0 4).toNat))) ||
    (m == 0x1F && fn == 6) || (m == 0x20 && (decide (fn ≤ 5) || fn == 13)) || (m == 0x21 && fn == 2)

/-- A PFX may lend its fields to the word (R48). -/
def pfxLegal (x : Pfx) (w : BitVec 32) : Bool :=
  let m := major w
  ((decide (0x18 ≤ m) && decide (m ≤ 0x1C)) || m == 0x1E || m == 0x1F || m == 0x20 || m == 0x21) &&
    !(m == 0x21 && (bits w 0 5).toNat == 3) && !(x.ce && (m == 0x1C || m == 0x1E)) &&
    !(x.lua && !readsVa w) && !(x.lub && !readsVb w)

/-- A LOOP or LOOPI whose end lies beyond the end of the enclosing body at the same call level (R73). -/
def loopBeyond (t : Thread) (w : BitVec 32) : Bool :=
  (major w == 0x10 || major w == 0x11) &&
    (match t.loops with
      | [] => false
      | x :: _ => decide (x.lvl = t.clvl) &&
          decide (x.fin.toNat < (t.pc + 4 + 4 * (bits w 0 16).setWidth 64).toNat))

/-- The checks before any source is read, in the order of R38: the sequencer (R13), privilege (R45), the prefix (R46,
R48) and the body end (R73, R75). R38 names ILL_PFX and ILL_LOOPEND in one step; the model raises ILL_PFX where both
hold (DESIGN CHOICE, notes/assumptions/18.md). -/
def gate (w : BitVec 32) (s : State) : Option Cause :=
  let t := s.thr
  if (s.who = .a && onlyE w) || (s.who = .e && onlyA w) then some .ill
  else if !t.super && privileged w then some .priv
  else if s.who ≠ .a && s.est.pfx.pend && !pfxLegal s.est.pfx w then some .illPfx
  else if atBodyEnd t t.pc && major w == 0x28 then some .illPfx
  else if (atBodyEnd t t.pc && isTransfer w) || loopBeyond t w then some .illLoopend
  else none

/-- The first empty source in the order of the fields, and whether it traps or waits (R17, R42); with several empty
sources the spec does not say which one decides (DESIGN CHOICE, notes/assumptions/19.md). -/
def firstEmpty (t : Thread) : List (BitVec 5 × BitVec 1) → Option (BitVec 5 × Bool)
  | [] => none
  | (r, m) :: rest => if t.isFull r then firstEmpty t rest else some (r, m == 1)

/-- The state with the thread's wait ended. -/
def State.noWait (s : State) : State := s.setThr { s.thr with wait := none }

/-- A bounded wait: it begins, goes on, or has reached its bound and raises its cause (R19, R29). Its bound is the one in
force when it began: a later write of the timeout register does not change it (DESIGN CHOICE, notes/assumptions/20.md). -/
def waitStep (s : State) (k : WaitKind) (n : Word) (bound : Nat) (c : Cause) (v : Word) : State :=
  let t := s.thr
  match t.wait with
  | some w =>
    if w.kind = k ∧ w.num = n then
      if w.since + w.bound * 1000 ≤ s.gts then s.takeTrap c v t.pc else s
    else if bound = 0 then s.takeTrap c v t.pc
    else s.setThr { t with wait := some { kind := k, num := n, since := s.gts, bound := bound } }
  | none =>
    if bound = 0 then s.takeTrap c v t.pc
    else s.setThr { t with wait := some { kind := k, num := n, since := s.gts, bound := bound } }

/-- The bound of the first word that a version operation asks for (R329). -/
def askBound (qs : List VersAsk) : Nat := (qs.head?.map (·.bound)).getD 0

/-- The register that a version operation marks empty at issue (R329). -/
def VersOp.dests : VersOp → List (BitVec 5)
  | .load d => [d]
  | .store => []
  | .lanes _ => []

/-- VTIMEOUT as it stood when the instruction in progress issued; an instruction that waits for a source has not (R329). -/
def State.vtimeout (s : State) : Nat :=
  match s.thr.wait with
  | some w => if w.kind = WaitKind.reg then s.hart.vtimeout.toNat else w.vtimeout
  | none => s.hart.vtimeout.toNat

/-- A version operation's wait at its words' homes: as a bounded wait, with what it asks, and its destination, which is full
again if it is not served, marked empty while it lasts (R17, R330, R331, R335). -/
def askStep (s : State) (k : WaitKind) (n : Word) (qs : List VersAsk) (op : VersOp) (c : Cause) (v : Word) : State :=
  let t := s.thr
  let bound := askBound qs
  let begin' (t : Thread) : State :=
    if bound = 0 then s.takeTrap c v t.pc
    else s.setThr { t.emptyAll op.dests with
      wait := some { kind := k, num := n, since := s.gts, bound := bound, asks := qs, op := op,
                     holds := op.dests.filter t.isFull, vtimeout := s.vtimeout } }
  match t.wait with
  | some w =>
    if w.kind = k ∧ w.num = n then
      if w.since + bound * 1000 ≤ s.gts then s.takeTrap c v t.pc
      else s.setThr { t with wait := some { w with bound := bound, asks := qs } }
    else begin' t.endWait
  | none => begin' t

/-- The state after an instruction whose body answered. A trap at the end of an instruction whose table read waits for a
migration leaves the instruction to be executed again (R81, R298). -/
def finish : Res → State
  | .adv s => s.setThr (s.thr.advance s.hart.park.isSome)
  | .go s => s.noWait
  | .trap s c v => s.takeTrap c v s.thr.pc
  | .advTrap s c v =>
    let s' := s.setThr (s.thr.advance s.hart.park.isSome)
    (s'.tryTrap c v s'.thr.pc).getD s
  | .block s k n b c v => waitStep s k n b c v
  | .ask s k n qs op c v => askStep s k n qs op c v
  | .stall s =>
    let w : Wait := { kind := .other, num := 0, since := s.gts, bound := 0, vtimeout := s.hart.vtimeout.toNat }
    if s.thr.wait.isNone then s.setThr { s.thr with wait := some w } else s

/-- WAIT_TIMEOUT's value: the kind in [2:0], the number above it (R97). -/
def waitVal (kind num : Nat) : Word := word (kind % 8 + 8 * num)

/-- A wait bounded by WAITTIMEOUT (R19). -/
def waitOn (s : State) (k : WaitKind) (kind num : Nat) : Res :=
  .block s k (word num) s.hart.waittimeout.toNat .waitTimeout (waitVal kind num)

/-- The registers that the thread's wait has marked empty, with their bits kept (R330). -/
def Thread.holds (t : Thread) : List (BitVec 5) := match t.wait with | some w => w.holds | none => []

/-- Issues a program instruction: the checks of R38 in order, then its body. `srcs` lists its scalar sources with
their mode bits; an instruction that waits for a version has read its own already. -/
def issue (w : BitVec 32) (srcs : List (BitVec 5 × BitVec 1)) (s : State) (body : State → Res) : Out :=
  if !s.core.resident then .fault .noHart
  else
    .next (finish
      (match gate w s with
        | some c => .trap s c (w.setWidth 64)
        | none =>
          match firstEmpty s.thr (srcs.filter (fun r => !s.thr.holds.contains r.1)) with
          | some (r, true) => .trap s .regEmpty (word r.toNat)
          | some (r, false) => waitOn s .reg 0 r.toNat
          | none => body s))

/-- Writes a scalar register once no fill of it is outstanding, and completes (R17, R18). -/
def writeReg (s : State) (d : BitVec 5) (v : Word) : Res :=
  if s.thr.pendingReg [d] then .stall s else .adv (s.setThr (s.thr.setReg d v))

/-- Raises SPLIT_ILL in a micro-thread (R209). -/
def notSplit (w : BitVec 32) (s : State) (k : State → Res) : Res :=
  match s.who with
  | .mt _ => .trap s .splitIll (w.setWidth 64)
  | _ => k s

/-- A control transfer taken to a target, with the pops of R76. -/
def jumpTo (s : State) (target : Word) : Res :=
  let t := s.thr
  .go (s.setThr { t with pc := target, loops := popLoops t.clvl target t.loops })

/-- The target of an offset in words (R40). -/
def relTarget (pc : Word) (n off : Nat) : Word := pc + 4 + BitVec.ofInt 64 (4 * sextNat n off)

/-! ## Fetch (R36, R72, R91) -/

/-- The result of a fetch, each with the state that a walk leaves. -/
inductive Fetched
  | ok (w : BitVec 32) (s : State)
  | fail (c : Cause) (s : State)
  | stall (s : State)

/-- Fetches the word at PC through the core's instruction cache, which is not coherent with stores; a line that an engine
owns is waited for (R91, R315). -/
def fetch (s : State) : Fetched :=
  let pc := s.thr.pc
  if !canonical pc then .fail .xlate s
  else if windowBase ≤ pc.toNat then .fail .perm s
  else
    match s.xlate none s.core.tlb 256 s.hart.ctx (!s.thr.super) .fetch pc with
    | .fail c s1 => .fail c s1
    | .stall s1 => .stall s1
    | .ok pa tlb s1 =>
      let s2 := { s1 with core := { s1.core with tlb := tlb } }
      let line := pa / 64
      if (assocFind s2.core.icache line).isNone && s2.owned none (.phys pa) then .stall s2
      else
      let bs := match assocFind s2.core.icache line with
        | some bs => bs
        | none => memRead s2.mem (64 * line) 64
      let s3 := if (assocFind s2.core.icache line).isSome then s2
        else { s2.touchDirect pa true with core := { (s2.touchDirect pa true).core with
          icache := ((line, bs) :: s2.core.icache).take 1024 } }
      .ok (BitVec.ofNat 32 (ofBytes ((bs.drop (pa % 64)).take 4))) s3

/-! ## Turns and time (R27 CYCLES, R99, R101, R276, R277, R346, R381) -/

/-- The order in which Pattern(c) sets its slots (R381). -/
def slotOrder : List Nat := [0, 8, 4, 12, 2, 10, 6, 14, 1, 9, 5, 13, 3, 11, 7, 15]

/-- Pattern(c): the first c slots of the order (R381). -/
def patternOf (c : Nat) : BitVec 16 := (slotOrder.take c).foldl (fun p i => p ||| (1#16 <<< i)) 0

/-- The number of ones in 16 bits. -/
def ones16 (p : BitVec 16) : Nat := ((List.range 16).filter (fun i => p.getLsbD i)).length

/-- LIM of a cluster: the least of the counts that cap, crook and thermal control ask for (R381). -/
def State.limOf (s : State) (k : Cluster) : BitVec 16 :=
  patternOf (min s.power.capCount (min s.power.crookCount k.thermal))

/-- EFF: whichever of PATTERN and LIM has fewer ones, LIM on a tie (R276). -/
def State.effOf (s : State) (k : Cluster) : BitVec 16 :=
  if ones16 k.pattern < ones16 (s.limOf k) then k.pattern else s.limOf k

/-- The ones of a pattern in slots 0 to `i` - 1, slots counted on from frame to frame (R276). -/
def onesTo (p : BitVec 16) (i : Nat) : Nat :=
  i / 16 * ones16 p + ((List.range (i % 16)).filter (fun b => p.getLsbD b)).length

/-- The slot of 0.8 ns that begins first at or after a GTS; frames of 16 slots begin at GTS 0 (R276, R277). -/
def slotAt (t : Nat) : Nat := (t * 10 + 7) / 8

/-- The work cycles between two GTS values under the effective pattern in force, which another replaces at the next frame
boundary (R276, R277). -/
def cyclesOf (now next : BitVec 16) (t u : Nat) : Nat :=
  let a := slotAt t
  let z := slotAt u
  let edge := min z ((a + 15) / 16 * 16)
  (onesTo now edge - onesTo now a) + (onesTo next z - onesTo next edge)

/-- EFF after time has passed: the pattern asked for, once a frame has begun (R276). -/
def effAfter (now next : BitVec 16) (t u : Nat) : BitVec 16 := if (slotAt t + 15) / 16 * 16 < slotAt u then next else now

/-- A core after `ns` nanoseconds: CYCLES of its hart counts work cycles (R27, R277). -/
def State.passCore (s : State) (ns : Nat) (c : CoreId) (k : Core) : Core :=
  if k.resident && !s.asleep then
    let x := s.cluster c.die c.cluster
    { k with hart := { k.hart with cycles := k.hart.cycles + cyclesOf x.eff (s.effOf x) s.gts (s.gts + ns) } }
  else k

/-- Nanoseconds pass (R276, R346). -/
def State.tick (s : State) (ns : Nat) : State :=
  { s with
    gts := s.gts + ns
    core := s.passCore ns s.loc s.core
    others := s.others.map (fun p => (p.1, s.passCore ns p.1 p.2))
    dies := s.dies.map (fun d =>
      { d with clusters := d.clusters.map (fun k => { k with eff := effAfter k.eff (s.effOf k) s.gts (s.gts + ns) }) }) }

/-- The thread may run: its hart is placed, it runs, E is not split above it, no other micro-thread handles a trap
(R15, R100, R208). -/
def Core.canRun (k : Core) (w : Who) : Bool :=
  k.resident && (k.hart.thr w).run == .running &&
    (match w with
      | .a => true
      | .e => k.hart.split == 0
      | .mt i => decide (i.val < k.hart.split) && (k.hart.trapMt == none || k.hart.trapMt == some i))

/-- A request held at a scratchpad is withdrawn wherever it is held (R221). -/
def State.withdrawTag (s : State) (id : Nat) : State :=
  let f (k : Core) : Core :=
    { k with hart := { k.hart with spadWait := k.hart.spadWait.filter (fun r => decide (r.id ≠ id)) } }
  { s with core := f s.core, others := s.others.map (fun p => (p.1, f p.2)) }

end Sys2Proof.Machine
end

