-- ==== Sys2Proof/Machine/Lanes.lean ====
section
/-! DEFINITION. Sys2Proof/Machine/Lanes.lean: lanes, bit-planes, masks and vector registers (R107-R120, R125, R160),
suspicion scores and the lanes' own checks (R248-R256, R351). -/

namespace Sys2Proof.Machine

/-! ## Lanes of elements (R108, R120) -/

/-- VLMAX: 16,384, halved by MODE.DS, divided by n while split (R27). -/
def vlmaxOf (h : Hart) (w : Who) : Nat :=
  let full := if h.ds then 8192 else 16384
  match w with
  | .mt _ => full / h.split
  | _ => full

/-- The lane of element 0 (R108). -/
def laneBase (h : Hart) (w : Who) : Nat :=
  match w with
  | .mt k => k.val * vlmaxOf h w
  | _ => 0

/-- A plane with ones in the lanes of a list of elements. -/
def laneSet (base : Nat) (js : List Nat) : Plane :=
  BitVec.ofNat 16384 (js.foldl (fun acc j => acc ||| (1 <<< (base + j))) 0)

/-- A plane's lanes together with their mirrors under MODE.DS (R108, R125). -/
def mirrored (h : Hart) (p : Plane) : Plane := if h.ds then p ||| (p <<< 8192) else p

/-- The lanes that belong to a thread's elements, mirrors included (R108). -/
def partLanes (h : Hart) (w : Who) : Plane :=
  match w with
  | .mt _ => mirrored h (BitVec.ofNat 16384 ((2 ^ vlmaxOf h w - 1) <<< laneBase h w))
  | _ => BitVec.allOnes 16384

/-- Bits of `new` in the lanes of `mask`, bits of `old` elsewhere. -/
def mergePlane (old new mask : Plane) : Plane := (old &&& ~~~mask) ||| (new &&& mask)

/-- The bits that planes hold in one lane, plane 0 the least significant. -/
def rawAt (lane : Nat) : List Plane → Nat
  | [] => 0
  | p :: r => (if p.getLsbD lane then 1 else 0) + 2 * rawAt lane r

/-- Planes read at a width: missing planes are copies of the top one when signed, else 0 (R111). -/
def planesAt (ps : List Plane) (w : Nat) (signed : Bool) : List Plane :=
  let fillp : Plane := if signed then ps.getLastD 0 else 0
  (List.range w).map (fun b => ps.getD b fillp)

/-- The integer value of `w` raw bits (R146 IntVal). -/
def intVal (w : Nat) (signed : Bool) (raw : Nat) : Int := if signed then sextNat w raw else (raw % 2 ^ w : Nat)

/-- The low `w` bits of an integer (R146 Trunc). -/
def truncTo (w : Nat) (x : Int) : Nat := (x % (2 ^ w : Nat)).toNat

/-! ## Masks (R116-R118) -/

/-- The top of the mask stack as a plane (R117). -/
def topPlane (h : Hart) (x : EState) : Plane :=
  if x.msdepth = 0 then BitVec.allOnes 16384 else h.levels.toList.getD (x.msdepth - 1) 0

/-- A predicate at an element; p0 is (j < VL) (R116). -/
def predAt (h : Hart) (x : EState) (base : Nat) (p : BitVec 6) (j : Nat) : Bool :=
  if p = 0 then decide (j < x.vl) else (h.preds[p.toNat]'p.isLt).getLsbD (base + j)

/-- The top of the mask stack at an element. -/
def topAt (h : Hart) (x : EState) (base j : Nat) : Bool := (topPlane h x).getLsbD (base + j)

/-- The predicate that a PFX lends, at an element (R49). -/
def lentAt (h : Hart) (x : EState) (base j : Nat) : Bool :=
  !(x.pfx.pend && x.pfx.pe) || (predAt h x base x.pfx.pm j ^^ x.pfx.inv)

/-- The active elements under a predicate, ascending (R118). -/
def activeJs (h : Hart) (x : EState) (base : Nat) (pm : BitVec 6) : List Nat :=
  (List.range x.vl).filter (fun j => predAt h x base pm j && lentAt h x base j && topAt h x base j)

/-- The elements below VL where the top is true and a lent predicate holds (R150, R155, R157). -/
def topJs (h : Hart) (x : EState) (base : Nat) : List Nat :=
  (List.range x.vl).filter (fun j => lentAt h x base j && topAt h x base j)

/-- BMZ's condition: no element below VL has a true top (R161). -/
def topZero (s : State) : Bool :=
  let x := s.est
  (List.range x.vl).all (fun j => !topAt s.hart x (laneBase s.hart s.who) j)

/-- The logical rows of a predicate and of a mask-stack level (R107); a level above 16 lies in the scratchpad (R22). -/
def predRow (p : BitVec 6) : Nat := 640 + p.toNat
def levelRow (level : Nat) : Nat := 703 + level

/-- The marks of bad parity that a write of logical rows in some lanes leaves (R249, R251). -/
def marksAfter (marks : List (Nat × Nat)) (rows : List Nat) (lanes : Plane) : List (Nat × Nat) :=
  marks.filter (fun m => !(rows.contains m.1 && lanes.getLsbD m.2))

/-- A hart with a predicate's listed elements written and the others kept (R116, R125). -/
def Hart.setPred (h : Hart) (base : Nat) (p : BitVec 6) (js ones : List Nat) : Hart :=
  let mask := mirrored h (laneSet base js)
  let new := mirrored h (laneSet base ones)
  { h with
    preds := h.preds.set p.toNat (mergePlane (h.preds[p.toNat]'p.isLt) new mask) p.isLt
    damaged := marksAfter h.damaged [predRow p] mask }

/-! ## Vector registers (R109, R112-R114, R119) -/

/-- A vector register of a lane side. -/
def EState.vreg (x : EState) (r : BitVec 5) : VReg := x.vregs[r.toNat]'r.isLt

/-- The pool rows that a map's registers, its pending destination and a tile task's part hold, as a set of bits (R113,
R176, R264). -/
def usedRows (x : EState) : Nat :=
  let own := x.vregs.toList.foldl (fun acc v => v.rows.foldl (fun a r => a ||| (1 <<< r)) acc)
    (x.tile.foldl (fun a r => a ||| (1 <<< r)) 0)
  match x.pending with
  | some p => p.rows.foldl (fun a r => a ||| (1 <<< r)) own
  | none => own

/-- The `n` lowest free rows at or above row `r`, looking at `k` rows. -/
def lowRows (used : Nat) : Nat → Nat → Nat → List Nat
  | 0, _, _ => []
  | _, _, 0 => []
  | k + 1, r, n + 1 => if used.testBit r then lowRows used k (r + 1) (n + 1) else r :: lowRows used k (r + 1) n

/-- Fresh rows of the pool for `n` rows, lowest first: which free rows are taken is open (R113; DESIGN CHOICE,
notes/assumptions/13.md). -/
def EState.freshRows (x : EState) (n : Nat) : List Nat := lowRows (usedRows x) 640 0 n

/-- Commits planes to a register, in rows, with the SD of the write; its old rows become free (R113). -/
def EState.commit (x : EState) (r : BitVec 5) (ps : List Plane) (sd : Bool) (rows : List Nat) (stamp : Nat) : EState :=
  let v : VReg := { planes := ps, sd := sd, rows := rows, inPool := true, stamp := stamp }
  { x with vregs := x.vregs.set r.toNat v r.isLt }

/-- A row of the register pool (R107). -/
def Hart.poolRow (h : Hart) (r : Nat) : Plane := assocGet 0 h.pool r

/-- A hart with planes written into pool rows in some lanes (R109, R113). -/
def Hart.writeRows (h : Hart) (lanes : Plane) (rows : List Nat) (ps : List Plane) : Hart :=
  { h with
    pool := (rows.zip ps).foldl (fun l x => assocSet l x.1 (mergePlane (assocGet 0 l x.1) x.2 lanes)) h.pool
    damaged := marksAfter h.damaged rows lanes }

/-- Commits planes to a register of a thread, in rows chosen before (R113). -/
def Hart.commitReg (h : Hart) (w : Who) (r : BitVec 5) (ps : List Plane) (sd : Bool) (rows : List Nat) : Hart :=
  let h1 := h.setEst ((h.est w).commit r ps sd rows (h.writeSeq + 1)) w
  { h1 with writeSeq := h.writeSeq + 1 }.writeRows (partLanes h w) rows ps

/-! ## Rows in memory (R104, R114) -/

/-- A lane row of 2,048 bytes, lane `i` at bit `i` (R104). -/
def rowBytes (p : Plane) : List Byte := bytesOf 2048 p.toNat

/-- The lane row that lies at a physical address (R104). -/
def State.rowAt (s : State) (a : Nat) : Plane := BitVec.ofNat 16384 (ofBytes (memRead s.mem a 2048))

/-- The state with lane rows stored one after the other from a physical address, in some lanes; the other lanes' bits stay, and
a part loses its poison where all its bits are stored (R114, R350). -/
def State.putRows (s : State) (lanes : Plane) : List Plane → Nat → State
  | [], _ => s
  | p :: ps, a =>
    let whole (q : Nat) : Bool := decide (a ≤ 16 * q) && decide (16 * q < a + 2048) &&
      lanes.extractLsb' (8 * (16 * q - a)) 128 == BitVec.allOnes 128
    State.putRows { s with
      mem := memWrite s.mem a (rowBytes (mergePlane (s.rowAt a) p lanes))
      poison := s.poison.filter (fun q => !whole q) } lanes ps (a + 2048)

/-- The `n` lane rows that lie one after the other from a physical address. -/
def State.getRows (s : State) (n a : Nat) : List Plane := (List.range n).map (fun b => s.rowAt (a + 2048 * b))

/-- The bits, in some lanes, of rows that lie one after the other from a physical address in poisoned parts: row and lane. They
enter the lanes with bad parity, so that no poisoned bit reaches a register (R349, R350; DEDUCED, notes/assumptions/60.md). -/
def State.poisonMarks (s : State) (rows : List Nat) (a : Nat) (lanes : Plane) : List (Nat × Nat) :=
  if s.poison.isEmpty then []
  else
    (rows.mapIdx (fun b r => (b, r))).flatMap (fun x =>
      (s.poison.filter (fun q => decide (a + 2048 * x.1 ≤ 16 * q) && decide (16 * q < a + 2048 * (x.1 + 1)))).flatMap
        (fun q => ((List.range 128).map (· + 8 * (16 * q - (a + 2048 * x.1)))).filterMap
          (fun l => if lanes.getLsbD l then some (x.2, l) else none)))

/-- The slots of a hart's backing area (R114): a register's, the pending destination's, the pending per-row register's, a
mask level's, the seam mask's, the spilled return entries'. -/
def Hart.regSlot (h : Hart) (r : Nat) : Nat := h.backing + 0x1_0000 * r
def Hart.pendSlot (h : Hart) : Nat := h.backing + 0x20_0000
def Hart.perRowSlot (h : Hart) : Nat := h.backing + 0x21_0000
def Hart.levelSlot (h : Hart) (level : Nat) : Nat := h.backing + 0x22_0000 + 0x800 * (level - 1)
def Hart.seamSlot (h : Hart) : Nat := h.backing + 0x22_C000
def Hart.retSlot (h : Hart) : Nat := h.backing + 0x22_C800

/-- A register freed (R113). -/
def EState.freeReg (x : EState) (r : BitVec 5) : EState :=
  { x with vregs := x.vregs.set r.toNat {} r.isLt }

/-- The planes that keep a register's elements at a width: truncated, or extended by the SD of the write, and by the
recorded SD in a register that JOIN merged (R119; notes/assumptions/16.md). -/
def keptPlanes (v : VReg) (wd : Nat) (sd : Bool) : List Plane := planesAt v.planes wd (if v.merged then v.sd else sd)

/-- Planes with elements written: the lanes of listed elements take their bits, other lanes keep theirs (R113, R125). -/
def writeElems (h : Hart) (base : Nat) (old : List Plane) (res : List (Nat × Nat)) : List Plane :=
  let mask := mirrored h (laneSet base (res.map (·.1)))
  old.mapIdx (fun b p =>
    mergePlane p (mirrored h (laneSet base ((res.filter (fun e => e.2.testBit b)).map (·.1)))) mask)

/-! ## Suspicion scores and lane checks (R248-R256, R351) -/

/-- The period after which every score halves, in nanoseconds (R352). -/
def hour : Nat := 3600000000000

/-- Every score halved, rounding down, that of a replaced unit apart (R352). -/
def halveScores (replaced : List ScoreUnit) (l : List (ScoreUnit × Nat)) : List (ScoreUnit × Nat) :=
  l.map (fun x => if replaced.contains x.1 then x else (x.1, x.2 / 2))

/-- The halvings that are due have taken place: one at each GTS multiple of an hour, before an input stamped then (R352). -/
def State.halved (s : State) : State :=
  let n := s.gts / hour - s.timers[(5 : Fin 8)] / hour
  if n = 0 then s
  else
    { s with
      timers := s.timers.set (5 : Fin 8) (s.gts / hour * hour)
      mgmt := { s.mgmt with
        scores := (List.range (min n 16)).foldl (fun l _ => halveScores s.mgmt.replaced l) s.mgmt.scores } }

/-- A unit's score has reached 64, whatever it has halved to since, and has not acted yet (R352). -/
def State.suspect (s : State) (u : ScoreUnit) : Bool :=
  !s.mgmt.replaced.contains u && (s.mgmt.reached.contains u || decide (64 ≤ assocGet 0 s.mgmt.scores u))

/-- A unit has been replaced: its score has acted (R352). -/
def State.markReplaced (s : State) (u : ScoreUnit) : State :=
  { s with mgmt := { s.mgmt with replaced := s.mgmt.replaced ++ [u] } }

/-- A UCIe lane is repaired onto one of the four redundant lanes of its module, if one is left; lanes are numbered 64 to a module
(R380; PRESUMED, notes/assumptions/54.md). -/
def State.repairLane (s : State) (segment lane : Nat) : State :=
  let l := s.mgmt.laneRepairs
  if (l.filter (fun x => decide (x.1 = segment) && decide (x.2 / 64 = lane / 64))).length < 4 then
    { s with mgmt := { s.mgmt with laneRepairs := l ++ [(segment, lane)] } }
  else s

/-- A pseudo-channel is moved to its stack's spare, if that is left (R352). -/
def State.moveChannel (s : State) (stack channel : Nat) : State :=
  let l := s.mgmt.movedChannels
  if l.any (fun x => decide (x.1 = stack)) then s
  else { s with mgmt := { s.mgmt with movedChannels := l ++ [(stack, channel)] } }

/-- What a score of 64 does at once, once: a pseudo-channel is moved to its stack's spare, a UCIe lane onto a redundant lane. The
other units act at their own events (R255, R281, R285, R352, R393). -/
def State.scoreActs (s : State) (u : ScoreUnit) : State :=
  if s.suspect u then
    match u with
    | .channel stack ch => (s.moveChannel stack ch).markReplaced u
    | .ucie seg lane => (if s.mgmt.laneRepairs.contains (seg, lane) then s else s.repairLane seg lane).markReplaced u
    | _ => s
  else s

/-- Adds points to a unit's score; it saturates at 65,535, and that of a replaced unit does not change (R351, R352). -/
def State.score (s : State) (u : ScoreUnit) (n : Nat) : State :=
  let t := s.halved
  if t.mgmt.replaced.contains u then t
  else
    let v := min 65535 (assocGet 0 t.mgmt.scores u + n)
    { t with mgmt := { t.mgmt with
        scores := assocSet t.mgmt.scores u v
        reached := if 64 ≤ v && !t.mgmt.reached.contains u then t.mgmt.reached ++ [u] else t.mgmt.reached } }.scoreActs u

/-- The physical lane group of a logical one (R254). -/
def Core.physGroup (k : Core) (g : Nat) : Nat := assocGet g k.laneGroups g

/-- The physical row of a logical row in a physical lane group: itself, or the spare row that has taken its place (R254). -/
def Core.physRow (k : Core) (g row : Nat) : Nat :=
  match k.spareRows.find? (fun x => decide (x.1 = g) && decide (x.2.1 = row)) with
  | some x => x.2.2
  | none => row

/-- The physical lane group of a lane of a core (R254). -/
def Core.laneGroup (k : Core) (lane : Nat) : Nat := k.physGroup (lane / 64)

/-- Points for the lane group of a lane of a core. -/
def State.scoreLane (s : State) (c : CoreId) (lane n : Nat) : State :=
  s.score (.laneGroup c ((s.getCore c).laneGroup lane)) n

/-- A logical row of a physical lane group is retired: the next spare row takes its place; with none left the core is scored
(R255). -/
def State.retireRow (s : State) (c : CoreId) (x : Nat × Nat) : State :=
  let k := s.getCore c
  let n := (k.spareRows.filter (fun y => decide (y.1 = x.1))).length
  if n < 16 then s.setCore c { k with spareRows := (x.1, x.2, 1008 + n) :: k.spareRows } else s.score (.core c) 64

/-- A physical lane group is retired: a spare group takes the logical number that it stands for; with none left the core is
scored (R255). -/
def State.retireGroup (s : State) (c : CoreId) (g : Nat) : State :=
  let k := s.getCore c
  if k.spareGroups < 2 then
    match (List.range 256).find? (fun l => k.physGroup l == g) with
    | some l => s.setCore c { k with
        laneGroups := assocSet k.laneGroups l (256 + k.spareGroups), spareGroups := k.spareGroups + 1 }
    | none => s
  else s.score (.core c) 64

/-- A lane group that is suspect is retired (R255). -/
def State.retireSuspect (s : State) (c : CoreId) (l : Nat) : State :=
  let g := (s.getCore c).physGroup l
  if s.suspect (.laneGroup c g) then (s.retireGroup c g).markReplaced (.laneGroup c g) else s

/-- A remap point of a core: rows whose parity has failed and suspect lane groups are retired (R255). -/
def State.remapCore (s : State) (c : CoreId) : State :=
  let k := s.getCore c
  let s1 := k.failedRows.eraseDups.foldl (fun s x => s.retireRow c x) (s.setCore c { k with failedRows := [] })
  (List.range 256).foldl (fun s l => s.retireSuspect c l) s1

/-- What the lanes of one vector instruction read (R249): registers read as sources in the lanes of the elements `src`, with
the effective width (R111); registers that keep the bits of the elements that the instruction does not replace, with the width
kept and the elements replaced (R113, R119); and predicate, mask or slice rows read in the lanes of the elements below `upto`, VL
if that is none. `act` lists the elements that it computes, whose groups the lanes check (R248). -/
structure LaneUse where
  regs : List (BitVec 5 × Nat) := []
  kept : List (BitVec 5 × Nat × List Nat) := []
  rows : List Nat := []
  upto : Option Nat := none
  src : List Nat := []
  act : List Nat := []

/-- The element of a thread that a lane holds, as primary or as mirror (R108). -/
def elemOfLane (h : Hart) (w : Who) (lane : Nat) : Option Nat :=
  let l := if h.ds then lane % 8192 else lane
  let base := laneBase h w
  if base ≤ l && l < base + vlmaxOf h w then some (l - base) else none

/-- The rows of a register that an instruction reads at a width (R111). -/
def rowsRead (x : EState) (r : BitVec 5) (w : Nat) : List Nat := (x.vreg r).rows.take w

/-- The marks of bad parity that an instruction meets: row, lane, element (R249, R251). -/
def badMarks (h : Hart) (w : Who) (u : LaneUse) : List (Nat × Nat × Nat) :=
  let x := h.est w
  h.damaged.filterMap (fun m =>
    match elemOfLane h w m.2 with
    | some j =>
      if (u.src.contains j && u.regs.any (fun r => (rowsRead x r.1 r.2).contains m.1)) ||
          u.kept.any (fun r => (rowsRead x r.1 r.2.1).contains m.1 && !r.2.2.contains j) ||
          (u.rows.contains m.1 && decide (j < u.upto.getD x.vl)) then some (m.1, m.2, j)
      else none
    | none => none)

/-- Rows 976-1,007, the operand buffer (R107, R249). -/
def bufferRow (row : Nat) : Bool := decide (976 ≤ row) && decide (row < 1008)

/-- The least of a list of elements. -/
def leastOf : List Nat → Option Nat
  | [] => none
  | j :: r => some (r.foldl min j)

/-- What is left of checks that fail in lanes once an instruction has met those of its own, up to `k` times each. -/
def errsLeft (errs : List (Nat × Nat)) (mine : Nat → Bool) (k : Nat) : List (Nat × Nat) :=
  errs.filterMap (fun e => if mine e.1 then (if e.2 ≤ k then none else some (e.1, e.2 - k)) else some e)

/-- A core with its lanes' pending failures replaced. -/
def Core.setErrs (k : Core) (lane stitch : List (Nat × Nat)) : Core := { k with laneErrs := lane, stitchErrs := stitch }

/-- The state after bad parity has been met: each group scored, each row to be retired (R251, R255, R256). -/
def State.parityFailed (s : State) (marks : List (Nat × Nat × Nat)) : State :=
  let s1 := marks.foldl (fun s m => s.scoreLane s.loc m.2.1 16) s
  { s1 with core := { s1.core with
      failedRows := s1.core.failedRows ++ (marks.map (fun m => (s1.core.laneGroup m.2.1, m.1))).eraseDups } }

/-- The bits of the operand buffer that fail their parity when some lanes execute again: row, lane, element (R251). -/
def Core.bufferMarks (k : Core) (elem : Nat → Option Nat) (lanes : List Nat) : List (Nat × Nat × Nat) :=
  k.bufErrs.filterMap (fun m => if lanes.contains m.2 then (elem m.2).map (fun j => (m.1, m.2, j)) else none)

/-- The lanes' own checks of one instruction of the thread in focus (R248-R253, R256). A source bit of bad parity raises
LANE_UE. With `checked`, for the classes that R248 names, an element group that fails three times raises LANE_UE, or that is executed
again from a buffer row of bad parity; one that fails less often is executed again and scored. Then, whatever the class, copies that
differ are executed again, from the buffer too, and those that differ twice raise STITCH_FAIL (R125, R253). Gives the cause and
the least element concerned, and the state with scores added and the failures used up. -/
def laneCheck (s : State) (checked : Bool) (u : LaneUse) : Option (Cause × Nat) × State :=
  let h := s.hart
  let marks := badMarks h s.who u
  match leastOf (marks.map (fun m => m.2.2)) with
  | some j => (some (.laneUe, j), s.parityFailed marks)
  | none =>
    if s.core.laneErrs.isEmpty && s.core.stitchErrs.isEmpty && s.core.bufErrs.isEmpty then (none, s)
    else
      let elem (lane : Nat) : Option Nat := (elemOfLane h s.who lane).filter (fun j => u.act.contains j)
      let mine (lane : Nat) : Bool := (elem lane).isSome
      let errs := if checked then s.core.laneErrs.filter (fun e => mine e.1) else []
      let worn (e : Nat × Nat) : Bool := decide (3 ≤ e.2)
      let buf := s.core.bufferMarks elem (errs.map (·.1))
      let again (e : Nat × Nat) : Bool := !worn e && !buf.any (fun m => m.2.1 == e.1)
      let s0 := errs.foldl (fun s e =>
        if worn e then s.scoreLane s.loc e.1 16 else if again e then s.scoreLane s.loc e.1 1 else s) s
      let s1 := { s0 with core := { s0.core with
        bufErrs := s0.core.bufErrs.filter (fun m => (elemOfLane h s.who m.2).isNone) } }
      match leastOf ((errs.filter (fun e => !again e)).filterMap (fun e => elem e.1)) with
      | some j =>
        let s2 := s1.parityFailed buf
        (some (.laneUe, j), { s2 with core := s2.core.setErrs (errsLeft s2.core.laneErrs mine 3) s2.core.stitchErrs })
      | none =>
        let diffs := if h.ds then s.core.stitchErrs.filter (fun e => mine e.1) else []
        let buf := s.core.bufferMarks elem (diffs.flatMap (fun e => [e.1 % 8192, e.1 % 8192 + 8192]))
        let s2 := diffs.foldl (fun s e =>
          let lane := e.1 % 8192
          let n := if buf.isEmpty then min e.2 2 else 1
          (s.scoreLane s.loc lane (8 * n)).scoreLane s.loc (lane + 8192) (8 * n)) s1
        let left := if h.ds then errsLeft s2.core.stitchErrs mine 2 else s2.core.stitchErrs
        let s3 := { s2 with core := s2.core.setErrs (if checked then errsLeft s2.core.laneErrs mine 3 else s2.core.laneErrs) left }
        match leastOf (buf.map (fun m => m.2.2)) with
        | some j => (some (.laneUe, j), s3.parityFailed buf)
        | none =>
          (leastOf ((diffs.filter (fun e => decide (2 ≤ e.2))).filterMap (fun e => elem e.1))).elim (none, s3)
            (fun j => (some (.stitchFail, j), s3))

/-- Goes on once the lanes' checks of the thread in focus have passed; else traps with the element (R251, R253). -/
def lanesThen (s : State) (checked : Bool) (u : LaneUse) (k : State → Res) : Res :=
  match laneCheck s checked u with
  | (some (c, j), s') => .trap s' c (word j)
  | (none, s') => k s'

end Sys2Proof.Machine
end

