-- ==== Sys2Proof/Machine/Spool.lean ====
section
/-! DEFINITION. Sys2Proof/Machine/Spool.lean: spools and their streams (R232-R238). The spool instructions stand in
Eng.lean. -/

namespace Sys2Proof.Machine

/-! ## Descriptor fields (R233) -/

def Spool.kind (p : Spool) : Nat := field (dw p.desc 0) 0 2
def Spool.aen (p : Spool) : Bool := bit (dw p.desc 0) 2
def Spool.aliasReg (p : Spool) : Nat := field (dw p.desc 0) 3 5
def Spool.trans (p : Spool) : Bool := bit (dw p.desc 0) 8
def Spool.width (p : Spool) : Nat := field (dw p.desc 0) 9 5 + 1
def Spool.sign (p : Spool) : Bool := bit (dw p.desc 0) 14
def Spool.rcls (p : Spool) : BitVec 2 := BitVec.ofNat 2 (field (dw p.desc 0) 15 2)
def Spool.ndim (p : Spool) : Nat := field (dw p.desc 0) 17 2
def Spool.ispool (p : Spool) : Nat := field (dw p.desc 0) 19 4
def Spool.phys (p : Spool) : Bool := bit (dw p.desc 0) 58

/-- The kind writes. -/
def Spool.isWrite (p : Spool) : Bool := p.kind % 2 == 1

/-- The kind is indirect. -/
def Spool.isIndirect (p : Spool) : Bool := decide (2 ≤ p.kind)

/-- The count of dimension `k`; 1 for an unused dimension of an affine kind (R233). -/
def Spool.cnt (p : Spool) (k : Nat) : Nat := field (dw p.desc (2 + k)) 0 32

/-- The signed byte stride of dimension `k`. -/
def Spool.stride (p : Spool) (k : Nat) : Int := sextNat 32 (field (dw p.desc (2 + k)) 32 32)

/-- The base address: a virtual field extended by bit 56, a physical one by zeros (R235). -/
def Spool.base (p : Spool) : Word :=
  let b := dw p.desc 1 &&& 0x01FF_FFFF_FFFF_FFFF#64
  if p.phys then b else sext57 b

/-- The elements of the stream, or none when it does not end (R234). -/
def Spool.total (p : Spool) : Option Nat :=
  if p.isIndirect then (if p.cnt 1 = 0 then none else some (p.cnt 0 * p.cnt 1))
  else some ((List.range (p.ndim + 1)).foldl (fun acc k => acc * p.cnt k) 1)

/-- The byte offset of element `n` of an affine stream from BASE (R234). -/
def affineOffset (p : Spool) (n : Nat) : Int :=
  ((List.range (p.ndim + 1)).foldl
    (fun (acc : Nat × Int) k => (acc.1 / p.cnt k, acc.2 + (acc.1 % p.cnt k : Nat) * p.stride k)) (n, 0)).2

/-! ## Accesses of spools and engines -/

/-- Resolves an address that an engine or spool of a core uses: physical when the descriptor says so (R215, R233,
R241). -/
def resolveEng (s : State) (c : CoreId) (phys user : Bool) (acc : Access) (a : Word) (align : Nat) : Resolved :=
  if phys then
    if a.toNat % align ≠ 0 then .fail .misalign s
    else if physOk s a.toNat then (Resolved.ok (.phys a.toNat) s).behind none align else .fail .perm s
  else resolve s c user acc a align

/-- The fault code of a failed element access (R238: XLATE, PERM, MISALIGN, SPAD_RANGE are 1-4). -/
def faultCode : Cause → BitVec 4
  | .xlate => 1
  | .perm => 2
  | .misalign => 3
  | .spadRange => 4
  | _ => 0

/-- The caches after an access of the vector side or an engine to a place, of a reuse class (R217, R293). -/
def State.touchClass (s : State) (cls : BitVec 2) : Place → State
  | .spad _ _ => s
  | .phys pa => s.touchDirect pa (cls != 0)

/-- The caches after an access of the vector side or an engine to a place. -/
def State.touchVec (s : State) (p : Place) : State := s.touchClass 1 p

/-- A line pinned with a class in a die's HOT banks, in place of a pinned line if one is given up; it leaves its CACHE bank
(R293). -/
def Die.pin (d : Die) (line : Nat) (cls : BitVec 2) (out : Option (Nat × BitVec 2)) : Die :=
  let pins := match out with | some v => d.pins.erase v | none => d.pins
  { d with pins := pins ++ [(line, cls)], l2 := d.l2.filter (fun x => decide (x.1 ≠ line)) }

/-- The pins of a die after an access of class 2 or 3 to a line that is not pinned: the least recently used line of class 2
gives way, for class 3 otherwise that of class 3 (R293). -/
def Die.tryPin (d : Die) (line : Nat) (cls : BitVec 2) : Die :=
  let n := (d.banksOf 3).length
  if d.pins.any (fun p => decide (p.1 = line)) || n = 0 then d
  else if d.pins.length < bankLines * n then d.pin line cls none
  else
    match (d.pins.find? (fun p => p.2 == 2)).or (if cls = 3 then d.pins.find? (fun p => p.2 == 3) else none) with
    | some v => d.pin line cls (some v)
    | none => d

/-- A gather, a scatter or an access of an indirect spool with a reuse class counts toward the hot rows of its line's home
die (R293). -/
def State.hotTouch (s : State) (cls : BitVec 2) : Place → State
  | .spad _ _ => s
  | .phys pa =>
    let line := pa / 64
    if isHost pa || isScratch pa then s
    else if cls = 2 then
      s.setDie (homeDie pa) (fun x =>
        let i := Config.hotHash line % 16384
        let n := min 255 (assocGet 0 x.hot i + 1)
        let y := { x with hot := assocSet x.hot i n, hotCount := x.hotCount + 1 }
        if 32 ≤ n then y.tryPin line 2 else y)
    else if cls = 3 then s.setDie (homeDie pa) (fun x => x.tryPin line 3)
    else s

/-- An element that was read, the state after the read, or a wait for a migration. -/
inductive ElemRead
  | ok (e : SpEl) (s : State)
  | stall

/-- Reads a field of `eb` bytes, of which `width` bits are the element, in a reuse class (R293). -/
def readField (s : State) (c : CoreId) (phys user : Bool) (cls : BitVec 2) (a : Word) (eb width : Nat) : ElemRead :=
  match resolveEng s c phys user .read a eb with
  | .fail e s' => .ok (.fault (faultCode e) a) s'
  | .stall _ => .stall
  | .ok p s' =>
    if s'.lostAt c p eb then .ok (.poison a) (s'.moveMet c p eb)
    else .ok (.data (ofBytes (s'.loadAt p eb) % 2 ^ width)) ((s'.touchClass cls p).hotTouch cls p)

/-- Reads bit `i` of the words of a bit-plane group, from word `b` on (R234). -/
def readPlanesBit (s : State) (c : CoreId) (phys user : Bool) (a : Word) (i : Nat) : Nat → ElemRead
  | 0 => .ok (.data 0) s
  | n + 1 =>
    match readField s c phys user 1 a 8 64 with
    | .ok (.data v) s' =>
      match readPlanesBit s' c phys user (a + 8) i n with
      | .ok (.data r) s'' => .ok (.data ((if v.testBit i then 1 else 0) + 2 * r)) s''
      | o => o
    | o => o

/-- The address of element `n` of an affine stream; under TRANS that of its group's first word (R234). -/
def affineAddr (p : Spool) (n : Nat) : Word :=
  if p.trans then p.base + BitVec.ofInt 64 ((n / 64 : Nat) * p.stride 0)
  else p.base + BitVec.ofInt 64 (affineOffset p n)

/-- Reads element `n` of an affine stream, or marks it faulted past the end (R234, R238). -/
def readAffine (s : State) (c : CoreId) (p : Spool) (n : Nat) : ElemRead :=
  if (match p.total with | some t => decide (t ≤ n) | none => false) then .ok (.fault 6 (affineAddr p n)) s
  else if p.trans then readPlanesBit s c p.phys (!p.super) (affineAddr p n) (n % 64) p.width
  else readField s c p.phys (!p.super) 1 (affineAddr p n) (ebOf p.width) p.width

/-- A hart with a spool replaced. -/
def Hart.setSpool (h : Hart) (n : Nat) (p : Spool) : Hart :=
  if hn : n < 16 then { h with spools := h.spools.set n p } else h

/-- A spool of a hart. -/
def Hart.spool (h : Hart) (n : Nat) : Spool := h.spools.toList.getD n {}

/-- A core's hart with a spool replaced. -/
def State.setSpool (s : State) (c : CoreId) (n : Nat) (p : Spool) : State :=
  let k := s.getCore c
  s.setCore c { k with hart := k.hart.setSpool n p }

/-- Where element `n` of an indirect stream lies: its index is popped from the index spool (R234). An index at or above
LIMIT, or an index that faults, makes the element a fault. -/
inductive AddrRead
  | ok (a : Word) (s : State)
  | bad (e : SpEl) (s : State)
  | stall

/-- The address of element `n` of any stream (R234). -/
def elemAddr (s : State) (c : CoreId) (p : Spool) (n : Nat) : AddrRead :=
  if !p.isIndirect then .ok (affineAddr p n) s
  else if (match p.total with | some t => decide (t ≤ n) | none => false) then .bad (.fault 6 p.base) s
  else
    let q := (s.getCore c).hart.spool p.ispool
    let i := p.ibase + n / p.cnt 0
    match readAffine s c q i with
    | .stall => .stall
    | .ok (.data x) s' =>
      let a := p.base + BitVec.ofInt 64 ((x : Int) * p.stride 1 + (n % p.cnt 0 : Nat) * p.stride 0)
      let s'' := s'.setSpool c p.ispool { q with pos := max q.pos (i + 1) }
      if field (dw p.desc 6) 0 32 ≤ x then .bad (.fault 5 a) s'' else .ok a s''
    | .ok e s' => .bad e s'

/-- Reads element `n` of a read stream (R234, R238). -/
def readElem (s : State) (c : CoreId) (p : Spool) (n : Nat) : ElemRead :=
  if !p.isIndirect then readAffine s c p n
  else
    match elemAddr s c p n with
    | .stall => .stall
    | .bad e s' => .ok e s'
    | .ok a s' => readField s' c p.phys (!p.super) p.rcls a (ebOf p.width) p.width

/-- Fetches up to `cnt` further elements of a read spool into its buffer (R236). -/
def fetchSpool (s : State) (c : CoreId) (n : Nat) : Nat → State
  | 0 => s
  | cnt + 1 =>
    let p := (s.getCore c).hart.spool n
    match readElem s c p (p.pos + p.buf.length) with
    | .stall => s
    | .ok e s' =>
      let p' := (s'.getCore c).hart.spool n
      fetchSpool (s'.setSpool c n { p' with buf := p'.buf ++ [e] }) c n cnt

/-! ## Aliases in vector instructions (R237) -/

/-- The spool that a v register field names for E, if an alias is in effect: none while E is split (R237). -/
def aliasOf (h : Hart) (w : Who) (r : BitVec 5) : Option Nat :=
  if w ≠ .e then none
  else (List.range 16).find? (fun n =>
    let p := h.spool n
    p.bound && p.aen && decide (p.aliasReg = r.toNat))

/-- A vector source as the instruction reads it: planes of its stored width, the SIGN that extends them when they come
from a spool, the spool, the first element that it has, and the elements that are marked faulted. -/
structure VSrc where
  planes : List Plane := []
  first : Nat := 0
  sign : Option Bool := none
  spool : Option Nat := none
  faults : List (Nat × SpEl) := []
  deriving DecidableEq, Repr

/-- Why a vector instruction cannot begin yet, or its sources. -/
inductive SrcRead
  | ok (v : VSrc)
  /-- A wrong kind: SPOOL_FAULT with code 8 (R237). -/
  | wrong (n : Nat)
  /-- The strip is not yet present (R237). -/
  | wait

/-- The planes that a strip of elements is (what a faulted element holds is open: notes/assumptions/17.md), at the lanes of elements `first` onward. -/
def stripPlanes (base width first : Nat) (es : List SpEl) : List Plane :=
  let vs := es.mapIdx (fun j e => (first + j, match e with
    | .data v => v
    | .fault _ a => Config.faultedData a
    | .poison a => Config.faultedData a))
  (List.range width).map (fun b => laneSet base ((vs.filter (fun e => e.2.testBit b)).map (·.1)))

/-- Reads a v register field as a source; `start` is the VSTART of an instruction that resumes, 0 in others: the stream
then stands at that element of the strip, after the elements that the instruction passed (R111, R175, R237, R238). -/
def readSrc (s : State) (start : Nat) (r : BitVec 5) : SrcRead :=
  match aliasOf s.hart s.who r with
  | none => .ok { planes := (s.est.vreg r).planes }
  | some n =>
    let p := s.hart.spool n
    if p.isWrite then .wrong n
    else if p.buf.length < s.est.vl - start then .wait
    else
      let es := p.buf.take (s.est.vl - start)
      let old := if p.past.length = start then p.past else []
      .ok
        { planes := stripPlanes (laneBase s.hart s.who) p.width (start - old.length) (old ++ es)
          first := start - old.length
          sign := some p.sign
          spool := some n
          faults := (es.mapIdx (fun j e => (start + j, e))).filter
            (fun x => match x.2 with | .data _ => false | _ => true) }

/-- A source's planes at an effective width; SIGN takes the side's place in the extension (R111, R237). -/
def VSrc.at (v : VSrc) (w : Nat) (signed : Bool) : List Plane := planesAt v.planes w (v.sign.getD signed)

/-- The read spools that sources named, each once. -/
def srcSpools (vs : List VSrc) : List Nat := (vs.filterMap (·.spool)).eraseDups

/-- The lowest faulted element of the sources among some elements, with its spool (R238). -/
def firstFault (vs : List VSrc) (js : List Nat) : Option (Nat × Nat × SpEl) :=
  (vs.flatMap (fun v => v.faults.filterMap
      (fun f => if js.contains f.1 then v.spool.map (fun n => (f.1, n, f.2)) else none))).foldl
    (fun best f =>
      match best with
      | none => some f
      | some b => if f.1 < b.1 then some f else some b) none

/-- The state after an instruction consumed the strips of spools: P advances by `n` and the elements leave the buffer;
the fault code of a successful resumption clears (R237, R239). -/
def State.consume (s : State) (ns : List Nat) (n : Nat) : State :=
  ns.foldl (fun s i =>
    let p := s.hart.spool i
    s.setHart (s.hart.setSpool i
      { p with pos := p.pos + n, buf := p.buf.drop n, past := [], code := 0, faddr := 0 })) s

/-- The state after an interrupted instruction has passed `n` elements of spools from element `start` of the strip on
(R176, R238). -/
def State.passed (s : State) (ns : List Nat) (start n : Nat) : State :=
  ns.foldl (fun s i =>
    let p := s.hart.spool i
    s.setHart (s.hart.setSpool i
      { p with
        pos := p.pos + n, buf := p.buf.drop n, past := (if start = 0 then [] else p.past) ++ p.buf.take n })) s

/-- SPOOL_FAULT's value: spool number and VSTART (R97). -/
def spoolVal (n vstart : Nat) : Word := word (n % 16 + vstart * 16)

/-- Reports a faulted or poisoned element at consumption: SPOOL_FAULT with the fault code recorded, or DATA_POISON; the
spool's elements from there on are discarded, to be fetched again (R238). `vstart` is 0 for an instruction that does
not record it. -/
def spoolTrap (s : State) (n vstart : Nat) (e : SpEl) : Res :=
  let p := s.hart.spool n
  match e with
  | .fault code addr =>
    .trap (s.setHart (s.hart.setSpool n { p with buf := [], held := true, code := code, faddr := addr })) .spoolFault (spoolVal n vstart)
  | .poison addr => .trap (s.setHart (s.hart.setSpool n { p with buf := [], held := true })) .dataPoison addr
  | .data _ => .stall s

/-- A reference of the wrong kind: SPOOL_FAULT with code 8; the instruction is not begun (R237). -/
def wrongKind (s : State) (n : Nat) : Res :=
  let p := s.hart.spool n
  .trap (s.setHart (s.hart.setSpool n { p with code := 8 })) .spoolFault (spoolVal n 0)

/-- An instruction waits for a spool's strip: the spool fetches again if a fault had stopped it (R238). -/
def State.resumeFetch (s : State) (r : BitVec 5) : State :=
  match aliasOf s.hart s.who r with
  | some n => s.setHart (s.hart.setSpool n { s.hart.spool n with held := false })
  | none => s

/-- Reads one register field as a source, or answers why not. -/
def withSrc (s : State) (start : Nat) (r : Option (BitVec 5)) (k : VSrc → Res) : Res :=
  match r with
  | none => k {}
  | some r =>
    match readSrc s start r with
    | .wrong n => wrongKind s n
    | .wait => .stall (s.resumeFetch r)
    | .ok v => k v

/-! ## Write spools (R237, R238) -/

/-- The places of position `n` of a write stream: its field, or under TRANS the words of its group; the failure of its
access. -/
inductive SlotRead
  | ok (ps : List Place) (s : State)
  | bad (e : SpEl) (s : State)
  | stall

/-- Resolves writes of `size` bytes at addresses in order. -/
def slotPlaces (c : CoreId) (p : Spool) (size : Nat) : List Word → List Place → State → SlotRead
  | [], ps, s => .ok ps s
  | a :: r, ps, s =>
    match resolveEng s c p.phys (!p.super) .write a size with
    | .ok q s' => slotPlaces c p size r (ps ++ [q]) s'
    | .fail e s' => .bad (.fault (faultCode e) a) s'
    | .stall _ => .stall

/-- Translates position `n` of a write spool; a position whose index is faulted or poisoned fails as the index does (R238,
R350). -/
def writeSlot (s : State) (c : CoreId) (p : Spool) (n : Nat) : SlotRead :=
  if (match p.total with | some t => decide (t ≤ n) | none => false) then .bad (.fault 6 (affineAddr p n)) s
  else
    match elemAddr s c p n with
    | .stall => .stall
    | .bad e s' => .bad e s'
    | .ok a s' =>
      if p.trans then slotPlaces c p 8 ((List.range p.width).map (fun b => a + word (8 * b))) [] s'
      else slotPlaces c p (ebOf p.width) [a] [] s'

/-- The bytes that a WIDTH-bit element is in memory, extended by SIGN (R237). -/
def elemBytes (width : Nat) (signed : Bool) (v : Nat) : List Byte :=
  bytesOf (ebOf width) (truncTo (8 * ebOf width) (intVal width signed v))

/-- Stores one element of a write spool at its places; under TRANS its bits enter the words of its group (R234), and an
indirect kind carries the descriptor's class (R293). -/
def storeElem (s : State) (c : CoreId) (p : Spool) (n : Nat) (qs : List Place) (v : Nat) : State :=
  if p.trans then
    (qs.mapIdx (fun b q => (b, q))).foldl (fun s x =>
      let old := ofBytes (s.loadAt x.2 8)
      let i := n % 64
      let new := if v.testBit x.1 then old ||| (1 <<< i) else old &&& ((2 ^ 64 - 1) ^^^ (1 <<< i))
      (s.storeAt none x.2 (bytesOf 8 new)).movedTo c x.2 8) s
  else
    let cls : BitVec 2 := if p.isIndirect then p.rcls else 1
    qs.foldl (fun s q =>
      (((s.touchClass cls q).hotTouch cls q).storeAt none q (elemBytes p.width p.sign v)).movedTo c q (ebOf p.width)) s

/-- The check of a write spool's positions: passed, or the first position whose write fails, or waits for a migration
(R238, R298). -/
inductive WriteCheck
  | ok (s : State)
  | bad (j : Nat) (e : SpEl) (s : State)
  | stall (j : Nat) (s : State)

/-- Translates the positions of some elements before the last trap point; the stream stands at element `start` of the
strip (R238). -/
def checkWrites (s : State) (c : CoreId) (n start : Nat) : List Nat → WriteCheck
  | [] => .ok s
  | j :: js =>
    let p := (s.getCore c).hart.spool n
    match writeSlot s c p (p.pos + j - start) with
    | .ok _ s' => checkWrites s' c n start js
    | .bad e s' => .bad j e s'
    | .stall => .stall j s

/-- Stores the listed elements (element, value at WIDTH) of a write spool (R237). -/
def appendRun (s : State) (c : CoreId) (n start : Nat) : List (Nat × Nat) → State
  | [] => s
  | (j, v) :: r =>
    let p := (s.getCore c).hart.spool n
    match writeSlot s c p (p.pos + j - start) with
    | .ok qs s' => appendRun (storeElem s' c p (p.pos + j - start) qs v) c n start r
    | _ => appendRun s c n start r

/-- The bytes of memory (address, length) that the listed elements of a write spool cover; under TRANS those of groups of
which every element is listed (R234). -/
def appendSpans (s : State) (c : CoreId) (n start : Nat) (js : List Nat) : List (Nat × Nat) :=
  let p := (s.getCore c).hart.spool n
  let ns := js.map (fun j => p.pos + j - start)
  (ns.filter (fun x => !p.trans || (List.range 64).all (fun i => ns.contains (x / 64 * 64 + i)))).flatMap (fun x =>
    match writeSlot s c p x with
    | .ok qs _ => qs.filterMap (fun q =>
        match q with
        | .phys pa => some (pa, if p.trans then 8 else ebOf p.width)
        | .spad _ _ => none)
    | _ => [])

/-- Appends the listed elements (element, value at WIDTH) to a write spool, in 16-byte parts (R237, R309, R350). -/
def appendWrites (s : State) (c : CoreId) (n start : Nat) (es : List (Nat × Nat)) : State :=
  appendRun (if s.poison.isEmpty then s else s.clearWhole (appendSpans s c n start (es.map (·.1)))) c n start es

end Sys2Proof.Machine
end

