-- ==== Sys2Proof/Machine/Engine.lean ====
section
/-! DEFINITION. Sys2Proof/Machine/Engine.lean: the reading of descriptors and records by instructions (R65, R350). -/

namespace Sys2Proof.Machine

/-- Reads the words of a descriptor or record of `size` bytes at an address, aligned to its size, for an instruction
(R65, R350). -/
def readDesc (s : State) (ea : Word) (size : Nat) (k : State → List Word → Res) : Res :=
  if s.held false then .stall s
  else
    match resolveThr s .read ea size with
    | .fail c s' => .trap s' c ea
    | .stall s' => .stall s'
    | .ok p s' =>
      if s'.poisonedAt p size then .trap s' .dataPoison ea
      else
        let bs := s'.loadAt p size
        k s' ((List.range (size / 8)).map (fun i => word (ofBytes ((bs.drop (8 * i)).take 8))))

/-- The QOS and PHYS fields of a descriptor's word 0 are nonzero (R233, R241, R260, R397). -/
def privFields (d : List Word) : Bool := field (dw d 0) 56 3 != 0

end Sys2Proof.Machine
end

