-- ==== Sys2Proof/Machine/LoadStore.lean ====
section
/-! DEFINITION. Sys2Proof/Machine/LoadStore.lean: scalar loads and stores (R65-R67). -/

namespace Sys2Proof.Machine

/-- The address of a base register and a signed 12-bit offset (R40, R65). -/
def eaOf (t : Thread) (a : BitVec 5) (o : BitVec 12) : Word := t.reg a + o.signExtend 64

/-- A place is satisfied without a fill: the hart's own scratchpad, or a line in the core's L1 (R17, R216). -/
def State.near (s : State) : Place → Bool
  | .spad c _ => decide (c = s.loc)
  | .phys pa => s.core.hits pa

/-- The caches after a scalar access to a place. -/
def State.touchPlace (s : State) (write : Bool) : Place → State
  | .spad _ _ => s
  | .phys pa => s.touch s.loc pa write

/-- Delivers loaded words to registers: at once when near, else by a fill, which waits while 16 are outstanding (R17, R18,
R66). `s` is the state of a wait, `s'` that after the access. -/
def deliverLoad (s s' : State) (near : Bool) (dests : List (BitVec 5)) (ws : List Word) : Res :=
  if near then .adv (s'.setThr (s'.thr.writeAll dests ws))
  else if s.thr.fillRoom then .adv (s'.startFill dests (.value ws))
  else .stall s

/-- A scalar load of `size` bytes from an address: the checks of R65, poison (R350), then the words that `conv` makes of
the bytes (R66). The two 8-byte parts of a quad in host memory are performed in one step: R309 orders them in no way
(DESIGN CHOICE, notes/assumptions/22.md). -/
def loadFrom (s : State) (ea : Word) (size : Nat) (dests : List (BitVec 5)) (conv : List Byte → List Word) : Res :=
  if s.held false || s.thr.pendingReg dests then .stall s
  else
    match resolveThr s .read ea size with
    | .fail c s' => .trap s' c ea
    | .stall s' => .stall s'
    | .ok p s' =>
      if s'.poisonedAt p size then .trap s' .dataPoison ea
      else deliverLoad s (s'.touchPlace false p) (s'.near p) dests (conv (s'.loadAt p size))

/-- A scalar store of bytes to an address: the checks of R65, then the bytes (R67); the two parts of a quad in host memory
are performed in one step (DESIGN CHOICE, notes/assumptions/22.md). -/
def storeTo (s : State) (ea : Word) (bs : List Byte) : Res :=
  if s.held false then .stall s
  else
    match resolveThr s .write ea bs.length with
    | .fail c s' => .trap s' c ea
    | .stall s' => .stall s'
    | .ok p s' => .adv ((s'.touchPlace true p).storeAt (some s.loc) p bs)

/-- A LOAD instruction (R66). -/
def load (w : BitVec 32) (dests : List (BitVec 5)) (a : BitVec 5) (f : BitVec 1) (o : BitVec 12) (size : Nat)
    (conv : List Byte → List Word) (s : State) : Out :=
  issue w [(a, f)] s (fun s => loadFrom s (eaOf s.thr a o) size dests conv)

/-- A STORE instruction of the low `size` bytes of its sources (R67). -/
def store (w : BitVec 32) (srcs : List (BitVec 5)) (a : BitVec 5) (f : BitVec 1) (o : BitVec 12) (size : Nat)
    (s : State) : Out :=
  issue w ((a, f) :: srcs.map (fun r => (r, f))) s (fun s =>
    storeTo s (eaOf s.thr a o) (srcs.flatMap (fun r => bytesOf size (s.thr.reg r).toNat)))

/-- A loaded field, zero-extended. -/
def zextOf (bs : List Byte) : List Word := [word (ofBytes bs)]

/-- A loaded field, sign-extended. -/
def sextOf (bs : List Byte) : List Word := [sext (8 * bs.length) (word (ofBytes bs))]

/-- The two words of a loaded quad. -/
def pairOf (bs : List Byte) : List Word := [word (ofBytes (bs.take 8)), word (ofBytes (bs.drop 8))]

/-- The size of a LOAD by its function, and the words that it makes of the bytes (R66). -/
def loadForm (fn : BitVec 3) : Nat × (List Byte → List Word) :=
  match fn.toNat with
  | 0 => (1, sextOf)
  | 1 => (1, zextOf)
  | 2 => (2, sextOf)
  | 3 => (2, zextOf)
  | 4 => (4, sextOf)
  | 5 => (4, zextOf)
  | 6 => (8, zextOf)
  | _ => (16, pairOf)

/-- LDB: Loads a byte, sign-extended, into gd. (R66) -/
def execLdb (d a : BitVec 5) (f : BitVec 1) (o : BitVec 12) (s : State) : Out :=
  load (wM 10 d a f 0 o) [d] a f o 1 sextOf s

/-- LDBZ: Loads a byte, zero-extended, into gd. (R66) -/
def execLdbz (d a : BitVec 5) (f : BitVec 1) (o : BitVec 12) (s : State) : Out :=
  load (wM 10 d a f 1 o) [d] a f o 1 zextOf s

/-- LDH: Loads a half, sign-extended, into gd. (R66) -/
def execLdh (d a : BitVec 5) (f : BitVec 1) (o : BitVec 12) (s : State) : Out :=
  load (wM 10 d a f 2 o) [d] a f o 2 sextOf s

/-- LDHZ: Loads a half, zero-extended, into gd. (R66) -/
def execLdhz (d a : BitVec 5) (f : BitVec 1) (o : BitVec 12) (s : State) : Out :=
  load (wM 10 d a f 3 o) [d] a f o 2 zextOf s

/-- LDW: Loads a 32-bit value, sign-extended, into gd. (R66) -/
def execLdw (d a : BitVec 5) (f : BitVec 1) (o : BitVec 12) (s : State) : Out :=
  load (wM 10 d a f 4 o) [d] a f o 4 sextOf s

/-- LDWZ: Loads a 32-bit value, zero-extended, into gd. (R66) -/
def execLdwz (d a : BitVec 5) (f : BitVec 1) (o : BitVec 12) (s : State) : Out :=
  load (wM 10 d a f 5 o) [d] a f o 4 zextOf s

/-- LDD: Loads an 8-byte word into gd. (R66) -/
def execLdd (d a : BitVec 5) (f : BitVec 1) (o : BitVec 12) (s : State) : Out :=
  load (wM 10 d a f 6 o) [d] a f o 8 zextOf s

/-- LDQ: Loads 16 bytes into the even register pair gd, gd+1. (R66) -/
def execLdq (d : BitVec 4) (a : BitVec 5) (f : BitVec 1) (o : BitVec 12) (s : State) : Out :=
  load (wM 10 (d ++ 0#1) a f 7 o) [d ++ 0#1, d ++ 1#1] a f o 16 pairOf s

/-- STB: Stores the low byte of gs. (R67) -/
def execStb (sf a : BitVec 5) (f : BitVec 1) (o : BitVec 12) (s : State) : Out :=
  store (wM 11 sf a f 0 o) [sf] a f o 1 s

/-- STH: Stores the low 2 bytes of gs. (R67) -/
def execSth (sf a : BitVec 5) (f : BitVec 1) (o : BitVec 12) (s : State) : Out :=
  store (wM 11 sf a f 1 o) [sf] a f o 2 s

/-- STW: Stores the low 4 bytes of gs. (R67) -/
def execStw (sf a : BitVec 5) (f : BitVec 1) (o : BitVec 12) (s : State) : Out :=
  store (wM 11 sf a f 2 o) [sf] a f o 4 s

/-- STD: Stores the 8 bytes of gs. (R67) -/
def execStd (sf a : BitVec 5) (f : BitVec 1) (o : BitVec 12) (s : State) : Out :=
  store (wM 11 sf a f 3 o) [sf] a f o 8 s

/-- STQ: Stores the even register pair gs, gs+1 as 16 bytes. (R67) -/
def execStq (sf : BitVec 4) (a : BitVec 5) (f : BitVec 1) (o : BitVec 12) (s : State) : Out :=
  store (wM 11 (sf ++ 0#1) a f 4 o) [sf ++ 0#1, sf ++ 1#1] a f o 8 s

end Sys2Proof.Machine
end

