-- ==== Sys2Proof/Machine/Atomic.lean ====
section
/-! DEFINITION. Sys2Proof/Machine/Atomic.lean: atomics, reductions and the load and store that acquire and release (R299-R304). -/

namespace Sys2Proof.Machine

/-- The value that an operation writes (R302). -/
def atomNew (op : Nat) (old b : Word) : Word :=
  match op with
  | 0 => old + b
  | 1 => b
  | 3 => if old.toInt ≤ b.toInt then old else b
  | 4 => if old.toInt ≤ b.toInt then b else old
  | 5 => if old.toNat ≤ b.toNat then old else b
  | 6 => if old.toNat ≤ b.toNat then b else old
  | 7 => old &&& b
  | 8 => old ||| b
  | 9 => old ^^^ b
  | 10 => old + b
  | 11 => if old.toInt ≤ b.toInt then old else b
  | 12 => if old.toInt ≤ b.toInt then b else old
  | _ => b

/-- The index of a line's contention counter on its home die (R299). -/
def contentionKey (pa : Nat) : Nat := homeBank pa * 4096 + ((pa / 64 % 4096) ^^^ (pa / 2 ^ 18 % 4096))

/-- Another core's L1 holds the line. -/
def State.otherHolds (s : State) (line : Nat) : Bool := s.others.any (fun p => (p.2.lineState line).isSome)

/-- The core in focus holds the line exclusive or modified (R299). -/
def Core.ownsAlone (k : Core) (line : Nat) : Bool :=
  k.lineState line == some .exclusive || k.lineState line == some .modified

/-- The contention counter and the caches after an atomic of the core in focus on a translated address: one that hits its
exclusive or modified line stays there; else the counter rises when another L1 holds the line or another core's atomic
is queued at the home, which is open, and falls when not; a quiet line comes to the core's L1, a contended one leaves every
L1 (R299-R301); one of host memory is performed in the adapter's cache, with the line held exclusive (R396). -/
def State.contend (s : State) (pa : Nat) : State :=
  let line := pa / 64
  if isHost pa then (s.holdHost line true).recall none [line]
  else if isScratch pa then s
  else if s.core.ownsAlone line then s.touch s.loc pa true
  else
    let d := homeDie pa
    let key := contentionKey pa
    let n := assocGet 0 (s.die d).contention key
    let met := s.otherHolds line || decide (Config.choose s.free % 2 = 1)
    let n' := if met then min 3 (n + 1) else n - 1
    let s1 := { s.setDie d (fun x => { x with contention := assocSet x.contention key n' }) with free := s.free + 1 }
    if n ≤ 1 then s1.touch s1.loc pa true else (s1.touchL2 line true).recall none [line]

/-- The caches after an atomic at a place (R216, R299). -/
def State.contendAt (s : State) : Place → State
  | .spad _ _ => s
  | .phys pa => s.contend pa

/-- Performs an atomic at a place: the old value, and the state with the new one stored (R302). `cas` is the value
that ATCAS expects. -/
def atomAt (s : State) (p : Place) (op : Nat) (b : Word) (cas : Option Word) : Word × State :=
  let s1 := s.contendAt p
  let old := word (ofBytes (s1.loadAt p 8))
  if (match cas with | some c => c != old | none => false) then (old, s1)
  else (old, s1.storeAt (some s1.loc) p (bytesOf 8 (atomNew op old b).toNat))

/-- The posted reductions whose walks a die serves or queues (R297, R304). -/
def State.walksOn (s : State) (die : Nat) : Nat :=
  ((s.cores.filter (fun p => decide (p.1.die = die))).map (fun p =>
    (p.2.hart.a :: p.2.hart.e :: p.2.hart.mts.toList.map (·.thr)).foldl (fun n t => n + t.posted.length) 0)).foldl (· + ·) 0

/-- The walks that a die holds: 96 walkers and a queue of 512 requests (R297). -/
def walkLimit : Nat := 608

/-- The release half of an ordering: bit 1 of ord2 (R44). -/
def releases (ord : BitVec 2) : Bool := ord.getLsbD 1

/-- An AT form: performed when its earlier accesses allow, its destination filled with the old value (R302). -/
def atomRet (w : BitVec 32) (srcs : List (BitVec 5 × BitVec 1)) (d a b : BitVec 5) (ord : BitVec 2) (op : Nat)
    (cas : Bool) (s : State) : Out :=
  issue w srcs s (fun s =>
    let ea := s.thr.reg a
    if s.held (releases ord) || s.thr.pendingReg [d] || !s.thr.fillRoom then .stall s
    else
      match resolveThr s .rmw ea 8 with
      | .fail c s' => .trap s' c ea
      | .stall s' => .stall s'
      | .ok p s' =>
        if s'.poisonedAt p 8 then .trap s' .dataPoison ea
        else
          let r := atomAt s' p op (s'.thr.reg b) (if cas then some (s'.thr.reg d) else none)
          .adv (r.2.startFill [d] (.value [r.1])))

/-- A RED form: performed, or posted when its address is not in the core's translation cache (R302, R304). -/
def atomRed (w : BitVec 32) (a b : BitVec 5) (f g o : BitVec 1) (op : Nat) (s : State) : Out :=
  issue w [(a, f), (b, g)] s (fun s =>
    let ea := s.thr.reg a
    if s.held (o == 1) then .stall s
    else if !canonical ea then .trap s .xlate ea
    else if ea.toNat % 8 ≠ 0 then .trap s .misalign ea
    else if ea.toNat < windowBase && (tlbFind s.core.tlb s.hart.ctx (ea.toNat % 2 ^ 57)).isNone then
      if 8 ≤ s.thr.posted.length || walkLimit ≤ s.walksOn s.loc.die then .stall s
      else
        let p : Posted :=
          { id := s.hart.fillSeq, op4 := BitVec.ofNat 4 op, va := ea, operand := s.thr.reg b, user := !s.thr.super }
        let h : Hart := { s.hart with fillSeq := s.hart.fillSeq + 1 }
        .adv (s.setHart (h.setThr { s.thr with posted := s.thr.posted ++ [p] } s.who))
    else
      match resolveThr s .rmw ea 8 with
      | .fail c s' => .trap s' c ea
      | .stall s' => .stall s'
      | .ok p s' =>
        if s'.poisonedAt p 8 then .trap s' .dataPoison ea
        else .adv (atomAt s' p op (s'.thr.reg b) none).2)

/-- ATADD: Atomically adds gb to a word and returns the old value. (R302) -/
def execAtadd (d a b : BitVec 5) (f g : BitVec 1) (o : BitVec 2) (sf : BitVec 3) (s : State) : Out :=
  atomRet (wA 19 d a b f g (0#4 ++ o ++ sf)) [(a, f), (b, g)] d a b o 0 false s

/-- ATSWP: Atomically swaps gb into a word and returns the old value. (R302) -/
def execAtswp (d a b : BitVec 5) (f g : BitVec 1) (o : BitVec 2) (sf : BitVec 3) (s : State) : Out :=
  atomRet (wA 19 d a b f g (1#4 ++ o ++ sf)) [(a, f), (b, g)] d a b o 1 false s

/-- ATCAS: Atomically writes gb when the word equals gd and returns the old value. (R302) -/
def execAtcas (d a b : BitVec 5) (f g : BitVec 1) (o : BitVec 2) (sf : BitVec 3) (s : State) : Out :=
  atomRet (wA 19 d a b f g (2#4 ++ o ++ sf)) [(a, f), (b, g), (d, 0)] d a b o 2 true s

/-- ATMIN: Atomically stores the signed lesser of the word and gb and returns the old value. (R302) -/
def execAtmin (d a b : BitVec 5) (f g : BitVec 1) (o : BitVec 2) (sf : BitVec 3) (s : State) : Out :=
  atomRet (wA 19 d a b f g (3#4 ++ o ++ sf)) [(a, f), (b, g)] d a b o 3 false s

/-- ATMAX: Atomically stores the signed greater of the word and gb and returns the old value. (R302) -/
def execAtmax (d a b : BitVec 5) (f g : BitVec 1) (o : BitVec 2) (sf : BitVec 3) (s : State) : Out :=
  atomRet (wA 19 d a b f g (4#4 ++ o ++ sf)) [(a, f), (b, g)] d a b o 4 false s

/-- ATMINN: Atomically stores the unsigned lesser of the word and gb and returns the old value. (R302) -/
def execAtminn (d a b : BitVec 5) (f g : BitVec 1) (o : BitVec 2) (sf : BitVec 3) (s : State) : Out :=
  atomRet (wA 19 d a b f g (5#4 ++ o ++ sf)) [(a, f), (b, g)] d a b o 5 false s

/-- ATMAXN: Atomically stores the unsigned greater of the word and gb and returns the old value. (R302) -/
def execAtmaxn (d a b : BitVec 5) (f g : BitVec 1) (o : BitVec 2) (sf : BitVec 3) (s : State) : Out :=
  atomRet (wA 19 d a b f g (6#4 ++ o ++ sf)) [(a, f), (b, g)] d a b o 6 false s

/-- ATAND: Atomically ANDs gb into a word and returns the old value. (R302) -/
def execAtand (d a b : BitVec 5) (f g : BitVec 1) (o : BitVec 2) (sf : BitVec 3) (s : State) : Out :=
  atomRet (wA 19 d a b f g (7#4 ++ o ++ sf)) [(a, f), (b, g)] d a b o 7 false s

/-- ATOR: Atomically ORs gb into a word and returns the old value. (R302) -/
def execAtor (d a b : BitVec 5) (f g : BitVec 1) (o : BitVec 2) (sf : BitVec 3) (s : State) : Out :=
  atomRet (wA 19 d a b f g (8#4 ++ o ++ sf)) [(a, f), (b, g)] d a b o 8 false s

/-- ATXOR: Atomically XORs gb into a word and returns the old value. (R302) -/
def execAtxor (d a b : BitVec 5) (f g : BitVec 1) (o : BitVec 2) (sf : BitVec 3) (s : State) : Out :=
  atomRet (wA 19 d a b f g (9#4 ++ o ++ sf)) [(a, f), (b, g)] d a b o 9 false s

/-- REDADD: Adds gb to a word without returning a value, posted when its translation misses. (R304) -/
def execRedadd (a b : BitVec 5) (f g o : BitVec 1) (sf : BitVec 3) (s : State) : Out :=
  atomRed (wA 19 0 a b f g (10#4 ++ o ++ 0#1 ++ sf)) a b f g o 10 s

/-- REDMIN: Stores the signed lesser of a word and gb without returning a value, possibly posted. (R304) -/
def execRedmin (a b : BitVec 5) (f g o : BitVec 1) (sf : BitVec 3) (s : State) : Out :=
  atomRed (wA 19 0 a b f g (11#4 ++ o ++ 0#1 ++ sf)) a b f g o 11 s

/-- REDMAX: Stores the signed greater of a word and gb without returning a value, possibly posted. (R304) -/
def execRedmax (a b : BitVec 5) (f g o : BitVec 1) (sf : BitVec 3) (s : State) : Out :=
  atomRed (wA 19 0 a b f g (12#4 ++ o ++ 0#1 ++ sf)) a b f g o 12 s

/-- LDA: Loads a word with acquire at the named scope. (R302) -/
def execLda (d a : BitVec 5) (f : BitVec 1) (sf : BitVec 3) (s : State) : Out :=
  issue (wA 19 d a 0 f 0 (53#6 ++ sf)) [(a, f)] s (fun s =>
    let ea := s.thr.reg a
    if s.held false || s.thr.pendingReg [d] || !s.thr.fillRoom then .stall s
    else
      match resolveThr s .read ea 8 with
      | .fail c s' => .trap s' c ea
      | .stall s' => .stall s'
      | .ok p s' =>
        if s'.poisonedAt p 8 then .trap s' .dataPoison ea
        else .adv ((s'.touchPlace false p).startFill [d] (.value [word (ofBytes (s'.loadAt p 8))])))

/-- STL: Stores gb to a word with release at the named scope. (R302) -/
def execStl (a b : BitVec 5) (f g : BitVec 1) (sf : BitVec 3) (s : State) : Out :=
  issue (wA 19 0 a b f g (58#6 ++ sf)) [(a, f), (b, g)] s (fun s =>
    if s.held true then .stall s else storeTo s (s.thr.reg a) (bytesOf 8 (s.thr.reg b).toNat))

end Sys2Proof.Machine
end

