-- ==== Sys2Proof/Machine/Link.lean ====
section
/-! DEFINITION. Sys2Proof/Machine/Link.lean: the Rigieb links (R390-R394). -/

namespace Sys2Proof.Machine

/-! ## Flits (R391) -/

/-- One byte of the CRC-64 with the ECMA-182 polynomial, the most significant bit first (R391; PRESUMED,
notes/assumptions/56.md). -/
def crcStep (c : BitVec 64) : Nat → BitVec 64
  | 0 => c
  | n + 1 => crcStep (if c.msb then (c <<< 1) ^^^ 0x42F0E1EBA9EA3693#64 else c <<< 1) n

/-- The CRC-64 of bytes (R391). -/
def crc64 (bs : List Byte) : BitVec 64 :=
  bs.foldl (fun (c : BitVec 64) (b : Byte) => crcStep (c ^^^ (b.setWidth 64 <<< (56 : Nat))) 8) 0

/-- The header of a flit as a word (R391). -/
def flitHeader (f : Flit) : Nat :=
  f.seq.toNat * 2 ^ 48 + f.ack.toNat * 2 ^ 32 + f.av.toNat * 2 ^ 31 + f.nak.toNat * 2 ^ 30 + f.kind.toNat * 2 ^ 26 +
    f.dnode.toNat * 2 ^ 14 + f.snode.toNat * 4 + f.vc.toNat

/-- Bytes 0-247 of a flit (R391). -/
def flitBody (f : Flit) : List Byte := bytesOf 8 (flitHeader f) ++ (f.payload ++ List.replicate 240 0).take 240

/-- The flit's CRC is correct (R391). -/
def flitCrcOk (f : Flit) : Bool := crc64 (flitBody f) == f.crc

/-- A number of bytes of a flit's payload, from an offset. -/
def flitNum (f : Flit) (off n : Nat) : Nat := ofBytes ((f.payload.drop off).take n)

/-! ## Sending and acknowledging (R392) -/

/-- A link of the package by number: fabric ports 0-3, host link 4. -/
def State.link (s : State) (p : Nat) : Link := s.links.toList.getD p {}

/-- The state with a link changed. -/
def State.setLink (s : State) (p : Nat) (f : Link → Link) : State :=
  if h : p < 5 then { s with links := s.links.set p (f s.links[p]) } else s

/-- The link may take a new flit: it is up and its replay buffer has room. While the peer is in standby or the link retrains, flits
wait there (R392-R394). -/
def Link.ready (l : Link) : Bool := l.width != .down && decide (l.replay.length < 512)

/-- No flit moves on the link now: it retrains (R393). -/
def Link.training (l : Link) : Bool := l.trainEnd.isSome

/-- The flits of the replay buffer stay where they are: the peer is in standby or the link retrains (R393, R394). -/
def Link.holds (l : Link) : Bool := l.standby || l.training

/-- The flit completed with sequence, acknowledgement and CRC. -/
def Link.stamp (l : Link) (f : Flit) : Flit :=
  let g := { f with snode := l.node, ack := l.expect - 1, av := true }
  { g with crc := crc64 (flitBody g) }

/-- Sends a flit that is not idle: it takes the next sequence number and stays in the replay buffer (R392). -/
def Link.send (l : Link) (now : Nat) (f : Flit) : Link :=
  let g := l.stamp { f with seq := l.nextSeq, nak := false }
  { l with
    replay := l.replay ++ [g], out := if l.holds then l.out else l.out ++ [g], nextSeq := l.nextSeq + 1
    ackWait := some (l.ackWait.getD now), lastFlit := now
    unacked := if l.holds then l.unacked else 0, unackedSince := if l.holds then l.unackedSince else none }

/-- Sends an idle flit that carries an ACK or a NAK, and whether this module is in standby (R392, R394). -/
def Link.sendIdle (l : Link) (nak : Bool) : Link :=
  let g := l.stamp
    { seq := 0, ack := 0, av := true, nak := nak, kind := 0, dnode := 0, snode := 0, vc := 0, payload := bytesOf 1 l.resting.toNat
      crc := 0 }
  { l with out := l.out ++ [g], unacked := 0, unackedSince := none }

/-- This module comes to be in standby or no longer, and tells its peer in an idle flit (R387, R394). -/
def Link.rest (b : Bool) (l : Link) : Link := if l.width == .down then l else { l with resting := b }.sendIdle false

/-- An ACK frees the flits at or before it (R392). -/
def Link.acked (l : Link) (now : Nat) (a : BitVec 16) : Link :=
  let r := l.replay.filter (fun f => decide ((a - f.seq).toInt < 0))
  { l with replay := r, ackWait := if r.isEmpty then none else some now }

/-- Every flit held is sent again, in order (R392). -/
def Link.resend (l : Link) (now : Nat) : Link :=
  { l with out := if l.holds then l.out else l.replay, ackWait := if l.replay.isEmpty then none else some now }

/-- A flit that cannot be accepted: a NAK goes out, once per gap (R392). -/
def Link.gap (l : Link) : Link := if l.nakSent then l else { l.sendIdle true with nakSent := true }

/-- The acknowledgement and the NAK that a correct flit's header carries are acted on (R392). -/
def Link.heed (l : Link) (now : Nat) (f : Flit) : Link :=
  let l1 := if f.av then l.acked now f.ack else l
  if f.nak then l1.resend now else l1

/-- A layer above takes the flit by its bytes: XCOPY, bellwether and lease flits. What a CXL or a management flit asks for is an
event of its own, since no rule lays out its bytes; a reserved kind is discarded (R391, R395; notes/assumptions/45.md). -/
def layered (f : Flit) : Bool := decide (2 ≤ f.kind.toNat) && decide (f.kind.toNat ≤ 5)

/-- A correct flit that is not idle reaches the receiver (R392). -/
def Link.take (l : Link) (now : Nat) (f : Flit) : Link :=
  let d := (f.seq - l.expect).toInt
  if d = 0 then
    let l1 := { l with
      expect := l.expect + 1, nakSent := false, unacked := l.unacked + 1
      unackedSince := some (l.unackedSince.getD now), lastFlit := now
      rx := if layered f then l.rx ++ [f] else l.rx }
    if 32 ≤ l1.unacked then l1.sendIdle false else l1
  else if d < 0 then l.sendIdle false
  else l.gap

/-- An idle flit says whether the peer is in standby; when it no longer is, the flits that waited for it go out (R394). -/
def Link.peerRests (l : Link) (now : Nat) (b : Bool) : Link :=
  if l.standby && !b then { l with standby := false }.resend now else { l with standby := b }

/-- A flit arrives at a link (R391, R392). -/
def Link.receive (l : Link) (now : Nat) (f : Flit) : Link :=
  if l.width == .down || l.training then l
  else if !flitCrcOk f then l.gap
  else if f.kind = 0 then (l.heed now f).peerRests now (flitNum f 0 1 % 2 == 1)
  else (l.heed now f).take now f

/-! ## Lanes (R393, R394) -/

/-- A report to the management controller about a unit. -/
def State.report (s : State) (u : ScoreUnit) : State :=
  { s with mgmt := { s.mgmt with reports := assocSet s.mgmt.reports u (assocGet 0 s.mgmt.reports u + 1) } }

/-- A lane of a link fails (R393). -/
def Link.failLane (l : Link) (now lane : Nat) : Link :=
  let f := if l.failed.contains lane then l.failed else l.failed ++ [lane]
  match l.width with
  | .x16 =>
    { { l with trainEnd := none }.resend now with
      failed := f, failedAt := some now, width := if lane < 8 then .x8high else .x8low }
  | .x8low => if lane < 8 then down l now f else { { l with trainEnd := none }.resend now with failed := f }
  | .x8high => if lane < 8 then { { l with trainEnd := none }.resend now with failed := f } else down l now f
  | .down => { l with failed := f }
where
  /-- The link goes down and discards its replay buffer (R394). -/
  down (l : Link) (now : Nat) (f : List Nat) : Link :=
    { l with failed := f, width := .down, replay := [], out := [], ackWait := none, trainEnd := none, downSince := some now }

/-- The link at x16 with the spare, in place of its one failed lane, or of a suspect lane while it runs at x16
(R352, R393). -/
def Link.respared (l : Link) (suspect : Option Nat) : Link :=
  if l.spare.isSome then l
  else
    match l.width, l.failed with
    | .x8low, [n] => { l with width := .x16, spare := some n, failed := [] }
    | .x8high, [n] => { l with width := .x16, spare := some n, failed := [] }
    | .x16, [] =>
      match suspect with
      | some n => { l with spare := some n }
      | none => l
    | _, _ => l

/-! ## Routes (R398) -/

/-- The node number that names every node (R390). -/
def multicast : BitVec 12 := 0xFFF

/-- The node numbers of this module: those of its links (R390). -/
def State.nodes (s : State) : List (BitVec 12) := s.links.toList.map (·.node)

/-- The fabric port that the route table gives for a node (R398). -/
def State.routeTo (s : State) (n : BitVec 12) : Option Nat := assocFind s.mgmt.routes n

/-- A flit for a node, as the layer above gives it to a link. -/
def flitFor (n : BitVec 12) (kind : BitVec 4) (payload : List Byte) : Flit :=
  { seq := 0, ack := 0, av := false, nak := false, kind := kind, dnode := n, snode := 0, vc := 0, payload := payload, crc := 0 }

/-- Sends a flit through a port, when that link can take it; what goes to a link that is down is lost (R394). -/
def State.sendOn (s : State) (p : Nat) (n : BitVec 12) (kind : BitVec 4) (payload : List Byte) : State :=
  if (s.link p).ready then s.setLink p (fun l => l.send s.gts (flitFor n kind payload)) else s

/-- Sends a flit through the fabric port that leads to a node, when that link can take it. -/
def State.sendTo (s : State) (n : BitVec 12) (kind : BitVec 4) (payload : List Byte) : State :=
  match s.routeTo n with
  | some p => s.sendOn p n kind payload
  | none => s

/-- Neither end has had flits to send for 10 µs (R393). -/
def Link.quiet (l : Link) (now : Nat) : Bool := l.replay.isEmpty && decide (l.lastFlit + 10000 ≤ now)

/-- The link begins to retrain, for 20 µs, when there is something for the spare to stand for: in a quiet window, or 100 ms after
its lane failed (R393). -/
def Link.beginTrain (l : Link) (suspect : Option Nat) (now : Nat) : Link :=
  if l.training || l.respared suspect = l then l
  else if l.quiet now || (match l.failedAt with | some t => l.width != .x16 && decide (t + 100000000 ≤ now) | none => false) then
    { l with trainEnd := some (now + 20000) }
  else l

/-- The retraining is over: the link runs at x16 with the spare, and its replay buffer goes out (R393). -/
def Link.endTrain (l : Link) (suspect : Option Nat) (now : Nat) : Link :=
  match l.trainEnd with
  | some t => if t ≤ now then ({ l with trainEnd := none }.respared suspect).resend now else l
  | none => l

/-- A flit is for this module: it names one of its nodes, or all of them (R390). -/
def State.mine (s : State) (f : Flit) : Bool := s.nodes.contains f.dnode || f.dnode == multicast

/-- Takes an accepted flit from the link that holds it, or nothing when none does. -/
def State.takeFlit (s : State) (f : Flit) : Option State :=
  match (List.range 5).find? (fun p => (s.link p).rx.contains f) with
  | some p => some (s.setLink p (fun l => { l with rx := l.rx.erase f }))
  | none => none

/-- FLIT_RECEIVED: A flit arrives at a Rigieb receiver and is checked for CRC and sequence, then accepted, discarded as a duplicate, or discarded as bad or ahead with a NAK; any ACK it carries frees the sender's replay buffer. (R392) -/
def execFlitReceived (port : Nat) (f : Flit) (s : State) : Out :=
  .next (if s.asleep || s.mgmt.bootFailed then s else
    (let s1 := s.setLink port (fun l => l.receive s.gts f)
     if flitCrcOk f && decide (7 ≤ f.kind.toNat) then s1.report (.link port 0) else s1))

/-- NAK: A received NAK makes the sender replay every flit from ACK + 1. (R392) -/
def execNak (port : Nat) (ack : BitVec 16) (s : State) : Out :=
  .next (if s.asleep then s else (s.setLink port (fun l => if l.width == .down then l else (l.acked s.gts ack).resend s.gts)))

/-- ACK_TIMER: 1 µs after an accepted flit the receiver returns an ACK. (R392) -/
def execAckTimer (port : Nat) (s : State) : Out :=
  .next (if s.asleep then s else (s.setLink port (fun l =>
    match l.unackedSince with
    | some t => if t + 1000 ≤ s.gts && l.width != .down && !l.training then l.sendIdle false else l
    | none => l)))

/-- REPLAY_TIMEOUT: 10 µs without an ACK while flits are held makes the sender replay. (R392) -/
def execReplayTimeout (port : Nat) (s : State) : Out :=
  .next (if s.asleep then s else (s.setLink port (fun l =>
    match l.ackWait with
    | some t => if t + 10000 ≤ s.gts && l.width != .down && !l.holds then l.resend s.gts else l
    | none => l)))

/-- LANE_FAILURE: A Rigieb lane fails and the link drops to a ×8 half, or goes down on a second failure. (R393) -/
def execLaneFailure (port lane : Nat) (s : State) : Out :=
  .next
    (if port < 5 && lane < 16 then
      let s1 := s.setLink port (fun l => l.failLane s.gts lane)
      (s1.score (.link port lane) 1).report (.link port lane)
    else s)

/-- RETRAIN: In a quiet window, or after 100 ms, the link retrains to ×16 with the spare: one turn begins it, and one 20 µs later
ends it. (R393) -/
def execRetrain (port : Nat) (s : State) : Out :=
  .next
    (if port < 5 then
      let bad := (List.range 16).find? (fun n => s.suspect (.link port n))
      let l := (s.link port).endTrain bad s.gts
      if l = s.link port then s.setLink port (fun l => l.beginTrain bad s.gts)
      else
        let u : ScoreUnit := .link port (l.spare.getD 0)
        ((s.setLink port (fun _ => l)).report u).markReplaced u
    else s)

end Sys2Proof.Machine
end

