-- ==== Sys2Proof/Machine/Tag.lean ====
section
/-! DEFINITION. Sys2Proof/Machine/Tag.lean: tagged scratchpad words (R218-R222). -/

namespace Sys2Proof.Machine

/-- The full/empty bit of a scratchpad word (R218). -/
def Hart.wordFull (h : Hart) (n : Nat) : Bool := !h.spadEmpty.contains n

/-- The hart with a scratchpad word full or empty (R218). -/
def Hart.setWordFull (h : Hart) (n : Nat) (full : Bool) : Hart :=
  if full then { h with spadEmpty := h.spadEmpty.filter (fun x => decide (x ≠ n)) }
  else if h.spadEmpty.contains n then h else { h with spadEmpty := n :: h.spadEmpty }

/-- The condition under which a held request is served (R219). -/
def TagOp.ready (o : TagOp) (full : Bool) : Bool :=
  match o with
  | .stef _ => !full
  | _ => full

/-- A thread's fill takes its value: LDFF or LDFE has been served (R220). -/
def Thread.served (t : Thread) (fill : Nat) (v : Word) : Thread :=
  { t with fills := t.fills.map (fun f => if f.id = fill then { f with src := .value [v] } else f) }

/-- A core's thread changed. -/
def State.onThr (s : State) (c : CoreId) (w : Who) (f : Thread → Thread) : State :=
  let k := s.getCore c
  s.setCore c { k with hart := k.hart.setThr (f (k.hart.thr w)) w }

/-- A core's hart changed. -/
def State.onHart (s : State) (c : CoreId) (f : Hart → Hart) : State :=
  let k := s.getCore c
  s.setCore c { k with hart := f k.hart }

/-- Serves one request at the scratchpad of the core `o` (R219, R220). -/
def serveOne (s : State) (o : CoreId) (r : TagReq) : State :=
  let s1 := s.onHart o (fun h => { h with spadWait := h.spadWait.filter (fun x => decide (x.id ≠ r.id)) })
  let v := word (ofBytes (memRead (s.getCore o).hart.spad (8 * r.word) 8))
  match r.op with
  | .ldff => s1.onThr r.core r.who (fun t => t.served r.fill v)
  | .ldfe => (s1.onHart o (fun h => h.setWordFull r.word false)).onThr r.core r.who (fun t => t.served r.fill v)
  | .stef x =>
    (s1.onHart o (fun h =>
      { h with spad := memWrite h.spad (8 * r.word) (bytesOf 8 x.toNat) }.setWordFull r.word true)).onThr r.core r.who
      (fun t => { t with wait := t.wait.map (fun w => if w.kind = WaitKind.tagged then { w with served := true } else w) })

/-- Serves the oldest request on a word whose condition holds, again and again until none holds (R220). -/
def serveWord (s : State) (o : CoreId) (n : Nat) : Nat → State
  | 0 => s
  | fuel + 1 =>
    let h := (s.getCore o).hart
    match h.spadWait.find? (fun r => decide (r.word = n) && r.op.ready (h.wordFull n)) with
    | some r => serveWord (serveOne s o r) o n fuel
    | none => s

/-- Serving after a change at a word; each round serves one request. -/
def serve (s : State) (o : CoreId) (n : Nat) : State := serveWord s o n ((s.getCore o).hart.spadWait.length + 1)

/-- The checks of a tagged access: those of R65 with size 8, translation among them; an address that lies in no window
raises SPAD_RANGE once it is translated (R65, R219). Goes on with the core that owns the word and the word's number. -/
def tagAccess (s : State) (acc : Access) (ea : Word) (release : Bool) (k : CoreId → Nat → Res) : Res :=
  if s.held release then .stall s
  else
    match resolveThr s acc ea 8 with
    | .fail c s' => .trap s' c ea
    | .stall s' => .stall s'
    | .ok (.spad o off) _ => k o (off / 8)
    | .ok (.phys _) s' => .trap s' .spadRange ea

/-- Appends a request to the owner's list and serves the word (R220). -/
def tagRequest (s : State) (o : CoreId) (r : TagReq) : State :=
  serve (s.onHart o (fun h => { h with spadWait := h.spadWait ++ [r] })) o r.word

/-- The request is still held. -/
def tagHeld (s : State) (o : CoreId) (id : Nat) : Bool := (s.getCore o).hart.spadWait.any (fun r => decide (r.id = id))

/-- LDFF and LDFE: the destination is empty until the request is served; with a bound of 0 a request that is not served
at once is withdrawn and its FE_TIMEOUT deferred (R29, R219-R221). -/
def tagLoad (s : State) (d : BitVec 5) (ea : Word) (op : TagOp) : Res :=
  tagAccess s (match op with | .ldfe => .rmw | _ => .read) ea false (fun o n =>
    if s.thr.pendingReg [d] || !s.thr.fillRoom then .stall s
    else
      let s1 := { s.startFill [d] .tagged with nextId := s.nextId + 1 }
      let r : TagReq :=
        { id := s.nextId, core := s.loc, who := s.who, fill := s.hart.fillSeq, op := op, word := n, ea := ea
          since := s.gts, bound := s.hart.fetimeout.toNat }
      let s2 := tagRequest s1 o r
      if r.bound = 0 && tagHeld s2 o r.id then
        let s3 := s2.withdrawTag r.id
        .adv (s3.setThr { s3.thr with
          fills := s3.thr.fills.filter (fun f => decide (f.id ≠ r.fill))
          deferred := s3.thr.deferred ++ [(.feTimeout, ea)] })
      else .adv s2)

/-- STEF: its sequencer waits until the request is served or FETIMEOUT expires (R219-R221). -/
def tagStore (s : State) (v ea : Word) : Res :=
  match s.thr.wait with
  | some w =>
    if w.kind = WaitKind.tagged then
      if w.served then .adv s
      else if w.since + w.bound * 1000 ≤ s.gts then .trap (s.withdrawTag w.num.toNat) .feTimeout ea
      else .stall s
    else newStore s v ea
  | none => newStore s v ea
where
  /-- The request arrives. -/
  newStore (s : State) (v ea : Word) : Res :=
    tagAccess s .rmw ea true (fun o n =>
      let r : TagReq :=
        { id := s.nextId, core := s.loc, who := s.who, fill := 0, op := .stef v, word := n, ea := ea
          since := s.gts, bound := s.hart.fetimeout.toNat }
      let s2 := tagRequest { s with nextId := s.nextId + 1 } o r
      if !tagHeld s2 o r.id then .adv s2
      else if r.bound = 0 then .trap (s2.withdrawTag r.id) .feTimeout ea
      else .stall (s2.setThr { s2.thr with
        wait := some { kind := .tagged, num := word r.id, since := s.gts, bound := r.bound } }))

/-- LDFF: Waits until a tagged word is full and loads it, leaving it full. (R219) -/
def execLdff (d a : BitVec 5) (f : BitVec 1) (o : BitVec 12) (s : State) : Out :=
  issue (wM 21 d a f 0 o) [(a, f)] s (fun s => tagLoad s d (eaOf s.thr a o) .ldff)

/-- LDFE: Waits until a tagged word is full, loads it and marks it empty. (R219) -/
def execLdfe (d a : BitVec 5) (f : BitVec 1) (o : BitVec 12) (s : State) : Out :=
  issue (wM 21 d a f 1 o) [(a, f)] s (fun s => tagLoad s d (eaOf s.thr a o) .ldfe)

/-- STEF: Waits until a tagged word is empty, stores gs and marks it full. (R219) -/
def execStef (sf a : BitVec 5) (f : BitVec 1) (o : BitVec 12) (s : State) : Out :=
  issue (wM 21 sf a f 2 o) [(a, f), (sf, f)] s (fun s =>
    tagStore s (s.thr.reg sf) (eaOf s.thr a o))

/-- STFF: Stores gs to a tagged word and marks it full without waiting. (R219) -/
def execStff (sf a : BitVec 5) (f : BitVec 1) (o : BitVec 12) (s : State) : Out :=
  issue (wM 21 sf a f 3 o) [(a, f), (sf, f)] s (fun s => tagAccess s .write (eaOf s.thr a o) true (fun c n =>
    .adv (serve (s.onHart c (fun h =>
      { h with spad := memWrite h.spad (8 * n) (bytesOf 8 (s.thr.reg sf).toNat) }.setWordFull n true)) c n)))

/-- FECLR: Marks a tagged word empty and keeps its value. (R219) -/
def execFeclr (a : BitVec 5) (f : BitVec 1) (o : BitVec 12) (s : State) : Out :=
  issue (wM 21 0 a f 4 o) [(a, f)] s (fun s => tagAccess s .write (eaOf s.thr a o) false (fun c n =>
    .adv (serve (s.onHart c (fun h => h.setWordFull n false)) c n)))

/-- FEQ: Writes 1 to gd if a tagged word is full and 0 if empty; gd is filled later when the word lies in another part of
the cluster window (R216). (R219) -/
def execFeq (d a : BitVec 5) (f : BitVec 1) (o : BitVec 12) (s : State) : Out :=
  issue (wM 21 d a f 5 o) [(a, f)] s (fun s => tagAccess s .read (eaOf s.thr a o) false (fun c n =>
    let v : Word := if (s.getCore c).hart.wordFull n then 1 else 0
    if s.thr.pendingReg [d] then .stall s else deliverLoad s s (s.near (.spad c (8 * n))) [d] [v]))

end Sys2Proof.Machine
end

