-- ==== Sys2Proof/Machine/Bell.lean ====
section
/-! DEFINITION. Sys2Proof/Machine/Bell.lean: bellwether reduction (R400-R403). -/

namespace Sys2Proof.Machine

/-- A group of the package by number. -/
def State.group (s : State) (n : Nat) : Option Group := s.mgmt.groups.find? (fun g => decide (g.num = n))

/-- The state with a group replaced. -/
def State.setGroup (s : State) (g : Group) : State :=
  { s with mgmt := { s.mgmt with groups := s.mgmt.groups.map (fun x => if x.num = g.num then g else x) } }

/-- The members of a group that stand on this module, as a mask over its member list. -/
def localMask (s : State) (g : Group) : Nat :=
  (g.members.mapIdx (fun i m => if s.nodes.contains m.1 then 2 ^ i else 0)).foldl (· + ·) 0

/-- The mask of all members. -/
def Group.fullMask (g : Group) : Nat := 2 ^ g.members.length - 1

/-- The mask bit of a core of this module in a group; 0 when it is no member (R401). -/
def memberBit (s : State) (g : Group) (c : CoreId) : Nat :=
  match (List.range g.members.length).find? (fun i =>
    match g.members[i]? with
    | some m => s.nodes.contains m.1 && decide (m.2 = c)
    | none => false) with
  | some i => 2 ^ i
  | none => 0

/-- The better of two pairs: the greater value, ties to the lower index, both unsigned (R401). -/
def better (a b : Word × Word) : Word × Word :=
  if b.2.toNat < a.2.toNat then a
  else if a.2.toNat < b.2.toNat then b
  else if a.1.toNat ≤ b.1.toNat then a else b

/-- The posts held for a sequence. -/
def Group.postsOf (g : Group) (q : BitVec 32) : List (BitVec 32 × Nat × Word × Word) :=
  g.posts.filter (fun p => decide (p.1 = q))

/-- The members that have posted a sequence. -/
def Group.posted (g : Group) (q : BitVec 32) : Nat := (g.postsOf q).foldl (fun acc p => acc ||| p.2.1) 0

/-- The winner among the posts of a sequence. -/
def Group.winner (g : Group) (q : BitVec 32) : Word × Word :=
  match g.postsOf q with
  | [] => (0, 0)
  | p :: r => r.foldl (fun b x => better b x.2.2) p.2.2

/-- The members that one post names: a run of 1,696 of the group's list (DESIGN CHOICE, notes/assumptions/25.md). -/
def bwRun : Nat := 1696

/-- The payload of a result, and of a post for the members of one run: group, sequence, index, value, the run's number, a bit for
each of its members; R402 gives no layout (DESIGN CHOICE, notes/assumptions/25.md). -/
def bwPayload (n : Nat) (q : BitVec 32) (run mask : Nat) (v : Word × Word) : List Byte :=
  bytesOf 4 n ++ bytesOf 4 q.toNat ++ bytesOf 8 v.1.toNat ++ bytesOf 8 v.2.toNat ++ bytesOf 4 run ++ bytesOf 212 mask

/-- The members that a post's payload names. -/
def bwMask (f : Flit) : Nat := if flitNum f 24 4 < 2 ^ 14 then flitNum f 28 212 * 2 ^ (bwRun * flitNum f 24 4) else 0

/-- A post goes on to the root: a flit for each run with members that it is for (R400). -/
def State.bwForward (s : State) (g : Group) (q : BitVec 32) (mask : Nat) (v : Word × Word) : State :=
  ((List.range (g.members.length / bwRun + 1)).filter (fun i => mask / 2 ^ (bwRun * i) % 2 ^ bwRun != 0)).foldl
    (fun s i => s.sendTo g.root 3 (bwPayload g.num q i (mask / 2 ^ (bwRun * i) % 2 ^ bwRun) v)) s

/-- The package switch of this module is the group's root: it is so configured, or every member is on this module (R400). -/
def Group.rootHere (s : State) (g : Group) : Bool :=
  s.nodes.contains g.root || g.members.all (fun m => s.nodes.contains m.1)

/-- The result of a group reaches one core of this module: the BWRED fills that wait for it take the winner, and
BW_RESULT is posted for those that asked (R401). -/
def State.bwFill (s : State) (n : Nat) (q : BitVec 32) (v : Word × Word) (c : CoreId) : State :=
  let k := s.getCore c
  let hits (t : Thread) : List Fill := t.fills.filter (fun f =>
    match f.src with
    | .bell g sq _ _ _ _ => decide (g = n) && decide (sq = q)
    | _ => false)
  let evts := ((hits k.hart.a) ++ (hits k.hart.e)).filter (fun f =>
    match f.src with
    | .bell _ _ _ _ e _ => e
    | _ => false)
  let upd (t : Thread) : Thread :=
    { t with fills := t.fills.map (fun f =>
        match f.src with
        | .bell g sq _ _ _ _ => if g = n ∧ sq = q then { f with src := .value [v.1, v.2] } else f
        | _ => f) }
  let s1 := s.setCore c { k with hart := { k.hart with a := upd k.hart.a, e := upd k.hart.e } }
  evts.foldl (fun s _ => s.postCore c (mkRec s 7 (coreSource c) v.1 v.2)) s1

/-- A result goes to members given by a mask: to the cores of this module and to the others' nodes; when it is for every member, in
one multicast flit on each fabric port that leads to some (R390, R402). -/
def State.bwResult (s : State) (g : Group) (q : BitVec 32) (mask : Nat) (v : Word × Word) : State :=
  let who := (g.members.mapIdx (fun i m => (i, m))).filter (fun x => mask.testBit x.1)
  let s1 := (who.filter (fun x => s.nodes.contains x.2.1)).foldl (fun s x => s.bwFill g.num q v x.2.2) s
  let far := ((who.filter (fun x => !s.nodes.contains x.2.1)).map (fun x => x.2.1)).eraseDups
  if mask = g.fullMask then
    (far.filterMap s.routeTo).eraseDups.foldl (fun s p => s.sendOn p multicast 4 (bwPayload g.num q 0 0 v)) s1
  else far.foldl (fun s n => s.sendTo n 4 (bwPayload g.num q 0 0 v)) s1

/-- A post reaches this module's package switch: at the root it is combined, answered again or ignored; elsewhere it is
combined with the posts of the module's own members and forwarded once, duplicates as they are (R400, R402). -/
def State.bwPost (s : State) (n : Nat) (q : BitVec 32) (mask : Nat) (v : Word × Word) : State :=
  match s.group n with
  | none => s
  | some g =>
    if g.rootHere s then
      let d := (q - g.last).toInt
      if g.any && d = 0 then s.bwResult g q mask g.win
      else if g.any && d < 0 then s
      else
        let new := mask &&& ((g.posted q) ^^^ g.fullMask) &&& g.fullMask
        if new = 0 then s
        else
          let g1 := { g with posts := g.posts ++ [(q, new, v.1, v.2)] }
          if g1.posted q = g.fullMask then
            let g2 := { g1 with
              last := q, any := true, win := g1.winner q
              posts := g1.posts.filter (fun p => decide (0 < (p.1 - q).toInt)) }
            (s.setGroup g2).bwResult g2 q g.fullMask g2.win
          else s.setGroup g1
    else
      let mine := localMask s g
      if (g.posted q &&& mask) = mask then s.bwForward g q mask v
      else
        let g1 := { g with posts := g.posts ++ [(q, mask, v.1, v.2)] }
        let s1 := s.setGroup g1
        if (g1.posted q &&& mine) = mine then s1.bwForward g q (g1.posted q) (g1.winner q) else s1

/-- A fill of a BWRED on a group that posted last at or before a GTS: its sequence, index and value. -/
def Fill.bellDue (f : Fill) (group before : Nat) : Option (BitVec 32 × Word × Word) :=
  match f.src with
  | .bell n q i v _ at' => if n = group ∧ at' ≤ before then some (q, i, v) else none
  | _ => none

/-- A BWRED's fill that has posted again at a GTS. -/
def Fill.bellAgain (f : Fill) (group before now : Nat) : Fill :=
  match f.src with
  | .bell n q i v e at' => if n = group ∧ at' ≤ before then { f with src := .bell n q i v e now } else f
  | _ => f

/-- Every BWRED of a group that waits on this module and posted last at or before a GTS posts again (R401). -/
def State.bwRepost (s : State) (g : Group) (before : Nat) : State :=
  (g.members.filter (fun m => s.nodes.contains m.1)).foldl (fun s m =>
    let h := (s.getCore m.2).hart
    let again (t : Thread) : Thread := { t with fills := t.fills.map (fun f => f.bellAgain g.num before s.gts) }
    ((h.a.fills ++ h.e.fills).filterMap (fun f => f.bellDue g.num before)).foldl
      (fun s p => s.bwPost g.num p.1 (memberBit s g m.2) (p.2.1, p.2.2))
      (s.onHart m.2 (fun h => { h with a := again h.a, e := again h.e }))) s

/-- BWRED: Posts an index-value pair to a bellwether group, releasing, and fills gd, gd+1 with the winner on the result. (R401) -/
def execBwred (d a : BitVec 5) (b : BitVec 4) (s : State) : Out :=
  issue (wQ 23 d a (b ++ 0#1) 12) [(a, 0), ((b ++ 0#1), 0), ((b ++ 1#1), 0)] s (fun s => notSplit (wQ 23 d a (b ++ 0#1) 12) s (fun s =>
    let n := field (s.thr.reg a) 0 10
    let q := BitVec.ofNat 32 (field (s.thr.reg a) 32 32)
    let ok := match s.group n with
      | some g => memberBit s g s.loc
      | none => 0
    if ok = 0 then .trap s .perm (word n)
    else if s.held true || s.thr.pendingReg [d, d + 1] || !s.thr.fillRoom then .stall s
    else
      let i := s.thr.reg (b ++ 0#1)
      let v := s.thr.reg (b ++ 1#1)
      let s1 := s.startFill [d, d + 1] (.bell n q i v (bit (s.thr.reg a) 10) s.gts)
      .adv (s1.bwPost n q ok (i, v))))

/-- BELLWETHER_POST: A post reaches a switch or the root, which combines it, resends a result or ignores it. (R402) -/
def execBellwetherPost (f : Flit) (s : State) : Out :=
  .next (if s.asleep then s else
    (match s.takeFlit f with
     | some s' => if f.kind = 3 && s.mine f then
         s'.bwPost (flitNum f 0 4) (BitVec.ofNat 32 (flitNum f 4 4)) (bwMask f) (word (flitNum f 8 8), word (flitNum f 16 8))
       else if f.kind = 3 then s' else s
     | none => s))

/-- BELLWETHER_RESULT: A group result reaches a member, filling its BWRED destinations and posting BW_RESULT when asked. (R401) -/
def execBellwetherResult (f : Flit) (s : State) : Out :=
  .next (if s.asleep then s else
    (match s.takeFlit f with
     | some s' =>
       if f.kind = 4 && s.mine f then
         match s'.group (flitNum f 0 4) with
         | some g => (g.members.filter (fun m => s'.nodes.contains m.1)).foldl
             (fun s m => s.bwFill g.num (BitVec.ofNat 32 (flitNum f 4 4)) (word (flitNum f 8 8), word (flitNum f 16 8)) m.2) s'
         | none => s'
       else if f.kind = 4 then s' else s
     | none => s))

/-- BWRED_REPOST: Every 20 µs without a result a member repeats its bellwether post; one that posted less than 20 µs ago does not. (R401) -/
def execBwredRepost (group : Nat) (s : State) : Out :=
  .next (if s.asleep then s else
    (match s.group group with
     | some g => if s.gts < 20000 then s else s.bwRepost g (s.gts - 20000)
     | none => s))

end Sys2Proof.Machine
end

