-- ==== Sys2Proof/Machine/Branch.lean ====
section
/-! DEFINITION. Sys2Proof/Machine/Branch.lean: branches, jumps, calls, hardware loops and the other control words (R69-R79, R95). -/

namespace Sys2Proof.Machine

/-- A compare branch (R69). -/
def branch (w : BitVec 32) (a b : BitVec 5) (f g : BitVec 1) (o : BitVec 11) (s : State)
    (cond : Word → Word → Bool) : Out :=
  issue w [(a, f), (b, g)] s (fun s =>
    if cond (s.thr.reg a) (s.thr.reg b) then jumpTo s (relTarget s.thr.pc 11 o.toNat) else .adv s)

/-- The entries that a return stack holds at most (R21, R23). -/
def retLimit (s : State) : Nat :=
  match s.who with
  | .mt _ => 16 / s.hart.split + 1024 / s.hart.split
  | _ => 1040

/-- CALL and CALLR: push the next address, raise the call level, go to the target (R21, R70). -/
def callTo (s : State) (target : Word) : Res :=
  let t := s.thr
  if retLimit s ≤ t.rets.length then .trap s .stackOvf 0
  else .go (s.setThr { t with rets := (t.pc + 4) :: t.rets, clvl := t.clvl + 1, pc := target })

/-- A register target must be a multiple of 4 (R70). -/
def aligned4 (s : State) (target : Word) (k : Res) : Res :=
  if target.toNat % 4 ≠ 0 then .trap s .misalign target else k

/-- LEXIT: pops the innermost entry of the call level and leaves its body (R77). -/
def leaveLoop (s : State) : Res :=
  let t := s.thr
  match t.loops with
  | x :: r => if x.lvl = t.clvl then .go (s.setThr { t with loops := r, pc := x.fin + 4 })
              else .go (s.setThr { t with pc := t.pc + 4 })
  | [] => .go (s.setThr { t with pc := t.pc + 4 })

/-- LOOP and LOOPI with a count (R73). -/
def enterLoop (s : State) (n : Word) (e : BitVec 16) : Res :=
  let t := s.thr
  let fin := t.pc + 4 + 4 * e.setWidth 64
  if n = 0 then .go (s.setThr { t with pc := fin + 4 })
  else if 6 ≤ t.loops.length then .trap s .loopDepth 0
  else
    let x : LoopEntry := { start := t.pc + 4, fin := fin, count := n, index := 0, lvl := t.clvl }
    .go (s.setThr { t with loops := x :: t.loops, pc := t.pc + 4 })

/-- YIELD advances and parks when a request is pending (R79, R106). -/
def yieldRes (s : State) : Res :=
  let t := s.thr.advance s.hart.park.isSome
  .go (s.setThr { t with run := if s.hart.park.isSome then .parked else t.run })

/-- A wait at the branch-outcome queue (R95); WAIT_TIMEOUT reports the number 0, since R97 gives none for this queue
(DESIGN CHOICE, notes/assumptions/26.md). -/
def waitBranch (s : State) : Res := waitOn s .branch 2 0

/-- BEQ: Branches when ga equals gb. (R69) -/
def execBeq (a b : BitVec 5) (f g : BitVec 1) (o : BitVec 11) (s : State) : Out :=
  branch (wB 12 a b f g 0 o) a b f g o s (fun x y => x == y)

/-- BNE: Branches when ga differs from gb. (R69) -/
def execBne (a b : BitVec 5) (f g : BitVec 1) (o : BitVec 11) (s : State) : Out :=
  branch (wB 12 a b f g 1 o) a b f g o s (fun x y => x != y)

/-- BLT: Branches when ga is less than gb, signed. (R69) -/
def execBlt (a b : BitVec 5) (f g : BitVec 1) (o : BitVec 11) (s : State) : Out :=
  branch (wB 12 a b f g 2 o) a b f g o s (fun x y => decide (x.toInt < y.toInt))

/-- BGE: Branches when ga is at least gb, signed. (R69) -/
def execBge (a b : BitVec 5) (f g : BitVec 1) (o : BitVec 11) (s : State) : Out :=
  branch (wB 12 a b f g 3 o) a b f g o s (fun x y => decide (y.toInt ≤ x.toInt))

/-- BLTN: Branches when ga is less than gb, unsigned. (R69) -/
def execBltn (a b : BitVec 5) (f g : BitVec 1) (o : BitVec 11) (s : State) : Out :=
  branch (wB 12 a b f g 4 o) a b f g o s (fun x y => decide (x.toNat < y.toNat))

/-- BGEN: Branches when ga is at least gb, unsigned. (R69) -/
def execBgen (a b : BitVec 5) (f g : BitVec 1) (o : BitVec 11) (s : State) : Out :=
  branch (wB 12 a b f g 5 o) a b f g o s (fun x y => decide (y.toNat ≤ x.toNat))

/-- BMZ: Branches when no element below VL is true in the top of the mask stack. (R161) -/
def execBmz (o : BitVec 11) (s : State) : Out :=
  issue (wB 12 0 0 0 0 6 o) [] s (fun s =>
    if topZero s then jumpTo s (relTarget s.thr.pc 11 o.toNat) else .adv s)

/-- BOQ: Pops the branch-outcome queue, waiting while it is empty, and branches when the bit is 1. (R95) -/
def execBoq (o : BitVec 11) (s : State) : Out :=
  issue (wB 12 0 0 0 0 7 o) [] s (fun s => notSplit (wB 12 0 0 0 0 7 o) s (fun s =>
    match s.hart.bo with
    | [] => waitBranch s
    | b :: r =>
      let s' := s.setHart { s.hart with bo := r }
      if b then jumpTo s' (relTarget s'.thr.pc 11 o.toNat) else .adv s'))

/-- JMP: Jumps to the PC-relative target. (R70) -/
def execJmp (o : BitVec 26) (s : State) : Out :=
  issue (wJ 13 o) [] s (fun s => jumpTo s (relTarget s.thr.pc 26 o.toNat))

/-- CALL: Pushes the return address, raises CLVL and jumps to the PC-relative target. (R70) -/
def execCall (o : BitVec 26) (s : State) : Out :=
  issue (wJ 14 o) [] s (fun s => callTo s (relTarget s.thr.pc 26 o.toNat))

/-- RET: Pops the return stack, lowers CLVL, discards loops of the returning level and jumps. (R70) -/
def execRet (s : State) : Out :=
  issue (wZ 15 0 0 0 0) [] s (fun s =>
    let t := s.thr
    match t.rets with
    | [] => .trap s .stackOvf 1
    | p :: r => .go (s.setThr
        { t with rets := r, clvl := t.clvl - 1, loops := dropAbove (t.clvl - 1) t.loops, pc := p }))

/-- CALLR: Pushes the return address, raises CLVL and jumps to the address in ga. (R70) -/
def execCallr (a : BitVec 5) (s : State) : Out :=
  issue (wZ 15 0 a 0 1) [(a, 0)] s (fun s => aligned4 s (s.thr.reg a) (callTo s (s.thr.reg a)))

/-- JMPR: Jumps to the address in ga. (R70) -/
def execJmpr (a : BitVec 5) (s : State) : Out :=
  issue (wZ 15 0 a 0 2) [(a, 0)] s (fun s => aligned4 s (s.thr.reg a) (jumpTo s (s.thr.reg a)))

/-- LEXIT: Pops the innermost loop entry of the current call level and continues after its body. (R77) -/
def execLexit (s : State) : Out :=
  issue (wZ 15 0 0 0 3) [] s leaveLoop

/-- LIDX: Writes the index of the loop entry at the given level to gd. (R78) -/
def execLidx (d : BitVec 5) (l : BitVec 3) (s : State) : Out :=
  issue (wZ 15 d 0 (0#9 ++ l) 4) [] s (fun s =>
    writeReg s d (match s.thr.loops[l.toNat]? with | some x => x.index | none => 0))

/-- LCNT: Writes the remaining count of the loop entry at the given level to gd. (R78) -/
def execLcnt (d : BitVec 5) (l : BitVec 3) (s : State) : Out :=
  issue (wZ 15 d 0 (0#9 ++ l) 5) [] s (fun s =>
    writeReg s d (match s.thr.loops[l.toNat]? with | some x => x.count | none => 0))

/-- YIELD: Marks an iteration boundary at which a pending pre-emption parks the sequencer; otherwise a NOP. (R106) -/
def execYield (s : State) : Out :=
  issue (wZ 15 0 0 0 6) [] s yieldRes

/-- NOP: Only advances PC. (R79) -/
def execNop (s : State) : Out :=
  issue (wZ 15 0 0 0 7) [] s (fun s => .adv s)

/-- BOPUSH: Appends ga[0] to the branch-outcome queue, waiting while it holds 32 entries. (R95, R209) -/
def execBopush (a : BitVec 5) (s : State) : Out :=
  issue (wZ 15 0 a 0 8) [(a, 0)] s (fun s => notSplit (wZ 15 0 a 0 8) s (fun s =>
    if 32 ≤ s.hart.bo.length then waitBranch s
    else .adv (s.setHart { s.hart with bo := s.hart.bo ++ [bit (s.thr.reg a) 0] })))

/-- LOOP: Pushes a hardware loop entry with the count in ga, or skips the body when the count is 0. (R73) -/
def execLoop (a : BitVec 5) (e : BitVec 16) (s : State) : Out :=
  issue (wL 16 a e) [(a, 0)] s (fun s => enterLoop s (s.thr.reg a) e)

/-- LOOPI: Pushes a hardware loop entry with an immediate count of 1 to 1,024. (R73) -/
def execLoopi (c : BitVec 10) (e : BitVec 16) (s : State) : Out :=
  issue (wLI 17 c e) [] s (fun s => enterLoop s (c.setWidth 64 + 1) e)

end Sys2Proof.Machine
end

