-- ==== Sys2Proof/Machine/Farm.lean ====
section
/-! DEFINITION. Sys2Proof/Machine/Farm.lean: the walker of a launch and the iterations of its strip farm (R14, R15,
R363-R366). -/

namespace Sys2Proof.Machine

/-! ## The loop-nest record (R363) -/

/-- The dimensions of a nest. -/
def Launch.ndim (l : Launch) : Nat := field (dw l.nest 0) 0 3 + 1

/-- The dimension that slot `j` of ORDER names. -/
def Launch.slotDim (l : Launch) (j : Nat) : Nat := field (dw l.nest 0) (6 + 3 * j) 3

/-- COUNTk. -/
def Launch.count (l : Launch) (k : Nat) : Nat := field (dw l.nest (5 + 2 * k)) 0 32

/-- The number of iterations (R365). -/
def Launch.total (l : Launch) : Nat := (List.range l.ndim).foldl (fun acc k => acc * l.count k) 1

/-- Harts per team. -/
def Launch.teamSize (l : Launch) : Nat := field (dw l.nest 0) 27 3 + 1

/-- CHUNK. -/
def Launch.chunk (l : Launch) : Nat := field (dw l.nest 1) 0 32

/-- MAXTEAMS. -/
def Launch.maxTeams (l : Launch) : Nat := field (dw l.nest 1) 32 16

/-- TSLOT. -/
def Launch.tslot (l : Launch) : Nat := field (dw l.nest 20) 0 4

/-- EXCL. -/
def Launch.excl (l : Launch) : Bool := bit (dw l.nest 20) 8

/-- The ordinals (dimension, ordinal) of iteration `n` in walk order, slots from `j` on (R365). -/
def Launch.ordinals (l : Launch) : Nat → Nat → Nat → List (Nat × Nat)
  | 0, _, _ => []
  | fuel + 1, j, n =>
    let d := l.slotDim j
    (d, n % l.count d) :: l.ordinals fuel (j + 1) (n / l.count d)

/-- The index value of dimension `k` in iteration `n` (R365). -/
def Launch.index (l : Launch) (n k : Nat) : Word :=
  let i := assocGet 0 (l.ordinals l.ndim 0 n) k
  dw l.nest (4 + 2 * k) + word i * sext 32 (word (field (dw l.nest (5 + 2 * k)) 32 32))

/-- The preloads (register, value) of one sequencer in iteration `n`: `pre` is EPRE or APRE, `arg` EARG or AARG (R363,
R366). -/
def Launch.preloads (l : Launch) (pre : Word) (arg n : Nat) : List (BitVec 5 × Word) :=
  (if arg / 32 % 2 = 1 then [(BitVec.ofNat 5 arg, dw l.nest 18)] else []) ++
    (List.range l.ndim).filterMap (fun k =>
      if bit pre (6 * k + 5) then some (BitVec.ofNat 5 (field pre (6 * k) 5), l.index n k) else none)

/-- The walker has iterations that are not handed out, and may hand them out (R355, R366, R369). -/
def Launch.more (l : Launch) : Bool :=
  l.state == .live && decide (l.next < l.total) && !l.cancelled && !l.failed

/-! ## Iterations (R14, R15, R366) -/

/-- A sequencer at the start of an iteration: TVEC kept, registers full and 0 but for the preloads (R14). -/
def Thread.start (t : Thread) (pc : Word) (null : Bool) (pre : List (BitVec 5 × Word)) : Thread :=
  pre.foldl (fun t p => t.setReg p.1 p.2)
    { ({} : Thread) with
      pc := pc, tvec := t.tvec, posted := t.posted, deferred := t.deferred
      run := if null then .halted else .running }

/-- A hart at the start of iteration `n` (R14, R366): what R366 lists is kept, everything else is as at launch. -/
def Hart.startIter (h : Hart) (l : Launch) (n : Nat) : Hart :=
  let ap := dw l.nest 2 &&& 0x01FF_FFFF_FFFF_FFFF#64
  { h with
    a := h.a.start (sext57 ap) (ap == 0) (l.preloads (dw l.nest 17) (field (dw l.nest 19) 8 6) n)
    e := h.e.start (sext57 (dw l.nest 3)) false (l.preloads (dw l.nest 16) (field (dw l.nest 19) 0 6) n)
    ex := { ({} : EState) with vregs := h.ex.vregs, tile := h.ex.tile }
    ds := false, dsPending := none, ctxbase := h.area
    fetimeout := 1000, vtimeout := 10000, waittimeout := 100000, predeadline := 100
    qs := Vector.replicate 4 [], bo := [], inIter := true, iters := h.iters.drop 1 }

/-- Both sequencers have executed HALT (R15). -/
def Hart.finished (h : Hart) : Bool := h.a.run == .halted && h.e.run == .halted

/-- The hart waits for a hand-out (R366). -/
def Core.freeHart (k : Core) : Bool :=
  k.resident && !k.hart.inIter && k.hart.iters.isEmpty && k.hart.park.isNone

/-- A hart whose hand-out has iterations left, and that is not to park, starts the next of them (R366). -/
def State.nextIter (s : State) (l : Launch) (c : CoreId) : State :=
  let k := s.getCore c
  match k.hart.iters with
  | n :: _ =>
    if k.resident && !k.hart.inIter && k.hart.park.isNone then s.setCore c { k with hart := k.hart.startIter l n } else s
  | [] => s

/-- The cores of a launch's running teams, by TEAMID and HARTID (R366). -/
def State.farm (s : State) (id : Nat) : List CoreId :=
  (s.teams.filter (fun t => decide (t.2.launch = id) && t.2.state == .running)).flatMap
    (fun t => t.2.cores.map (fun k => ⟨t.2.die, t.2.cluster, k⟩))

/-- Hands out iterations to free harts, the lowest first, while the walker has more (R366). -/
def State.handOut (s : State) (id : Nat) : List CoreId → State
  | [] => s
  | c :: cs =>
    match assocFind s.launches id with
    | some l =>
      let k := s.getCore c
      if k.freeHart && l.more then
        let n := min l.chunk (l.total - l.next)
        let s1 := s.setCore c { k with hart := { k.hart with iters := (List.range n).map (· + l.next) } }
        let l' := { l with next := l.next + n }
        ({ s1 with launches := assocSet s1.launches id l' }.nextIter l' c).handOut id cs
      else s.handOut id cs
    | none => s

/-- The generation after a generation: modulo 1,024, 0 skipped (R267). -/
def nextGen (g : Nat) : Nat := if g % 1024 = 1023 then 1 else g % 1024 + 1

/-- The scheduler slots of a team that leaves a cluster are free, each with its next generation, and pin no line (R266, R267,
R282). -/
def State.dropSlots (s : State) (die cluster tid : Nat) : State :=
  let mine (t : TileSlot) : Bool := t.state != .free && t.team == tid
  let slots := (s.cluster die cluster).slots.toList
  let held (p : OpPin) : Bool := decide (p.die = die) && decide (p.cluster = cluster) && mine (slots.getD p.slot {})
  let s1 := { s with dies := s.dies.map (fun (x : Die) => { x with opPins := x.opPins.filter (fun p => !held p) }) }
  s1.setCluster die cluster (fun k => { k with slots := k.slots.map (fun t => if mine t then { gen := nextGen t.gen } else t) })

/-- A team whose harts are all free is released once the walker has nothing left: its cores are free and its areas
return to the save pool; a core without a hart is at a remap point (R255, R354, R366, R370). -/
def State.releaseTeam (s : State) (tid : Nat) : State :=
  match assocFind s.teams tid with
  | some t =>
    let ids : List CoreId := t.cores.map (fun k => ⟨t.die, t.cluster, k⟩)
    let more := match assocFind s.launches t.launch with | some l => l.more | none => false
    if t.state == .running && !more && ids.all (fun c => (s.getCore c).freeHart) then
      let s1 := ids.foldl (fun s c => (s.setCore c { s.getCore c with resident := false }).remapCore c)
        (s.dropSlots t.die t.cluster tid)
      { s1 with
        teams := assocSet s1.teams tid { t with state := .released }
        ctxs := s1.ctxs.map (fun (x : Context) =>
          if x.num = t.ctx then { x with pool := x.pool.filter (fun a => !t.areas.contains a) } else x) }
    else s
  | none => s

/-- The hart's iteration ends once both sequencers have halted: the next one of its hand-out starts, else the hart is
free and takes a new hand-out, else its team may be released (R15, R366). -/
def State.endIter (s : State) (c : CoreId) : State :=
  let k := s.getCore c
  if k.resident && k.hart.inIter && k.hart.finished then
    let s1 := s.setCore c { k with hart := { k.hart with inIter := false } }
    match s1.teamOf k.hart with
    | some t =>
      match assocFind s1.launches t.launch with
      | some l => ((s1.nextIter l c).handOut t.launch (s1.farm t.launch)).releaseTeam k.hart.team
      | none => s1
    | none => s1
  else s

end Sys2Proof.Machine
end

