-- ==== Sys2Proof/Machine/Csr.lean ====
section
/-! DEFINITION. Sys2Proof/Machine/Csr.lean: the control and status registers: which numbers are assigned, what each
reads as, and what a write does to it (R24-R32, R98, R276, R287). -/

namespace Sys2Proof.Machine

/-- The user CSR numbers of scope E (R25). -/
def csrScopeE (n : Nat) : Bool := (decide (n ≤ 0x0F) && n != 0x02) || n == 0x15

/-- The CSR numbers that are assigned (R25, R98). -/
def csrAssigned (n : Nat) : Bool :=
  decide (n ≤ 0x15) || n == 0x20 || n == 0x21 || (decide (0x30 ≤ n) && decide (n ≤ 0x34)) ||
    (decide (0x100 ≤ n) && decide (n ≤ 0x109))

/-- The CSRs whose every field is RO (R24, R27, R98). -/
def csrReadOnly (n : Nat) : Bool :=
  [0x000, 0x001, 0x002, 0x007, 0x010, 0x011, 0x012, 0x013, 0x014, 0x015, 0x020, 0x021, 0x107].contains n

/-- A CSR access is ILL: unassigned, an E-scope CSR from A, a write to a CSR that is all RO, CSRSET or CSRCLR of
BANKROLE (R24, R25, R287). `form` is the FN of the instruction: 0 read, 1 write, 2 set, 3 clear. -/
def csrIll (s : State) (n form : Nat) : Bool :=
  if 0x100 ≤ n && !s.thr.super then false
  else !csrAssigned n || (decide (s.who = .a) && csrScopeE n) || (form != 0 && csrReadOnly n) ||
    (n == 0x108 && decide (2 ≤ form))

/-- The visible clusters of a die: one that leaves counts until its swap ends when none takes its place (R278, R280,
R283). -/
def Die.visible (d : Die) : Nat :=
  let bare := match d.swap with | some w => w.inn.isNone | none => false
  (d.clusters.toList.filter (fun c => c.role == .visible && (!c.leaving || bare))).length

/-- CLCOUNT (R27, R278). -/
def State.clCount (s : State) : Nat := s.dies.toList.foldl (fun acc d => acc + d.visible) 0

/-- PFXS as a word (R27). -/
def Pfx.toNat (p : Pfx) : Nat :=
  p.pend.toNat * 2 ^ 16 + p.pm.toNat * 2 ^ 10 + p.inv.toNat * 2 ^ 9 + p.vc.toNat * 2 ^ 4 + p.ce.toNat * 8 +
    p.pe.toNat * 4 + p.lua.toNat * 2 + p.lub.toNat

/-- PFXS from a word (R27). -/
def pfxOf (v : Word) : Pfx :=
  { pend := bit v 16, pm := BitVec.ofNat 6 (field v 10 6), inv := bit v 9, vc := BitVec.ofNat 5 (field v 4 5)
    ce := bit v 3, pe := bit v 2, lua := bit v 1, lub := bit v 0 }

/-- TSTATUS of a thread (R98). -/
def Thread.tstatus (t : Thread) : Nat :=
  t.tmt.toNat * 256 + t.busy.toNat * 8 + t.super.toNat * 4 + t.pfxp.toNat * 2 + t.plvl.toNat

/-- BANKROLE of a die (R287). -/
def Die.bankRole (d : Die) : Nat :=
  d.bankSel.toNat * 2 ^ 63 + d.bankBusy.toNat * 2 ^ 62 +
    (List.range 16).foldl
      (fun acc k => acc + (d.roles.toList.getD (k + (if d.bankSel then 16 else 0)) 0).toNat * 2 ^ (3 * k)) 0

/-- The value of a CSR as a number (R27, R98, R276, R287); CORELID and TEAMID give the number of R367 whole, also one that
passes their field (DESIGN CHOICE, notes/assumptions/65.md). -/
def csrGet (s : State) (n : Nat) : Nat :=
  let h := s.hart
  let x := s.est
  let t := s.thr
  match n with
  | 0x000 => x.vl
  | 0x001 => vlmaxOf h s.who
  | 0x002 => (s.die s.loc.die).gvl
  | 0x003 => x.ew.toNat
  | 0x004 => x.esel.toNat * 2 ^ 16 + x.fmt.toNat
  | 0x005 => x.vstart.toNat
  | 0x006 => x.vrstate.toNat
  | 0x007 => x.msdepth
  | 0x008 => x.pfx.toNat
  | 0x009 => x.ccnt.toNat
  | 0x00A => x.seamctl.toNat
  | 0x00B => x.sampstat.toNat
  | 0x00C => x.esel.toNat
  | 0x00D => x.tilecols * 2 ^ 10 + x.tilerows
  | 0x00E => x.fstat.toNat
  | 0x00F => x.rcls.toNat
  | 0x010 => h.hartid
  | 0x011 => h.teamid
  | 0x012 => h.teamsize
  | 0x013 => s.clCount
  | 0x014 => h.corelid
  | 0x015 => (mtidOf s.who).toNat
  | 0x020 => s.gts
  | 0x021 => h.cycles
  | 0x030 => (h.dsPending.getD h.ds).toNat
  | 0x031 => h.fetimeout.toNat
  | 0x032 => h.vtimeout.toNat
  | 0x033 => h.waittimeout.toNat
  | 0x034 => h.predeadline.toNat
  | 0x100 => t.tcause.toNat
  | 0x101 => t.tval.toNat
  | 0x102 => (t.tpc &&& 0x01FF_FFFF_FFFF_FFFC#64).toNat
  | 0x103 => (h.tvecOf s.who &&& 0x81FF_FFFF_FFFF_FFFC#64).toNat
  | 0x104 => t.tstatus
  | 0x105 => t.tkeep.toNat
  | 0x106 => h.ctxbase % 2 ^ 52 / 2 ^ 16 * 2 ^ 16
  | 0x107 => s.loc.die % 8 * 2 ^ 16 + s.loc.cluster % 128 * 2 ^ 9 + s.loc.core % 8
  | 0x108 => (s.die s.loc.die).bankRole
  | 0x109 =>
    let k := s.cluster s.loc.die s.loc.cluster
    k.eff.toNat * 2 ^ 32 + (s.limOf k).toNat * 2 ^ 16 + k.pattern.toNat
  | _ => 0

/-! ## Double-stitch mode (R30) -/

/-- A plane whose primary half stands in its mirror half too. -/
def mirrorCopy (p : Plane) : Plane := BitVec.ofNat 16384 (p.toNat % 2 ^ 8192 * (2 ^ 8192 + 1))

/-- The lane state of a hart with the primary halves copied into the mirrors (R30). -/
def Hart.mirrorAll (h : Hart) : Hart :=
  { h with
    ex := { h.ex with
      vregs := h.ex.vregs.map (fun v => { v with planes := v.planes.map mirrorCopy })
      pending := h.ex.pending.map (fun p =>
        { p with planes := p.planes.map mirrorCopy, perRow := p.perRow.map mirrorCopy }) }
    preds := h.preds.map mirrorCopy, levels := h.levels.map mirrorCopy, seam := mirrorCopy h.seam
    slice := h.slice.map mirrorCopy, pool := h.pool.map (fun x => (x.1, mirrorCopy x.2))
    scales := h.scales.map (fun e => e.take 256 ++ e.take 256) }

/-- MODE.DS takes a value: the copies of R30, and VL bounded by the new VLMAX. -/
def Hart.setDs (h : Hart) (v : Bool) : Hart :=
  let h1 := if v then h.mirrorAll else h
  { h1 with ds := v, dsPending := none, ex := { h1.ex with vl := min h1.ex.vl (if v then 8192 else 16384) } }

/-- A mark and its mirror's. -/
def mirrorMark (m : Nat × Nat) : List (Nat × Nat) := [(m.1, m.2 % 8192), (m.1, m.2 % 8192 + 8192)]

/-- The registers of the hart on a core that lie in the backing area take their mirror copies there; what is lost of one is
lost of both (R30, R350). -/
def State.mirrorSpilled (s : State) (c : CoreId) : State :=
  let h := (s.getCore c).hart
  (List.range 32).foldl (fun s r =>
    let v := h.ex.vregs.toList.getD r {}
    if v.inPool then s
    else
      let all := BitVec.allOnes 16384
      let lost := s.poisonMarks (List.range v.planes.length) (h.regSlot r) all
      let s1 := s.putRows all ((s.getRows v.planes.length (h.regSlot r)).map mirrorCopy) (h.regSlot r)
      let k := s1.getCore c
      let x := k.hart.ex
      let vs := if hr : r < 32 then x.vregs.set r { v with marks := v.marks ++ lost.flatMap mirrorMark } else x.vregs
      s1.setCore c { k with hart := { k.hart with ex := { x with vregs := vs } } }) s

/-- MODE.DS of the hart on a core takes a value (R30). -/
def State.setDs (s : State) (c : CoreId) (v : Bool) : State :=
  let s1 := if v then s.mirrorSpilled c else s
  let k := s1.getCore c
  s1.setCore c { k with hart := k.hart.setDs v }

/-- A write of MODE.DS by A that has retired takes effect on the hart of a core, if there is one and E is not split (R30). -/
def State.applyDs (s : State) (c : CoreId) : State :=
  let h := (s.getCore c).hart
  match h.dsPending with
  | some v => if h.split = 0 then s.setDs c v else s
  | none => s

/-! ## Writes (R28, R30, R80) -/

/-- A format code that FMT accepts, else the old one (R28). -/
def fmtField (old new : Nat) : Nat := if new ≤ 10 then new else old

/-- FMT's three codes after a write (R28). -/
def fmtWrite (old : BitVec 12) (v : Nat) : BitVec 12 :=
  BitVec.ofNat 12 (fmtField (old.toNat % 16) (v % 16) + 16 * fmtField (old.toNat / 16 % 16) (v / 16 % 16) +
    256 * fmtField (old.toNat / 256) (v / 256 % 16))

/-- A field in 1 to `limit`, else the old one (R28). -/
def boundedField (old new limit : Nat) : Nat := if 1 ≤ new && new ≤ limit then new else old

/-- BANKROLE written: SEL first, then the roles of that half; a change of role sets BUSY (R287). -/
def Die.writeRoles (d : Die) (v : Word) : Die :=
  let base := if bit v 63 then 16 else 0
  let news := (List.range 16).filterMap (fun k =>
    let r := BitVec.ofNat 3 (field v (3 * k) 3)
    if r.toNat ≤ 4 && d.roles.toList.getD (base + k) 0 != r then some (base + k, r) else none)
  { d with bankSel := bit v 63, bankBusy := !news.isEmpty, newRoles := news }

/-- The state with a CSR's RW fields taken from a value; W1C registers hold the value as given (R27, R28, R80, R98). -/
def csrPut (s : State) (n : Nat) (v : Word) : State :=
  let h := s.hart
  let x := s.est
  let t := s.thr
  match n with
  | 0x003 => s.setEst { x with ew := v.setWidth 16 }
  | 0x004 => s.setEst { x with esel := BitVec.ofNat 12 (field v 16 12), fmt := fmtWrite x.fmt (field v 0 12) }
  | 0x005 => s.setEst { x with vstart := v.setWidth 15, pending := if field v 0 15 = 0 then none else x.pending }
  | 0x006 => s.setEst { x with vrstate := v }
  | 0x008 => s.setEst { x with pfx := pfxOf v }
  | 0x009 => s.setEst { x with ccnt := v.setWidth 15 }
  | 0x00A => s.setEst { x with seamctl := v.setWidth 6 }
  | 0x00B => s.setEst { x with sampstat := v.setWidth 2 }
  | 0x00C => s.setEst { x with esel := v.setWidth 12 }
  | 0x00D => s.setEst { x with
      tilerows := boundedField x.tilerows (field v 0 10) 512, tilecols := boundedField x.tilecols (field v 10 9) 256 }
  | 0x00E => s.setEst { x with fstat := v.setWidth 4 }
  | 0x00F => s.setEst { x with rcls := v.setWidth 2 }
  | 0x030 =>
    if s.who = .a then s.setHart { h with dsPending := some (bit v 0) } else (s.applyDs s.loc).setDs s.loc (bit v 0)
  | 0x031 => s.setHart { h with fetimeout := v.setWidth 32 }
  | 0x032 => s.setHart { h with vtimeout := v.setWidth 32 }
  | 0x033 => s.setHart { h with waittimeout := v.setWidth 32 }
  | 0x034 => s.setHart { h with predeadline := BitVec.ofNat 32 (min 1000 (field v 0 32)) }
  | 0x100 => s.setThr { t with tcause := v.setWidth 8 }
  | 0x101 => s.setThr { t with tval := v }
  | 0x102 => s.setThr { t with tpc := v &&& 0x01FF_FFFF_FFFF_FFFC#64 }
  | 0x103 =>
    let tvec := v &&& 0x81FF_FFFF_FFFF_FFFC#64
    if s.who = .a then s.setHart { h with a := { h.a with tvec := tvec } }
    else s.setHart { h with e := { h.e with tvec := tvec } }
  | 0x104 => s.setThr { t with busy := bit v 3, pfxp := bit v 1, plvl := bit v 0 }
  | 0x105 => s.setThr { t with tkeep := v }
  | 0x106 => s.setHart { h with ctxbase := field v 16 36 * 2 ^ 16 }
  | 0x108 => s.setDie s.loc.die (fun d => d.writeRoles v)
  | 0x109 =>
    s.setCluster s.loc.die s.loc.cluster
      (fun k => { k with pattern := if field v 0 16 = 0 then k.pattern else v.setWidth 16 })
  | _ => s

/-- A W1C register: FSTAT and SAMPSTAT (R27). -/
def csrW1C (n : Nat) : Bool := n == 0x00B || n == 0x00E

/-- The value a form stores, from the old one and the source (R80). -/
def csrValue (n form : Nat) (old v : Word) : Word :=
  if csrW1C n then (if form = 3 then old else old &&& ~~~v)
  else
    match form with
    | 1 => v
    | 2 => old ||| v
    | _ => old &&& ~~~v

/-- Issues an instruction that R37's last checks may make ILL before any source is read. -/
def issueIll (w : BitVec 32) (ill : State → Bool) (srcs : List (BitVec 5 × BitVec 1)) (s : State)
    (body : State → Res) : Out :=
  if s.core.resident && ill s then .next (finish (.trap s .ill (w.setWidth 64))) else issue w srcs s body

/-- CSRWR, CSRSET and CSRCLR (R30, R80, R287). -/
def csrWrite (w : BitVec 32) (form : Nat) (c : BitVec 12) (a : BitVec 5) (s : State) : Out :=
  let n := c.toNat
  issueIll w (fun s => csrIll s n form) [(a, 0)] s (fun s =>
    if n = 0x030 && s.hart.split ≠ 0 then .trap s .splitIll (w.setWidth 64)
    else if n = 0x108 && (s.die s.loc.die).bankBusy then .stall s
    else .adv (csrPut s n (csrValue n form (word (csrGet s n)) (s.thr.reg a))))

end Sys2Proof.Machine
end

