-- ==== Sys2Proof/Machine/Eng.lean ====
section
/-! DEFINITION. Sys2Proof/Machine/Eng.lean: data queues, spool instructions, and the issue of Bobbin, remote-copy and migration commands (R94, R236-R239, R243, R378, R398). -/

namespace Sys2Proof.Machine

/-! ## Spool descriptors (R233-R236) -/

/-- A bound affine read spool with AEN = 0, fit to supply indices (R234). -/
def Spool.givesIndices (p : Spool) : Bool := p.bound && p.kind == 0 && !p.aen

/-- A descriptor that SPBIND refuses with fault code 7 (R236; its reserved fields against R9: DEDUCED,
notes/assumptions/70.md). -/
def spoolBad (h : Hart) (n : Nat) (d : List Word) : Bool :=
  let p : Spool := { bound := true, desc := d }
  field (dw d 0) 59 5 != 0 || field (dw d 0) 23 33 != 0 || field (dw d 1) 57 7 != 0 || field (dw d 6) 32 32 != 0 ||
    dw d 7 != 0 || physBad p.phys (dw d 1) ||
    p.cnt 0 == 0 || (p.cnt 1 == 0 && !p.isIndirect) || p.cnt 2 == 0 || p.cnt 3 == 0 ||
    (p.trans && (p.isIndirect || p.ndim != 0)) ||
    (p.isIndirect && (p.ispool == n || !(h.spool p.ispool).givesIndices)) ||
    (p.aen && (List.range 16).any (fun m =>
      decide (m ≠ n) && (h.spool m).bound && (h.spool m).aen && (h.spool m).aliasReg == p.aliasReg))

/-- SPSTAT's value (R239). -/
def Spool.status (p : Spool) : Word :=
  let low := if 1 ≤ p.code.toNat && p.code.toNat ≤ 6 then p.faddr.toNat % 2 ^ 57 else p.pos % 2 ^ 57
  word (p.bound.toNat * 2 ^ 63 + p.isWrite.toNat * 2 ^ 62 + p.aen.toNat * 2 ^ 61 + p.code.toNat * 2 ^ 57 + low)

/-! ## Engine commands (R243, R398) -/

/-- Two ranges of bytes overlap. -/
def overlaps (a b : Word × Nat) : Bool :=
  a.2 != 0 && b.2 != 0 && decide (a.1.toNat < b.1.toNat + b.2) && decide (b.1.toNat < a.1.toNat + a.2)

/-- A range of bytes whose start lies in the core window as its bytes lie in part HARTID of the cluster window, where they are
the same (R215). -/
def asCluster (hartid : Nat) (r : Word × Nat) : Word × Nat :=
  let o := r.1.toNat - windowBase
  if windowBase ≤ r.1.toNat && o < 0x1_8000 then
    (word (windowBase + 0x10_0000 + 0x2_0000 * hartid + o), min r.2 (0x1_8000 - o))
  else r

/-- Source and destination of a Bobbin command name a byte in common, by its address or through both windows (R215, R243). -/
def copiesOver (hartid : Nat) (d : List Word) : Bool :=
  overlaps (bSource d) (bDest d) ||
    (!bPhys d && overlaps (asCluster hartid (bSource d)) (asCluster hartid (bDest d)))

/-- A descriptor that BCOPY of a hart refuses (R235, R243; its reserved fields against R9: DEDUCED,
notes/assumptions/70.md). -/
def bobbinBad (hartid : Nat) (d : List Word) : Bool :=
  decide (5 < bOp d) || field (dw d 0) 59 5 != 0 || field (dw d 0) 24 32 != 0 || field (dw d 0) 14 2 != 0 ||
    field (dw d 0) 4 5 != 0 || field (dw d 1) 57 7 != 0 || field (dw d 2) 57 7 != 0 || field (dw d 3) 32 32 != 0 ||
    field (dw d 4) 57 7 != 0 || field (dw d 5) 14 50 != 0 || dw d 6 != 0 || dw d 7 != 0 ||
    physBad (bPhys d) (dw d 1) || physBad (bPhys d) (dw d 2) || physBad (bPhys d) (dw d 4) ||
    (bSlice d && (decide (16384 < bLane0 d + bCount d) || decide (256 < bRow0 d + bWidth d))) ||
    copiesOver hartid d

/-- A descriptor that XCOPY refuses (R397, R398; its reserved fields against R9: DEDUCED, notes/assumptions/70.md). -/
def xcopyBad (d : List Word) : Bool :=
  decide (1 < xOp d) || field (dw d 0) 59 5 != 0 || field (dw d 0) 20 36 != 0 || field (dw d 1) 57 7 != 0 ||
    field (dw d 2) 57 7 != 0 || field (dw d 3) 40 24 != 0 || field (dw d 4) 16 48 != 0 || dw d 5 != 0 || dw d 6 != 0 ||
    dw d 7 != 0 || physBad (xPhys d) (dw d 1) || (decide (4 ≤ xPort d) && decide (xPort d ≤ 14)) || xCount d == 0 ||
    field (dw d 1) 0 4 != 0 || field (dw d 2) 0 4 != 0 || field (dw d 3) 0 4 != 0

/-- The ticket after a ticket: modulo 2^16, 0 skipped (R243). -/
def ticketAfter (t : BitVec 16) : BitVec 16 := if t + 1 = 0 then 1 else t + 1

/-- A core with a command added to its Bobbin engine's, or to those it has given the link engines. -/
def Core.addCommand (k : Core) (link : Bool) (x : EngCmd) : Core :=
  if link then { k with xcopy := k.xcopy ++ [x] } else { k with bobbin := k.bobbin ++ [x] }

/-- An engine instruction's end: the ticket is written and the command joins the core's list of at most 8 for Bobbin, 4 for
XCOPY (R243, R398). -/
def issueCommand (s : State) (d : BitVec 5) (desc : List Word) (link : Bool) : Res :=
  let h := s.hart
  if (if link then 4 else 8) ≤ (if link then s.core.xcopy else s.core.bobbin).length || s.thr.pendingReg [d] then .stall s
  else
    let k : EngCmd :=
      { ticket := h.nextTicket, desc := desc, super := s.thr.super, who := s.who
        team := h.team, hartid := h.hartid, ctx := h.ctx }
    let s1 := { s with core := { s.core.addCommand link k with
      hart := { h with nextTicket := ticketAfter h.nextTicket } } }
    .adv (s1.setThr (s1.thr.setReg d (h.nextTicket.setWidth 64)))

/-! ## Page migration requests (R378, R379) -/

/-- The tier of a frame: 0 HBM4, 1 LPDDR-6 (R375). -/
def tierOf (pa : Nat) : Nat := if pa < 0x100_0000_0000 then 0 else 1

/-- A leaf found by a walk that leaves no trace: where it lies, its entry and its page size. -/
def leafOf (s : State) (ctx : Nat) (va : Word) : Walk :=
  match s.rootOf ctx with
  | some root => walkFrom s.mem (va.toNat % 2 ^ 57) walkLevels root
  | none => .none

/-- MIGRATE_DONE for a request (R379). -/
def State.migDone (s : State) (r : MigReq) (status tier : Nat) : State :=
  if !r.notify then s
  else
    let base := match leafOf s r.ctx r.va with
      | .leaf _ _ size => r.va.toNat / size * size
      | .none => r.va.toNat / 0x1_0000 * 0x1_0000
    s.postHart r.team r.hart r.core (mkRec s 8 0x8004 (word (base % 2 ^ 57))
      (word (tier + status * 2 ^ 8 + r.ctx % 2 ^ 16 * 2 ^ 32)))

/-- The tier that holds the page of a request now. -/
def State.tierNow (s : State) (r : MigReq) : Nat :=
  match leafOf s r.ctx r.va with
  | .leaf _ e _ => tierOf (field e 8 44 * 256)
  | .none => 0

/-- A request joins the engine's list; with 64 held the oldest is dropped with status 3 (R378). -/
def State.migPost (s : State) (r : MigReq) : State :=
  match s.mig.reqs with
  | old :: rest =>
    if 64 ≤ s.mig.reqs.length then
      let s1 := { s with mig := { s.mig with reqs := rest ++ [r] } }
      s1.migDone old 3 (s1.tierNow old)
    else { s with mig := { s.mig with reqs := s.mig.reqs ++ [r] } }
  | [] => { s with mig := { s.mig with reqs := [r] } }

/-- QPUSH: Appends gs to a data queue, waiting while the queue is full. On a queue of the other sequencer a micro-thread
raises ILL, not SPLIT_ILL: R93, R94 and R209 give no order (DESIGN CHOICE, notes/assumptions/24.md). (R94) -/
def execQpush (q : BitVec 2) (sf : BitVec 5) (s : State) : Out :=
  issueIll (wQ 23 (0#3 ++ q) sf 0 0) (fun s => (s.who = .a) != decide (q.toNat ≤ 1)) [(sf, 0)] s (fun s => notSplit (wQ 23 (0#3 ++ q) sf 0 0) s (fun s =>
    let l := s.hart.qs[q.toNat]'q.isLt
    if 64 ≤ l.length then waitOn s .queue 1 q.toNat
    else .adv (s.setHart { s.hart with qs := s.hart.qs.set q.toNat (l ++ [s.thr.reg sf]) q.isLt })))

/-- QPOP: Marks gd empty and fills it with the head of a data queue when an entry is present; in a micro-thread the order of
ILL and SPLIT_ILL is that of QPUSH (DESIGN CHOICE, notes/assumptions/24.md). (R94) -/
def execQpop (d : BitVec 5) (q : BitVec 2) (s : State) : Out :=
  issueIll (wQ 23 d (0#3 ++ q) 0 1) (fun s => (s.who = .a) != decide (2 ≤ q.toNat)) [] s (fun s => notSplit (wQ 23 d (0#3 ++ q) 0 1) s (fun s =>
    if s.thr.pendingReg [d] || !s.thr.fillRoom then .stall s else .adv (s.startFill [d] (.queue q))))

/-- SPBIND: Binds a spool to a checked copy of a descriptor and starts prefetching. (R236) -/
def execSpbind (n : BitVec 4) (a : BitVec 5) (s : State) : Out :=
  issue (wQ 23 (0#1 ++ n) a 0 2) [(a, 0)] s (fun s => readDesc s (s.thr.reg a) 64 (fun s desc =>
    if privFields desc && !s.thr.super then .trap s .priv ((wQ 23 (0#1 ++ n) a 0 2).setWidth 64)
    else
      let h := s.hart.setSpool n.toNat {}
      if spoolBad h n.toNat desc then
        .trap (s.setHart (h.setSpool n.toNat { code := 7 })) .spoolFault (spoolVal n.toNat 0)
      else .adv (s.setHart (h.setSpool n.toNat
        { bound := true, desc := desc, super := s.thr.super, ibase := (h.spool (field (dw desc 0) 19 4)).pos }))))

/-- SPUNB: Drains a write spool, discards prefetched elements and unbinds the spool. (R239) -/
def execSpunb (n : BitVec 4) (s : State) : Out :=
  issue (wQ 23 (0#1 ++ n) 0 0 3) [] s (fun s =>
    if (s.hart.spool n.toNat).bound then .adv (s.setHart (s.hart.setSpool n.toNat {})) else .adv s)

/-- SPDRAIN: Appended elements are performed when they are appended, so the wait of SPDRAIN ends at once. (R239) -/
def execSpdrain (n : BitVec 4) (s : State) : Out :=
  issue (wQ 23 (0#1 ++ n) 0 0 4) [] s (fun s => .adv s)

/-- SPSTAT: Writes a spool's binding state, fault code and position or faulting address to gd. (R239) -/
def execSpstat (d : BitVec 5) (n : BitVec 4) (s : State) : Out :=
  issue (wQ 23 d (0#1 ++ n) 0 5) [] s (fun s => writeReg s d (s.hart.spool n.toNat).status)

/-- BCOPY: Checks a Bobbin descriptor, waits for a free command place and issues the command, returning its ticket. (R243) -/
def execBcopy (d a : BitVec 5) (s : State) : Out :=
  issue (wQ 23 d a 0 6) [(a, 0)] s (fun s => readDesc s (s.thr.reg a) 64 (fun s desc =>
    if privFields desc && !s.thr.super then .trap s .priv ((wQ 23 d a 0 6).setWidth 64)
    else if bobbinBad s.hart.hartid desc then .trap s .engineFault (s.hart.nextTicket.setWidth 64)
    else issueCommand s d desc false))

/-- XCOPY: Checks a remote-copy descriptor, waits for a free command place and issues it to a link engine, returning its ticket. (R398) -/
def execXcopy (d a : BitVec 5) (s : State) : Out :=
  issue (wQ 23 d a 0 7) [(a, 0)] s (fun s => notSplit (wQ 23 d a 0 7) s (fun s => readDesc s (s.thr.reg a) 64 (fun s desc =>
    if privFields desc && !s.thr.super then .trap s .priv ((wQ 23 d a 0 7).setWidth 64)
    else if xcopyBad desc then .trap s .engineFault (s.hart.nextTicket.setWidth 64)
    else issueCommand s d desc true)))

/-- PGMIG: Checks and posts a page-migration request to the migration engine. (R378) -/
def execPgmig (a b : BitVec 5) (s : State) : Out :=
  issue (wQ 23 0 a b 13) [(a, 0), (b, 0)] s (fun s =>
    let va := s.thr.reg a
    let r := s.thr.reg b
    if !canonical va then .trap s .xlate va
    else if 1 < field r 0 2 then .trap s .engineFault 0
    else if bit r 63 && decide (field r 32 16 ≠ s.hart.ctx) && !s.thr.super then .trap s .priv ((wQ 23 0 a b 13).setWidth 64)
    else if s.held false then .stall s
    else .adv (s.migPost
      { va := va, ctx := if bit r 63 then field r 32 16 else s.hart.ctx, tier := BitVec.ofNat 2 (field r 0 2)
        notify := bit r 62, core := s.loc, team := s.hart.team, hart := s.hart.hartid, user := !s.thr.super }))

end Sys2Proof.Machine
end

