-- ==== Sys2Proof/Machine/Operands.lean ====
section
/-! DEFINITION. Sys2Proof/Machine/Operands.lean: the operand forms of vector instructions: effective widths (R110),
sources read at them (R111, R146, R151), the destination under masks (R49, R113, R118, R119, R237), and the frame of a
vector instruction that records no VSTART. -/

namespace Sys2Proof.Machine

/-! ## Widths (R27 EW, FMT; R110) -/

def EState.wa (x : EState) : Nat := (x.ew.extractLsb' 0 4).toNat + 1
def EState.wb (x : EState) : Nat := (x.ew.extractLsb' 4 4).toNat + 1
def EState.wd (x : EState) : Nat := (x.ew.extractLsb' 8 5).toNat + 1
def EState.sa (x : EState) : Bool := x.ew.getLsbD 13
def EState.sb (x : EState) : Bool := x.ew.getLsbD 14
def EState.sd (x : EState) : Bool := x.ew.getLsbD 15
def EState.fa (x : EState) : Nat := (x.fmt.extractLsb' 0 4).toNat
def EState.fb (x : EState) : Nat := (x.fmt.extractLsb' 4 4).toNat
def EState.fd (x : EState) : Nat := (x.fmt.extractLsb' 8 4).toNat

/-- The width of a format code; 0 for INT, which takes the width of EW (R110). -/
def fmtWidth : Nat → Nat
  | 1 => 32 | 2 => 16 | 3 => 16 | 4 => 8 | 5 => 8 | 6 => 6 | 7 => 6 | 8 => 4 | 9 => 2 | 10 => 8 | _ => 0

/-- The effective widths of the float families (R110). -/
def EState.fwa (x : EState) : Nat := if x.fa = 0 then x.wa else fmtWidth x.fa
def EState.fwb (x : EState) : Nat := if x.fb = 0 then x.wb else fmtWidth x.fb
def EState.fwd (x : EState) : Nat := if x.fd = 0 then x.wd else fmtWidth x.fd

/-! ## A vector instruction's operands -/

/-- What a vector instruction has read: its sources, the spool its destination names, its active elements. -/
structure VIn where
  a : VSrc := {}
  b : VSrc := {}
  dst : Option Nat := none
  act : List Nat := []
  base : Nat := 0
  deriving DecidableEq, Repr

/-- The raw bits of side A at an element, at a width (R111). -/
def VIn.rawA (i : VIn) (w : Nat) (signed : Bool) (j : Nat) : Nat := rawAt (i.base + j) (i.a.at w signed)

/-- The raw bits of side B at an element, at a width (R111). -/
def VIn.rawB (i : VIn) (w : Nat) (signed : Bool) (j : Nat) : Nat := rawAt (i.base + j) (i.b.at w signed)

/-- A table of side A's raw bits, read once for a list of elements. -/
def VIn.tabA (i : VIn) (w : Nat) (signed : Bool) (js : List Nat) : List (Nat × Nat) :=
  let ps := i.a.at w signed
  js.map (fun j => (j, rawAt (i.base + j) ps))

/-- The raw bits of the old destination at an element; a write spool reads as 0 (R146, R237). -/
def rawD (s : State) (i : VIn) (vd : BitVec 5) (w : Nat) (signed : Bool) (j : Nat) : Nat :=
  if i.dst.isSome then 0 else rawAt (i.base + j) (planesAt (s.est.vreg vd).planes w signed)

/-- The destination field names a write spool, a register, or a read spool, which is the wrong kind (R237). -/
def withDst (s : State) (vd : Option (BitVec 5)) (k : Option Nat → Res) : Res :=
  match vd with
  | none => k none
  | some r =>
    match aliasOf s.hart s.who r with
    | none => k none
    | some n => if (s.hart.spool n).isWrite then k (some n) else wrongKind s n

/-- The registers that vector fields name, spool aliases left out. -/
def plainRegs (s : State) (rs : List (Option (BitVec 5))) : List (BitVec 5) :=
  (rs.filterMap id).filter (fun r => (aliasOf s.hart s.who r).isNone)

/-- The word has the effective widths of the float families (R110). -/
def floatWord (w : BitVec 32) : Bool :=
  let m := major w
  let fn := (bits w 0 5).toNat
  m == 0x20 || m == 0x21 || (m == 0x1F && fn == 3) || (m == 0x1E && decide (7 ≤ fn)) ||
    (m == 0x1C && decide (11 ≤ (bits w 0 4).toNat)) || (m == 0x22 && (fn == 10 || fn == 11))

/-- The widths at which a word's instruction reads va (vs of a store) and vb, and writes vd: the effective widths of R110 but
where its own rule reads less or otherwise: VSSA and the amounts of VSHL and VSHR (R148, R149), VMOV (R153), FCVTI, FCVTF and FSCL
(R181), an index register, which is read whole (R224), and PGCNT's tokens (R204). -/
def sideWidths (x : EState) (w : BitVec 32) : Nat × Nat × Nat :=
  let m := major w
  let fn := (bits w 0 5).toNat
  let f := floatWord w
  let d := if f && !(m == 0x20 && fn == 9) then x.fwd else x.wd
  let a := if m == 0x22 || (m == 0x1A && fn == 0) then d else if f && !(m == 0x20 && fn == 10) then x.fwa else x.wa
  let b :=
    if m == 0x22 then 32
    else if m == 0x26 then 20
    else if m == 0x18 && fn == 5 then 2
    else if m == 0x18 && (fn == 12 || fn == 13) then min x.wb 5
    else if f && !(m == 0x20 && fn == 13) then x.fwb else x.wb
  (a, b, d)

/-- How the lanes take part in an instruction: its word, whether its class is one whose results they check (R248), the predicate
of its mask or of its selection, further rows that it reads, the elements whose sources it reads if they are not its active ones,
and the elements that it computes if they are not. -/
structure LaneKind where
  word : BitVec 32 := 0
  checked : Bool := true
  pm : BitVec 6 := 0
  rows : List Nat := []
  src : Option (List Nat) := none
  out : Option (List Nat) := none

/-- The mask's rows that an instruction reads: its predicate's, a lent predicate's, the top level's (R107, R118). -/
def maskRows (x : EState) (pm : BitVec 6) : List Nat :=
  (if pm = 0 then [] else [predRow pm]) ++
    (if x.pfx.pend && x.pfx.pe && x.pfx.pm != 0 then [predRow x.pfx.pm] else []) ++
    (if x.msdepth = 0 || 16 < x.msdepth then [] else [levelRow x.msdepth])

/-- What the lanes of an instruction read: va and vb, vd as D in an accumulating form, the bits that vd and a copy keep,
and the mask's rows (R49, R119, R249). -/
def laneUse (s : State) (kind : LaneKind) (va vb vd : Option (BitVec 5)) (acc : Bool) (act : List Nat) : LaneUse :=
  let w := sideWidths s.est kind.word
  let out := kind.out.getD act
  let side (r : Option (BitVec 5)) (n : Nat) : List (BitVec 5 × Nat) := (plainRegs s [r]).map (fun r => (r, n))
  { regs := side va w.1 ++ side vb w.2.1 ++ (if acc then side vd w.2.2 else [])
    kept := (plainRegs s [vd]).map (fun r => (r, w.2.2, out)) ++
      (if s.est.pfx.pend && s.est.pfx.ce then [(s.est.pfx.vc, w.2.2, act)] else [])
    rows := maskRows s.est kind.pm ++ kind.rows, src := kind.src.getD act, act := out }

/-- Translates the positions of a write spool that some elements take, before the last trap point; a position that
fails stops the instruction before it begins (R238). -/
def withWrites (s : State) (dst : Option Nat) (js : List Nat) (k : State → Res) : Res :=
  match dst with
  | none => k s
  | some n =>
    match checkWrites s s.loc n 0 js with
    | .stall _ _ => .stall s
    | .bad _ e s' => spoolTrap s' n 0 e
    | .ok s' => k s'

/-- The elements that take positions of a write spool: the active ones, and those that MXBDOT computes whatever their mask (R190,
R237, R238; DESIGN CHOICE, notes/assumptions/58.md). -/
def LaneKind.positions (kind : LaneKind) (s : State) (act : List Nat) : List Nat :=
  match kind.out with
  | none => act
  | some out => (List.range s.est.vl).filter (fun j => act.contains j || out.contains j)

/-- Reads the operands of a vector instruction with an effective mask, in the order: spool kinds and presence (R237),
active elements of spools that are marked faulted, which stop the instruction before it begins (R238), the lanes' checks
(R146, R249-R253). `acc` says that vd is read too, as D. -/
def vreadAll (s : State) (kind : LaneKind) (va vb vd : Option (BitVec 5)) (acc : Bool) (act : List Nat)
    (k : State → VIn → Res) : Res :=
  withSrc s 0 va (fun a => withSrc s 0 vb (fun b => withDst s vd (fun dst =>
    match firstFault [a, b] act with
    | some (_, n, e) => spoolTrap s n 0 e
    | none =>
      withWrites s dst (kind.positions s act) (fun s => lanesThen s kind.checked (laneUse s kind va vb vd acc act) (fun s =>
        k s { a := a, b := b, dst := dst, act := act, base := laneBase s.hart s.who })))))

/-- The active elements of the thread in focus under a predicate (R118). -/
def actives (s : State) (pm : BitVec 6) : List Nat := activeJs s.hart s.est (laneBase s.hart s.who) pm

/-- The registers a PFX marked as last used are freed once they have been read (R49). -/
def freeLast (x : EState) (va vb : Option (BitVec 5)) : EState :=
  let y := if x.pfx.pend && x.pfx.lua then (match va with | some r => x.freeReg r | none => x) else x
  if x.pfx.pend && x.pfx.lub then (match vb with | some r => y.freeReg r | none => y) else y

/-- The vector instruction has completed: the prefix is used up, flags are added, and the strips it read are consumed
(R49, R133, R237). -/
def vdone (s : State) (i : VIn) (flags : BitVec 4) : State :=
  let x := s.est
  let s1 := s.setEst { x with fstat := x.fstat ||| flags, pfx := { x.pfx with pend := false } }
  s1.consume (srcSpools [i.a, i.b]) x.vl

/-- Commits planes to a register of the thread in focus, in rows chosen before (R113). -/
def State.commitReg (s : State) (r : BitVec 5) (ps : List Plane) (sd : Bool) (rows : List Nat) : State :=
  s.setHart (s.hart.commitReg s.who r ps sd rows)

/-- The destination copy of a PFX: the elements of the mask take vd's new bits (R49). Where vd names a write spool, an
active element that the result does not write takes 0 (DESIGN CHOICE, notes/assumptions/21.md). -/
def copyDst (s : State) (i : VIn) (vd : BitVec 5) (ps : List Plane) (wd : Nat) (sd : Bool) (rows : List Nat) : State :=
  let x := s.est
  if x.pfx.pend && x.pfx.ce && !(x.pfx.vc == vd && i.dst.isNone) then
    let old := keptPlanes (x.vreg x.pfx.vc) wd sd
    let mask := mirrored s.hart (laneSet i.base i.act)
    s.commitReg x.pfx.vc (old.mapIdx (fun b p => mergePlane p (ps.getD b 0) mask)) sd rows
  else s

/-- Writes elements to a vector destination under R119, register or write spool, and completes the instruction. `res`
lists the elements written with their WD bits. The fresh rows of vd and of a copy are taken while those of the sources are
still allocated (R113, R249). -/
def vwrite (s : State) (i : VIn) (va vb : Option (BitVec 5)) (vd : BitVec 5) (wd : Nat) (sd : Bool)
    (res : List (Nat × Nat)) (flags : BitVec 4) : Res :=
  let rows := s.est.freshRows (2 * wd)
  let s1 := s.setEst (freeLast s.est va vb)
  match i.dst with
  | none =>
    let ps := writeElems s.hart i.base (keptPlanes (s1.est.vreg vd) wd sd) res
    .adv (vdone (copyDst (s1.commitReg vd ps sd (rows.take wd)) i vd ps wd sd (rows.drop wd)) i flags)
  | some n =>
    let w := (s1.hart.spool n).width
    let s2 := appendWrites s1 s1.loc n 0 (res.map (fun e => (e.1, truncTo w (intVal wd sd e.2))))
    let ps := writeElems s.hart i.base (List.replicate wd 0) res
    let s3 := copyDst s2 i vd ps wd sd (rows.take wd)
    .adv (vdone (s3.consume [n] s3.est.vl) i flags)

/-- A vector instruction with a vector destination that records no VSTART: reads, computes each active element, writes
(R146). `f` gives an element's bits and flags. -/
def vmap (w : BitVec 32) (srcs : List (BitVec 5)) (va vb : Option (BitVec 5)) (vd : BitVec 5) (acc : Bool)
    (kind : LaneKind) (mask : State → List Nat) (width : EState → Nat) (sd : EState → Bool)
    (f : State → VIn → Nat → Nat × BitVec 4) (s : State) : Out :=
  issue w (srcs.map (fun r => (r, 0))) s (fun s =>
    vreadAll s { kind with word := w } va vb (some vd) acc (mask s) (fun s i =>
      let r := i.act.map (fun j => (j, f s i j))
      vwrite s i va vb vd (width s.est) (sd s.est) (r.map (fun e => (e.1, e.2.1)))
        (r.foldl (fun acc e => acc ||| e.2.2) 0)))

/-- A compare: writes a predicate at the active elements (R156). -/
def vcmp (w : BitVec 32) (srcs : List (BitVec 5)) (va vb : Option (BitVec 5)) (pd pm : BitVec 6)
    (f : State → VIn → Nat → Bool × BitVec 4) (s : State) : Out :=
  issue w (srcs.map (fun r => (r, 0))) s (fun s =>
    vreadAll s { word := w, pm := pm } va vb none false (actives s pm) (fun s i =>
      let r := i.act.map (fun j => (j, f s i j))
      let s1 := s.setEst (freeLast s.est va vb)
      let s2 := s1.setHart (s1.hart.setPred i.base pd i.act ((r.filter (fun e => e.2.1)).map (·.1)))
      .adv (vdone s2 i (r.foldl (fun acc e => acc ||| e.2.2) 0))))

end Sys2Proof.Machine
end

