-- ==== Sys2Proof/Machine/Ped.lean ====
section
/-! DEFINITION. Sys2Proof/Machine/Ped.lean: the pedigree file (R196-R206). -/

namespace Sys2Proof.Machine

/-- A pedigree tree of a hart, in index order (R196). -/
def Hart.tree (h : Hart) (t : BitVec 2) : List PgNode := h.trees[t.toNat]'t.isLt

/-- A hart with a tree replaced. -/
def Hart.setTree (h : Hart) (t : BitVec 2) (l : List PgNode) : Hart := { h with trees := h.trees.set t.toNat l t.isLt }

/-- The live nodes of all trees (R196). -/
def Hart.liveNodes (h : Hart) : Nat := h.trees.toList.foldl (fun acc l => acc + l.length) 0

/-- The ancestors of node `x`, itself first, found within `fuel` steps (R197). -/
def ancestors (l : List PgNode) : Nat → Nat → List Nat
  | 0, _ => []
  | fuel + 1, x =>
    match l[x]? with
    | none => []
    | some n => x :: (if n.parent = 0x3FF then [] else ancestors l fuel n.parent.toNat)

/-- Path(x): the ancestors from the root to x (R197). -/
def pathOf (l : List PgNode) (x : Nat) : List Nat := (ancestors l (x + 1) x).reverse

/-- A node's token, 0 past the tree. -/
def tokenAt (l : List PgNode) (x : Nat) : Nat :=
  match l[x]? with
  | some n => n.token.toNat
  | none => 0

/-- A node's depth, 0 past the tree. -/
def depthAt (l : List PgNode) (x : Nat) : Nat :=
  match l[x]? with
  | some n => n.depth
  | none => 0

/-- A node as the 64-bit word of a tree (R197). -/
def PgNode.word (n : PgNode) (t : BitVec 2) : Word :=
  Machine.word (n.uflags.toNat * 2 ^ 58 + 2 ^ 56 + t.toNat * 2 ^ 54 + n.dlp.toNat * 2 ^ 38 + n.token.toNat * 2 ^ 18 +
    n.depth * 2 ^ 10 + n.parent.toNat)

/-- The field of a node that PGRD's code names (R201). -/
def PgNode.read (n : PgNode) (t : BitVec 2) (x : Nat) (code : Nat) : Word :=
  match code with
  | 0 => if x = 0 then BitVec.allOnes 64 else n.parent.setWidth 64
  | 1 => Machine.word n.depth
  | 2 => n.token.setWidth 64
  | 3 => n.dlp.setWidth 64
  | _ => Machine.word (field (n.word t) 54 10)

/-- What PGADD does to a tree: the new node, or the cause and value it raises (R202). -/
def pgNew (h : Hart) (t : BitVec 2) (p w : Word) : Except (Cause × Word) PgNode :=
  let l := h.tree t
  let node (par : BitVec 10) (dep : Nat) : PgNode :=
    { uflags := BitVec.ofNat 6 (field w 36 6), dlp := BitVec.ofNat 16 (field w 20 16)
      token := BitVec.ofNat 20 (field w 0 20), depth := dep, parent := par }
  if 1024 ≤ h.liveNodes then .error (.pgOvf, t.setWidth 64)
  else if p = BitVec.allOnes 64 then (if l.isEmpty then .ok (node 0x3FF 0) else .error (.pgBadnode, p))
  else if l.length ≤ p.toNat then .error (.pgBadnode, p)
  else if depthAt l p.toNat = 255 then .error (.pgOvf, t.setWidth 64)
  else .ok (node (p.setWidth 10) (depthAt l p.toNat + 1))

/-- A pedigree instruction that writes WD-bit elements `js` of vd; `f` gives an element's number (R204-R206). -/
def pgWrite (w : BitVec 32) (s : State) (d : BitVec 5) (vt : Option (BitVec 5)) (js : List Nat) (f : State → VIn → Nat → Nat) : Res :=
  vreadAll s { word := w, checked := false } none vt (some d) false js (fun s i =>
    vwrite s i none none d s.est.wd s.est.sd (i.act.map (fun j => (j, f s i j % 2 ^ s.est.wd))) 0)

/-- The tree that PGPRUNE keeps: node Path(x)[j] becomes node j (R206). -/
def prune (l : List PgNode) (x : Nat) : List PgNode :=
  (pathOf l x).mapIdx (fun j n =>
    match l[n]? with
    | some v => { v with parent := if j = 0 then 0x3FF else BitVec.ofNat 10 (j - 1) }
    | none => { uflags := 0, dlp := 0, token := 0, depth := j, parent := 0x3FF })

/-- The elements of the thread in focus below VL whose top is true. -/
def topElems (s : State) : List Nat :=
  (List.range s.est.vl).filter (fun j => topAt s.hart s.est (laneBase s.hart s.who) j)

/-- PGCLR: Empties a pedigree tree. (R201) -/
def execPgclr (t : BitVec 2) (s : State) : Out :=
  issue (wPG 38 0 0 0 t 0) [] s (fun s => notSplit (wPG 38 0 0 0 t 0) s (fun s => .adv (s.setHart (s.hart.setTree t []))))

/-- PGADD: Appends a node to a pedigree tree and returns its index. (R202) -/
def execPgadd (d a b : BitVec 5) (t : BitVec 2) (s : State) : Out :=
  issue (wPG 38 (0#1 ++ d) a b t 1) [(a, 0), (b, 0)] s (fun s => notSplit (wPG 38 (0#1 ++ d) a b t 1) s (fun s =>
    if s.thr.pendingReg [d] then .stall s
    else
      match pgNew s.hart t (s.thr.reg a) (s.thr.reg b) with
      | .error e => .trap s e.1 e.2
      | .ok n =>
        let l := s.hart.tree t
        let s1 := s.setHart (s.hart.setTree t (l ++ [n]))
        .adv (s1.setThr (s1.thr.setReg d (word l.length)))))

/-- PGANC: Writes an ancestor mask in the TILESHAPE geometry into pd. (R203) -/
def execPganc (d : BitVec 6) (a b : BitVec 5) (t : BitVec 2) (s : State) : Out :=
  issue (wPG 38 d a b t 2) [(a, 0), (b, 0)] s (fun s =>
    let l := s.hart.tree t
    let x := s.est
    let base := laneBase s.hart s.who
    let js := topElems s
    let one (j : Nat) : Bool :=
      let q := (s.thr.reg a).toNat + j / x.tilecols
      let k := (s.thr.reg b).toNat + j % x.tilecols
      decide (j / x.tilecols < x.tilerows) && decide (q < l.length) && decide (k < l.length) && (pathOf l q).contains k
    lanesThen s false { rows := maskRows s.est 0, act := js } fun s =>
      .adv (s.setHart (s.hart.setPred base d js (js.filter one))))

/-- PGPOS: Writes base plus depth for each node into vd. (R204) -/
def execPgpos (d a : BitVec 5) (t : BitVec 2) (s : State) : Out :=
  issue (wPG 38 (0#1 ++ d) a 0 t 3) [(a, 0)] s (fun s =>
    let l := s.hart.tree t
    pgWrite (wPG 38 (0#1 ++ d) a 0 t 3) s d none ((topElems s).filter (fun j => decide (j < l.length)))
      (fun s _ j => (s.thr.reg a).toNat + depthAt l j))

/-- PGPATH: Sets VL to a path's length and writes its tokens into vd. (R205) -/
def execPgpath (d a : BitVec 5) (t : BitVec 2) (s : State) : Out :=
  issue (wPG 38 (0#1 ++ d) a 0 t 4) [(a, 0)] s (fun s =>
    let l := s.hart.tree t
    let x := (s.thr.reg a).toNat
    if l.length ≤ x then .adv (s.setEst { s.est with vl := 0 })
    else
      let path := pathOf l x
      let s1 := s.setEst { s.est with vl := depthAt l x + 1 }
      match pgWrite (wPG 38 (0#1 ++ d) a 0 t 4) s1 d none (topElems s1) (fun _ _ j => tokenAt l (path.getD j 0)) with
      | .stall _ => .stall s
      | .trap s2 c v => .trap (s2.setEst { s2.est with vl := s.est.vl }) c v
      | r => r)

/-- PGPRUNE: Keeps one path of a tree, renumbers it and writes the index map into vm. (R206) -/
def execPgprune (d a b : BitVec 5) (t : BitVec 2) (s : State) : Out :=
  issue (wPG 38 (0#1 ++ d) a b t 5) [(a, 0)] s (fun s => notSplit (wPG 38 (0#1 ++ d) a b t 5) s (fun s =>
    if s.thr.pendingReg [d] then .stall s
    else
      let l := s.hart.tree t
      let x := (s.thr.reg a).toNat
      if l.length ≤ x then .trap s .pgBadnode (s.thr.reg a)
      else
        let path := pathOf l x
        match pgWrite (wPG 38 (0#1 ++ d) a b t 5) s b none (topElems s) (fun s _ j =>
          if path.contains j then depthAt l j else 2 ^ s.est.wd - 1) with
        | .adv s1 =>
          let s2 := s1.setHart (s1.hart.setTree t (prune l x))
          .adv (s2.setThr (s2.thr.setReg d (word (depthAt l x + 1))))
        | r => r))

/-- PGRD: Reads one field of a pedigree node into gd. (R201) -/
def execPgrd (d a c : BitVec 5) (t : BitVec 2) (s : State) : Out :=
  issue (wPG 38 (0#1 ++ d) a c t 6) [(a, 0)] s (fun s =>
    let x := (s.thr.reg a).toNat
    writeReg s d (match (s.hart.tree t)[x]? with
      | some n => n.read t x c.toNat
      | none => BitVec.allOnes 64))

/-- PGCNT: Counts, per element, the nodes on a path that carry the element's token. (R204) -/
def execPgcnt (d a b : BitVec 5) (t : BitVec 2) (s : State) : Out :=
  issue (wPG 38 (0#1 ++ d) a b t 7) [(a, 0)] s (fun s =>
    let l := s.hart.tree t
    let x := (s.thr.reg a).toNat
    pgWrite (wPG 38 (0#1 ++ d) a b t 7) s d (some b) ((topElems s).filter (fun j => decide (j < l.length))) (fun _ i j =>
      let v := rawAt (i.base + j) i.b.planes % 2 ^ 20
      if l.length ≤ x then 0 else ((pathOf l x).filter (fun y => tokenAt l y == v)).length))

/-- PGSIZE: Writes the size of a pedigree tree to gd. (R201) -/
def execPgsize (d : BitVec 5) (t : BitVec 2) (s : State) : Out :=
  issue (wPG 38 (0#1 ++ d) 0 0 t 8) [] s (fun s => writeReg s d (word (s.hart.tree t).length))

end Sys2Proof.Machine
end

