-- ==== Sys2Proof/Machine/Flags.lean ====
section
/-! DEFINITION. Sys2Proof/Machine/Flags.lean: the values that number formats hold, exact arithmetic on them, and the
conversion to a destination with the FSTAT bits it sets (R126-R134, R177, R182, R189). -/

namespace Sys2Proof.Machine

/-! ## FSTAT (R27, R133) -/

/-- FSTAT.NV. -/
def flagNV : BitVec 4 := 1
/-- FSTAT.OF. -/
def flagOF : BitVec 4 := 2
/-- FSTAT.UF. -/
def flagUF : BitVec 4 := 4
/-- FSTAT.NX. -/
def flagNX : BitVec 4 := 8

/-! ## Values (R128-R130) -/

/-- A value: NaN, an infinity, or (-1)^neg times mag times 2^exp, zeros with their sign. -/
inductive Num
  | nan
  | inf (neg : Bool)
  | fin (neg : Bool) (mag : Nat) (exp : Int)
  deriving DecidableEq, Repr

/-- A float format: exponent and mantissa widths, bias, whether subnormals flush, whether it has infinities and NaN
(R128, R131). -/
structure FFmt where
  eb : Nat
  mb : Nat
  bias : Nat
  flush : Bool := false
  hasInf : Bool := false
  hasNan : Bool := false

/-- The float formats by code (R128). -/
def ffmt : Nat → Option FFmt
  | 1 => some { eb := 8, mb := 23, bias := 127, flush := true, hasInf := true, hasNan := true }
  | 2 => some { eb := 8, mb := 7, bias := 127, flush := true, hasInf := true, hasNan := true }
  | 3 => some { eb := 5, mb := 10, bias := 15, flush := true, hasInf := true, hasNan := true }
  | 4 => some { eb := 4, mb := 3, bias := 7, hasNan := true }
  | 5 => some { eb := 5, mb := 2, bias := 15, hasInf := true, hasNan := true }
  | 6 => some { eb := 3, mb := 2, bias := 3 }
  | 7 => some { eb := 2, mb := 3, bias := 1 }
  | 8 => some { eb := 2, mb := 1, bias := 1 }
  | _ => none

/-- The exponent and mantissa fields of the largest finite value: E4M3 keeps M = 7 at E = 15 for NaN (R128). -/
def FFmt.largest (f : FFmt) : Nat × Nat :=
  if f.hasInf then (2 ^ f.eb - 2, 2 ^ f.mb - 1)
  else if f.hasNan then (2 ^ f.eb - 1, 2 ^ f.mb - 2)
  else (2 ^ f.eb - 1, 2 ^ f.mb - 1)

/-- The bits of a sign, exponent field and mantissa field. -/
def FFmt.pack (f : FFmt) (neg : Bool) (e m : Nat) : Nat := neg.toNat * 2 ^ (f.eb + f.mb) + e * 2 ^ f.mb + m

/-- The canonical NaN (R129): E4M3 0x7F, the others the quiet bit alone. -/
def FFmt.nan (f : FFmt) : Nat :=
  if f.hasInf then f.pack false (2 ^ f.eb - 1) (2 ^ (f.mb - 1)) else f.pack false (2 ^ f.eb - 1) (2 ^ f.mb - 1)

/-- The value of a float format's bits; a flushed subnormal reads as zero of its sign (R128, R131). -/
def FFmt.value (f : FFmt) (raw : Nat) : Num :=
  let neg := raw.testBit (f.eb + f.mb)
  let e := raw / 2 ^ f.mb % 2 ^ f.eb
  let m := raw % 2 ^ f.mb
  if e = 2 ^ f.eb - 1 && f.hasInf then (if m = 0 then .inf neg else .nan)
  else if e = 2 ^ f.eb - 1 && f.hasNan && m = 2 ^ f.mb - 1 then .nan
  else if e = 0 then (if f.flush then .fin neg 0 0 else .fin neg m (1 - f.bias - f.mb))
  else .fin neg (2 ^ f.mb + m) (e - f.bias - f.mb)

/-- An integer as a value times 2^exp. -/
def Num.ofInt (a : Int) (exp : Int) : Num := .fin (decide (a < 0)) a.natAbs exp

/-- The ternary value of two bits (R127). -/
def ternVal (r : Nat) : Int := if r % 4 = 1 then 1 else if r % 4 = 3 then -1 else 0

/-- The value of a side's bits under its format code (R177). -/
def numOf (code w : Nat) (signed : Bool) (raw : Nat) : Num :=
  match ffmt code with
  | some f => f.value raw
  | none =>
    if code = 9 then .ofInt (ternVal raw) 0
    else if code = 10 then .ofInt (sextNat 8 raw) (-6)
    else .ofInt (intVal w signed raw) 0

/-! ## Exact operations (R132, R134) -/

/-- mag times 2^(exp - e) with its sign, for e not above exp. -/
def aligned (neg : Bool) (mag : Nat) (exp e : Int) : Int :=
  let v : Int := mag * 2 ^ (exp - e).toNat
  if neg then -v else v

/-- A sum and whether it is invalid (R132, R134): an exact cancellation gives +0, two -0 give -0. -/
def numAdd : Num → Num → Num × BitVec 4
  | .nan, _ => (.nan, 0)
  | _, .nan => (.nan, 0)
  | .inf a, .inf b => if a = b then (.inf a, 0) else (.nan, flagNV)
  | .inf a, .fin _ _ _ => (.inf a, 0)
  | .fin _ _ _, .inf b => (.inf b, 0)
  | .fin na ma ea, .fin nb mb eb =>
    if ma = 0 && mb = 0 then (.fin (na && nb) 0 0, 0)
    else if ma = 0 then (.fin nb mb eb, 0)
    else if mb = 0 then (.fin na ma ea, 0)
    else
      let e := min ea eb
      (.ofInt (aligned na ma ea e + aligned nb mb eb e) e, 0)

/-- A product and whether it is invalid; its sign is the XOR of the factors' (R132, R134). -/
def numMul : Num → Num → Num × BitVec 4
  | .nan, _ => (.nan, 0)
  | _, .nan => (.nan, 0)
  | .inf a, .inf b => (.inf (a ^^ b), 0)
  | .inf a, .fin nb mb _ => if mb = 0 then (.nan, flagNV) else (.inf (a ^^ nb), 0)
  | .fin na ma _, .inf b => if ma = 0 then (.nan, flagNV) else (.inf (na ^^ b), 0)
  | .fin na ma ea, .fin nb mb eb => (.fin (na ^^ nb) (ma * mb) (ea + eb), 0)

/-- The value with its sign changed. -/
def Num.neg : Num → Num
  | .nan => .nan
  | .inf n => .inf (!n)
  | .fin n m e => .fin (!n) m e

/-- The value with its sign cleared. -/
def Num.abs : Num → Num
  | .nan => .nan
  | .inf _ => .inf false
  | .fin _ m e => .fin false m e

/-- The value times 2^n, exact. -/
def Num.scale (v : Num) (n : Int) : Num :=
  match v with
  | .fin s m e => .fin s m (e + n)
  | v => v

/-- NaN. -/
def Num.isNan : Num → Bool
  | .nan => true
  | _ => false

/-- The sign. -/
def Num.isNeg : Num → Bool
  | .nan => false
  | .inf n => n
  | .fin n _ _ => n

/-- A zero of either sign. -/
def Num.isZero : Num → Bool
  | .fin _ m _ => m == 0
  | _ => false

/-- An infinity. -/
def Num.isInf : Num → Bool
  | .inf _ => true
  | _ => false

/-- Neither is NaN and the first is less; the zeros are equal (R183). -/
def numLt : Num → Num → Bool
  | .nan, _ => false
  | _, .nan => false
  | .inf a, .inf b => a && !b
  | .inf a, .fin _ _ _ => a
  | .fin _ _ _, .inf b => !b
  | .fin na ma ea, .fin nb mb eb =>
    let e := min ea eb
    decide (aligned na ma ea e < aligned nb mb eb e)

/-- Neither is NaN and they are equal; the zeros are equal (R183). -/
def numEq (a b : Num) : Bool := !a.isNan && !b.isNan && !numLt a b && !numLt b a

/-- As `numLt`, with -0 below +0 (R167, R168, R180). -/
def numBelow (a b : Num) : Bool := numLt a b || (a.isZero && b.isZero && a.isNeg && !b.isNeg)

/-! ## Conversion to a destination (R131, R132) -/

/-- The floor of the base-2 logarithm of a positive magnitude. -/
def log2Of (mag : Nat) (exp : Int) : Int := (mag.log2 : Int) + exp

/-- mag times 2^n truncated, and whether something was lost. -/
def truncShift (mag : Nat) (n : Int) : Nat × Bool :=
  if 0 ≤ n then (mag * 2 ^ n.toNat, false)
  else if (mag.log2 : Int) + n < 0 then (0, mag != 0)
  else (mag / 2 ^ (-n).toNat, mag % 2 ^ (-n).toNat != 0)

/-- A value of a format's top binade exceeds its largest finite value; `more` says that it lies just above mag times
2^exp. -/
def FFmt.exceeds (f : FFmt) (mag : Nat) (exp : Int) (more : Bool) : Bool :=
  let x : Int := f.largest.1 - f.bias - f.mb
  let e := min exp x
  let a := aligned false mag exp e
  let b := aligned false (2 ^ f.mb + f.largest.2) x e
  decide (b < a) || (a == b && more)

/-- A finite value truncated to a float format. `more` says that the exact magnitude lies above mag times 2^exp by less
than one unit of mag, which then has more bits than the format (R131, R132). -/
def FFmt.round (f : FFmt) (neg : Bool) (mag : Nat) (exp : Int) (more : Bool) : Nat × BitVec 4 :=
  if mag = 0 then (f.pack neg 0 0, 0)
  else
    let l := log2Of mag exp
    let emin : Int := 1 - f.bias
    let emax : Int := f.largest.1 - f.bias
    if emax < l || (l = emax && f.exceeds mag exp more) then
      (f.pack neg f.largest.1 f.largest.2, flagOF ||| flagNX)
    else if f.flush && decide (l < emin) then (f.pack neg 0 0, flagUF ||| flagNX)
    else
      let t := truncShift mag (exp - (max l emin - f.mb))
      let bits := if l < emin then f.pack neg 0 t.1 else f.pack neg (l + f.bias).toNat (t.1 - 2 ^ f.mb)
      (bits, if t.2 || more then flagNX else 0)

/-- A value in a float format: specials as R132 gives. -/
def FFmt.ofNum (f : FFmt) (v : Num) (more : Bool) : Nat × BitVec 4 :=
  match v with
  | .nan => if f.hasNan then (f.nan, 0) else (0, flagNV)
  | .inf n =>
    if f.hasInf then (f.pack n (2 ^ f.eb - 1) 0, 0) else (f.pack n f.largest.1 f.largest.2, flagNV)
  | .fin n m e => f.round n m e more

/-- The width, the power of two of one unit, and the range of an integer destination (R126, R127, R189). -/
def intDest (code wd : Nat) (sd : Bool) : Nat × Int × Int × Int :=
  if code = 9 then (2, 0, -1, 1)
  else if code = 10 then (8, -6, -128, 127)
  else if sd then (wd, 0, -(2 ^ (wd - 1) : Nat), (2 ^ (wd - 1) : Nat) - 1)
  else (wd, 0, 0, (2 ^ wd : Nat) - 1)

/-- A finite value in units of an integer destination, truncated, and whether something was lost. A shift by more than
64 places leaves zeros below bit 64 and a number out of every range. -/
def inUnits (neg : Bool) (mag : Nat) (n : Int) : Int × Bool :=
  let t := truncShift mag (min n 64)
  (if neg then -(t.1 : Int) else t.1, t.2)

/-- A value in an integer, TERN or MXINT8 destination (R132). -/
def intOfNum (code wd : Nat) (sd : Bool) (v : Num) (more : Bool) : Nat × BitVec 4 :=
  let d := intDest code wd sd
  match v with
  | .fin n m e =>
    let t := inUnits n m (e - d.2.1)
    if t.1 < d.2.2.1 || d.2.2.2 < t.1 then (truncTo d.1 t.1, flagNV)
    else (truncTo d.1 t.1, if t.2 || more then flagNX else 0)
  | _ => (0, flagNV)

/-- A value written in format D (R177). -/
def toD (code wd : Nat) (sd : Bool) (v : Num) (more : Bool := false) : Nat × BitVec 4 :=
  match ffmt code with
  | some f => f.ofNum v more
  | none => intOfNum code wd sd v more

/-- A value converted to format D with saturation (R189). -/
def quantize (code wd : Nat) (sd : Bool) (v : Num) : Nat × BitVec 4 :=
  match ffmt code with
  | some f =>
    match v with
    | .nan => (if f.hasNan then f.nan else 0, flagNV)
    | .inf n => (f.pack n f.largest.1 f.largest.2, flagNV)
    | .fin n m e => f.round n m e false
  | none =>
    let d := intDest code wd sd
    match v with
    | .nan => (0, flagNV)
    | .inf n => (truncTo d.1 (if n then d.2.2.1 else d.2.2.2), flagNV)
    | .fin n m e =>
      let t := inUnits n m (e - d.2.1)
      if t.1 < d.2.2.1 then (truncTo d.1 d.2.2.1, flagOF ||| flagNX)
      else if d.2.2.2 < t.1 then (truncTo d.1 d.2.2.2, flagOF ||| flagNX)
      else (truncTo d.1 t.1, if t.2 then flagNX else 0)

/-! ## FEXP2 and FRCP (R182) -/

/-- The integer square root of a number below 2^(2n), bit by bit. -/
def sqrtBits : Nat → Nat → Nat → Nat
  | 0, _, r => r
  | n + 1, x, r => sqrtBits n x (if (r + 2 ^ n) * (r + 2 ^ n) ≤ x then r + 2 ^ n else r)

/-- Lower and upper bounds of 2^f times 2^g, for f the `k` bits of `frac` after the point: the product of the square
roots that its bits select. `lo` and `hi` bound the next root. -/
def exp2Bounds (g frac : Nat) : Nat → Nat → Nat → Nat → Nat → Nat × Nat
  | 0, _, _, a, b => (a, b)
  | k + 1, lo, hi, a, b =>
    let lo' := sqrtBits (g + 2) (lo * 2 ^ g) 0
    let hi' := sqrtBits (g + 2) (hi * 2 ^ g) 0 + 1
    if frac.testBit k then exp2Bounds g frac k lo' hi' (a * lo' / 2 ^ g) (b * hi' / 2 ^ g + 1)
    else exp2Bounds g frac k lo' hi' a b

/-- The first `p` bits after the point of 2^f, which is irrational: the precision grows until both bounds agree. -/
def exp2Trunc (frac k p : Nat) : Nat → Nat → Nat
  | 0, g => (exp2Bounds g frac k (2 * 2 ^ g) (2 * 2 ^ g) (2 ^ g) (2 ^ g)).1 / 2 ^ (g - p)
  | fuel + 1, g =>
    let b := exp2Bounds g frac k (2 * 2 ^ g) (2 * 2 ^ g) (2 ^ g) (2 ^ g)
    if b.1 / 2 ^ (g - p) = b.2 / 2 ^ (g - p) then b.1 / 2 ^ (g - p) else exp2Trunc frac k p fuel (2 * g)

/-- FEXP2 of a value into format D (R182). -/
def fexp2 (code wd : Nat) (sd : Bool) (v : Num) : Nat × BitVec 4 :=
  match v with
  | .nan => toD code wd sd .nan
  | .inf n => toD code wd sd (if n then .fin false 0 0 else .inf false)
  | .fin n m e =>
    if 0 ≤ e then toD code wd sd (.fin false 1 (aligned n m e 0))
    else
      let k := (-e).toNat
      let a : Int := if n then -(m : Int) else m
      let fl := a / (2 ^ k : Nat)
      let frac := (a % (2 ^ k : Nat)).toNat
      if frac = 0 then toD code wd sd (.fin false 1 fl)
      else
        let p := 40 + (if (ffmt code).isSome then 0 else fl.toNat)
        let r := toD code wd sd (.fin false (exp2Trunc frac k p 30 (p + k + 32)) (fl - p)) true
        (r.1, r.2 ||| flagNX)

/-- FRCP of a value into format D (R182): a quotient of 2^sh by the significand, where sh is large enough that the part cut
off lies below the last bit of every destination. -/
def frcp (code wd : Nat) (sd : Bool) (v : Num) : Nat × BitVec 4 :=
  match v with
  | .nan => toD code wd sd .nan
  | .inf n => toD code wd sd (.fin n 0 0)
  | .fin n m e =>
    if m = 0 then
      match ffmt code with
      | some f => (f.pack n f.largest.1 f.largest.2, flagOF ||| flagNX)
      | none => (0, flagNV)
    else
      let sh := max (m.log2 + 64) (8 - e).toNat
      toD code wd sd (.fin n (2 ^ sh / m) (-e - sh)) (2 ^ sh % m != 0)

/-! ## The sides of an instruction (R177) -/

/-- The value of side A at an element. -/
def numA (x : EState) (i : VIn) (j : Nat) : Num := numOf x.fa x.wa x.sa (i.rawA x.fwa x.sa j)

/-- The value of side B at an element. -/
def numB (x : EState) (i : VIn) (j : Nat) : Num := numOf x.fb x.wb x.sb (i.rawB x.fwb x.sb j)

/-- The value of the old destination at an element. -/
def numD (s : State) (i : VIn) (vd : BitVec 5) (j : Nat) : Num :=
  numOf s.est.fd s.est.wd s.est.sd (rawD s i vd s.est.fwd s.est.sd j)

/-- A value written in the instruction's format D. -/
def EState.toD (x : EState) (v : Num) : Nat × BitVec 4 := Machine.toD x.fd x.wd x.sd v

end Sys2Proof.Machine
end

