-- ==== Sys2Proof/Machine/Float.lean ====
section
/-! DEFINITION. Sys2Proof/Machine/Float.lean: float arithmetic, conversions and compares (R177-R183), scale registers and the MX group (R184-R191). -/

namespace Sys2Proof.Machine

/-- An element of a float result: an exact value, and flags of its own, converted to format D (R178). -/
def floatRes (x : EState) (r : Num × BitVec 4) : Nat × BitVec 4 :=
  let t := x.toD r.1
  (t.1, t.2 ||| r.2)

/-- A FLOAT instruction over one or two sides (R178); `f` gives an element's bits and flags. -/
def vfloat (w : BitVec 32) (d a : BitVec 5) (b : Option (BitVec 5)) (p : BitVec 6) (acc : Bool) (s : State)
    (f : State → VIn → Nat → Nat × BitVec 4) : Out :=
  vmap w [] (some a) b d acc { pm := p } (fun s => actives s p) EState.fwd EState.sd f s

/-- A two-source FLOAT instruction (R179). -/
def vfloat2 (w : BitVec 32) (d a b : BitVec 5) (p : BitVec 6) (s : State) (op : Num → Num → Num × BitVec 4) : Out :=
  vfloat w d a (some b) p false s (fun s i j => floatRes s.est (op (numA s.est i j) (numB s.est i j)))

/-- A conversion that sets no flag (R180). -/
def quiet (x : EState) (v : Num) : Nat × BitVec 4 := ((x.toD v).1, 0)

/-- The lesser of two values, -0 below +0, NaN when either is (R180). -/
def numMin (a b : Num) : Num := if a.isNan || b.isNan then .nan else if numBelow b a then b else a

/-- The greater of two values, +0 above -0, NaN when either is (R180). -/
def numMax (a b : Num) : Num := if a.isNan || b.isNan then .nan else if numBelow a b then b else a

/-- A float compare (R183). -/
def fcmp (w : BitVec 32) (d : BitVec 6) (a b : BitVec 5) (p : BitVec 6) (s : State) (cond : Num → Num → Bool) : Out :=
  vcmp w [] (some a) (some b) d p (fun s i j => (cond (numA s.est i j) (numB s.est i j), 0)) s

/-- FADD: Adds va and vb as floats into vd with one rounding. (R179) -/
def execFadd (d a b : BitVec 5) (p : BitVec 6) (s : State) : Out :=
  vfloat2 (wV 32 d a b p 0) d a b p s numAdd

/-- FSUB: Subtracts vb from va as floats into vd. (R179) -/
def execFsub (d a b : BitVec 5) (p : BitVec 6) (s : State) : Out :=
  vfloat2 (wV 32 d a b p 1) d a b p s (fun x y => numAdd x y.neg)

/-- FMUL: Multiplies va and vb as floats into vd. (R179) -/
def execFmul (d a b : BitVec 5) (p : BitVec 6) (s : State) : Out :=
  vfloat2 (wV 32 d a b p 2) d a b p s numMul

/-- FMA: Adds the exact product of va and vb to vd with one rounding. (R179) -/
def execFma (d a b : BitVec 5) (p : BitVec 6) (s : State) : Out :=
  vfloat (wV 32 d a b p 3) d a (some b) p true s (fun s i j =>
    let q := numMul (numA s.est i j) (numB s.est i j)
    let r := numAdd (numD s i d j) q.1
    floatRes s.est (r.1, r.2 ||| q.2))

/-- FMIN: Writes the lesser float value of va and vb into vd. (R180) -/
def execFmin (d a b : BitVec 5) (p : BitVec 6) (s : State) : Out :=
  vfloat (wV 32 d a b p 4) d a (some b) p false s (fun s i j => quiet s.est (numMin (numA s.est i j) (numB s.est i j)))

/-- FMAX: Writes the greater float value of va and vb into vd. (R180) -/
def execFmax (d a b : BitVec 5) (p : BitVec 6) (s : State) : Out :=
  vfloat (wV 32 d a b p 5) d a (some b) p false s (fun s i j => quiet s.est (numMax (numA s.est i j) (numB s.est i j)))

/-- FABS: Writes the absolute float value of va into vd. (R180) -/
def execFabs (d a : BitVec 5) (p : BitVec 6) (s : State) : Out :=
  vfloat (wV 32 d a 0 p 6) d a none p false s (fun s i j => quiet s.est (numA s.est i j).abs)

/-- FNEG: Writes the negated float value of va into vd. (R180) -/
def execFneg (d a : BitVec 5) (p : BitVec 6) (s : State) : Out :=
  vfloat (wV 32 d a 0 p 7) d a none p false s (fun s i j => quiet s.est (numA s.est i j).neg)

/-- FCVT: Converts va from format A to format D. (R181) -/
def execFcvt (d a : BitVec 5) (p : BitVec 6) (s : State) : Out :=
  vfloat (wV 32 d a 0 p 8) d a none p false s (fun s i j => s.est.toD (numA s.est i j))

/-- FCVTI: Converts float va to an integer of WD bits, truncated toward zero. (R181) -/
def execFcvti (d a : BitVec 5) (p : BitVec 6) (s : State) : Out :=
  vmap (wV 32 d a 0 p 9) [] (some a) none d false { pm := p } (fun s => actives s p) EState.wd EState.sd
    (fun s i j => toD 0 s.est.wd s.est.sd (numA s.est i j)) s

/-- FCVTF: Converts integer va to format D. (R181) -/
def execFcvtf (d a : BitVec 5) (p : BitVec 6) (s : State) : Out :=
  vfloat (wV 32 d a 0 p 10) d a none p false s (fun s i j => s.est.toD (.ofInt (intVal s.est.wa s.est.sa (i.rawA s.est.wa s.est.sa j)) 0))

/-- FEXP2: Writes 2 to the power va, rounded once toward zero. (R182) -/
def execFexp2 (d a : BitVec 5) (p : BitVec 6) (s : State) : Out :=
  vfloat (wV 32 d a 0 p 11) d a none p false s (fun s i j => fexp2 s.est.fd s.est.wd s.est.sd (numA s.est i j))

/-- FRCP: Writes the reciprocal of va, rounded once toward zero. (R182) -/
def execFrcp (d a : BitVec 5) (p : BitVec 6) (s : State) : Out :=
  vfloat (wV 32 d a 0 p 12) d a none p false s (fun s i j => frcp s.est.fd s.est.wd s.est.sd (numA s.est i j))

/-- FSCL: Scales va by 2 to the integer in vb. (R181) -/
def execFscl (d a b : BitVec 5) (p : BitVec 6) (s : State) : Out :=
  vfloat (wV 32 d a b p 13) d a (some b) p false s (fun s i j =>
    s.est.toD ((numA s.est i j).scale (intVal s.est.wb s.est.sb (i.rawB s.est.wb s.est.sb j))))

/-- FCEQ: Sets pd where the float values of va and vb are equal and neither is NaN. (R183) -/
def execFceq (d : BitVec 6) (a b : BitVec 5) (p : BitVec 6) (s : State) : Out :=
  fcmp (wVC 28 d a b p 11) d a b p s (fun x y => numEq x y)

/-- FCLT: Sets pd where va is less than vb and neither is NaN. (R183) -/
def execFclt (d : BitVec 6) (a b : BitVec 5) (p : BitVec 6) (s : State) : Out :=
  fcmp (wVC 28 d a b p 12) d a b p s (fun x y => numLt x y)

/-- FCLE: Sets pd where va is at most vb and neither is NaN. (R183) -/
def execFcle (d : BitVec 6) (a b : BitVec 5) (p : BitVec 6) (s : State) : Out :=
  fcmp (wVC 28 d a b p 13) d a b p s (fun x y => numLt x y || numEq x y)

/-- FCUN: Sets pd where va or vb is NaN. (R183) -/
def execFcun (d : BitVec 6) (a b : BitVec 5) (p : BitVec 6) (s : State) : Out :=
  fcmp (wVC 28 d a b p 14) d a b p s (fun x y => x.isNan || y.isNan)

/-! ## Scale registers and the MX group (R184-R191) -/

/-- The scale registers that ESEL names for sides A, B and D (R27, R185). -/
def EState.eA (x : EState) : BitVec 4 := x.esel.extractLsb' 0 4
def EState.eB (x : EState) : BitVec 4 := x.esel.extractLsb' 4 4
def EState.eD (x : EState) : BitVec 4 := x.esel.extractLsb' 8 4

/-- The scale byte of an element: that of its primary lane (R184). -/
def scaleByte (h : Hart) (e : BitVec 4) (lane : Nat) : Byte := (h.scales[e.toNat]'e.isLt).getD (lane / 32) 0x7F

/-- A hart with scale bytes (index, byte) written, and their mirrors under MODE.DS (R184). -/
def Hart.setScales (h : Hart) (e : BitVec 4) (bs : List (Nat × Byte)) : Hart :=
  let all := bs ++ (if h.ds then bs.map (fun b => (b.1 + 256, b.2)) else [])
  let bytes := (h.scales[e.toNat]'e.isLt).mapIdx (fun i old => assocGet old all i)
  { h with scales := h.scales.set e.toNat bytes e.isLt }

/-- A value times a scale byte; 0xFF gives NaN (R130). -/
def scaled (v : Num) (x : Byte) : Num := if x = 0xFF then .nan else v.scale ((x.toNat : Int) - 127)

/-- The exponent of a format's largest power of two, for MXQNT; none for a format that is no MX element (R188). -/
def mxEmax : Nat → Option Int
  | 4 => some 8
  | 5 => some 15
  | 6 => some 4
  | 7 => some 2
  | 8 => some 2
  | 10 => some 0
  | _ => none

/-- MXQNT's element conversion SatZ (R188); the largest finite magnitude of MXINT8 is 1.984375, 127 units (R126). -/
def satZ (code : Nat) (v : Num) : Nat × BitVec 4 :=
  match ffmt code with
  | some f =>
    match v with
    | .inf n => if f.hasInf then f.ofNum v false else (f.pack n f.largest.1 f.largest.2, flagNV)
    | .nan => f.ofNum v false
    | .fin n m e => f.round n m e false
  | none =>
    match v with
    | .inf n => (truncTo 8 (if n then -127 else 127), flagNV)
    | .nan => (0, flagNV)
    | .fin n m e =>
      if numLt (.fin false 127 (-6)) (.fin false m e) then (truncTo 8 (if n then -127 else 127), flagOF ||| flagNX)
      else intOfNum 10 8 true v false

/-- The scale byte that MXQNT gives a block of values, and its flags (R188). -/
def blockScale (emax : Int) (vs : List Num) : Byte × BitVec 4 :=
  if vs.any Num.isNan then (0xFF, flagNV)
  else
    let m := vs.foldl (fun acc v => if v.isInf then acc else numMax acc v.abs) (.fin false 0 0)
    match m with
    | .fin _ mag exp =>
      if mag = 0 then (0x7F, 0)
      else (BitVec.ofInt 8 (min (max (log2Of mag exp - emax + 127) 0) 254), 0)
    | _ => (0x7F, 0)

/-- The blocks of 32 elements that hold some of a list, with those elements (R130). -/
def blocksOf (js : List Nat) : List (Nat × List Nat) :=
  ((js.map (· / 32)).eraseDups).map (fun k => (k, js.filter (fun j => decide (j / 32 = k))))

/-- MXQNT's scale bytes (by block), elements and flags (R188). -/
def mxQuantize (x : EState) (i : VIn) : List (Nat × Byte) × List (Nat × Nat) × BitVec 4 :=
  (blocksOf i.act).foldl (fun (acc : List (Nat × Byte) × List (Nat × Nat) × BitVec 4) b =>
    let vs := b.2.map (fun j => (j, numA x i j))
    let sc : Byte × BitVec 4 := match mxEmax x.fd with
      | some emax => blockScale emax (vs.map (·.2))
      | none => (0x7F, 0)
    let rs := vs.map (fun v =>
      (v.1,
        match mxEmax x.fd with
        | none => quantize x.fd x.wd x.sd v.2
        | some _ => if sc.1 = 0xFF then (0, 0) else satZ x.fd (v.2.scale (127 - (sc.1.toNat : Int)))))
    (acc.1 ++ [(b.1, sc.1)], acc.2.1 ++ rs.map (fun (r : Nat × Nat × BitVec 4) => (r.1, r.2.1)),
      rs.foldl (fun f r => f ||| r.2.2) (acc.2.2 ||| sc.2)))
    ([], [], 0)

/-- The dot product of a block's active elements, and its flags; where a NaN stands beside both infinities the spec gives the
result and not NV, which is set where the infinities meet before a NaN does (R190; DESIGN CHOICE, notes/assumptions/58.md). -/
def blockDot (h : Hart) (x : EState) (i : VIn) (js : List Nat) : Num × BitVec 4 :=
  let ts := js.map (fun j =>
    numMul (scaled (numA x i j) (scaleByte h x.eA (i.base + j))) (scaled (numB x i j) (scaleByte h x.eB (i.base + j))))
  match ts with
  | [] => (.fin false 0 0, 0)
  | t :: r => r.foldl (fun acc t =>
      let z := numAdd acc.1 t.1
      (z.1, z.2 ||| acc.2 ||| t.2)) t

/-- MXSCL: Dequantises va by the block scale of e[ESEL.EA] into vd. (R187) -/
def execMxscl (d a : BitVec 5) (p : BitVec 6) (s : State) : Out :=
  vfloat (wV 33 d a 0 p 0) d a none p false s (fun s i j =>
    s.est.toD (scaled (numA s.est i j) (scaleByte s.hart s.est.eA (i.base + j))))

/-- MXQNT: Quantises each block of va to an MX element format and writes its scale byte. (R188) -/
def execMxqnt (d a : BitVec 5) (p : BitVec 6) (s : State) : Out :=
  issue (wV 33 d a 0 p 1) [] s (fun s =>
    vreadAll s { word := wV 33 d a 0 p 1, pm := p } (some a) none (some d) false (actives s p) (fun s i =>
      let x := s.est
      let q := mxQuantize x i
      match vwrite s i (some a) none d x.fwd x.sd q.2.1 q.2.2 with
      | .adv s' => .adv (s'.setHart (s'.hart.setScales x.eD (q.1.map (fun b => (i.base / 32 + b.1, b.2)))))
      | r => r))

/-- MXBDOT: Forms one scaled dot product per block of va and vb, written at element k, into a write spool too whether element k is
active or not (DESIGN CHOICE, notes/assumptions/58.md). (R190) -/
def execMxbdot (d a b : BitVec 5) (p : BitVec 6) (s : State) : Out :=
  issue (wV 33 d a b p 2) [] s (fun s =>
    let kind : LaneKind := { word := wV 33 d a b p 2, pm := p, out := some (List.range ((s.est.vl + 31) / 32)) }
    vreadAll s kind (some a) (some b) (some d) false (actives s p) (fun s i =>
      let x := s.est
      let rs := (List.range ((x.vl + 31) / 32)).map (fun k =>
        (k, floatRes x (blockDot s.hart x i (i.act.filter (fun j => decide (j / 32 = k))))))
      vwrite s i (some a) (some b) d x.fwd x.sd (rs.map (fun r => (r.1, r.2.1)))
        (rs.foldl (fun f r => f ||| r.2.2) 0)))

/-- EMOV: Copies scale register es to ed over the issuing micro-thread's lanes. (R191) -/
def execEmov (e f : BitVec 4) (s : State) : Out :=
  issue (wV 33 (0#1 ++ e) (0#1 ++ f) 0 0 3) [] s (fun s =>
    let first := laneBase s.hart s.who / 32
    let bs := (List.range (vlmaxOf s.hart s.who / 32)).map (fun k =>
      (first + k, scaleByte s.hart f (32 * (first + k))))
    .adv (s.setHart (s.hart.setScales e bs)))

/-- VQNT: Converts va to format D without scales, saturating. (R189) -/
def execVqnt (d a : BitVec 5) (p : BitVec 6) (s : State) : Out :=
  vfloat (wV 33 d a 0 p 4) d a none p false s (fun s i j => quantize s.est.fd s.est.wd s.est.sd (numA s.est i j))

end Sys2Proof.Machine
end

