-- ==== Sys2Proof/Machine/Pred.lean ====
section
/-! DEFINITION. Sys2Proof/Machine/Pred.lean: predicate and mask-stack instructions (R157-R160). -/

namespace Sys2Proof.Machine

/-- The lanes' checks of a predicate or mask instruction: its rows are predicates and mask levels, its element groups
the `n` that it handles; of the instructions that deliver to a scalar only the copies are compared (R125, R248, R249, R253). -/
def rowCheck (s : State) (checked : Bool) (ps : List (BitVec 6)) (levels : List Nat) (n : Nat) (k : State → Res) : Res :=
  lanesThen s checked
    { rows := (ps.filter (· != 0)).map predRow ++ (levels.filter (fun l => l != 0 && decide (l ≤ 16))).map levelRow
      upto := some n, act := List.range n } k

/-- The lanes' checks of an instruction over the elements below VL. -/
def predCheck (s : State) (checked : Bool) (ps : List (BitVec 6)) (levels : List Nat) (k : State → Res) : Res :=
  rowCheck s checked ps levels s.est.vl k

/-- The lanes' checks of an instruction over a mask level, which covers every element up to VLMAX (R117). -/
def levelCheck (s : State) (ps : List (BitVec 6)) (levels : List Nat) (k : State → Res) : Res :=
  rowCheck s true ps levels (vlmaxOf s.hart s.who) k

/-- Writes a predicate at the elements below VL where the top is true, from some predicates (R157). -/
def predWrite (w : BitVec 32) (d : BitVec 6) (ps : List (BitVec 6)) (s : State)
    (f : (BitVec 6 → Nat → Bool) → Nat → Bool) : Out :=
  issue w [] s (fun s => predCheck s true ps [s.est.msdepth] fun s =>
    let base := laneBase s.hart s.who
    let js := (List.range s.est.vl).filter (fun j => topAt s.hart s.est base j)
    .adv (s.setHart (s.hart.setPred base d js (js.filter (f (predAt s.hart s.est base))))))

/-- The true elements of a predicate below VL under the top (R158). -/
def predTrue (s : State) (a : BitVec 6) : List Nat :=
  let base := laneBase s.hart s.who
  (List.range s.est.vl).filter (fun j => predAt s.hart s.est base a j && topAt s.hart s.est base j)

/-- A result of the lanes for scalar registers: they are empty from issue until the fill (R17, R158, R165). -/
def fillScalars (s : State) (dests : List (BitVec 5)) (k : Res) : Res :=
  if s.thr.pendingReg dests || !s.thr.fillRoom then .stall s else k

/-- The lanes of the thread in focus up to VLMAX, with their mirrors. -/
def ownLanes (s : State) : Plane :=
  mirrored s.hart (laneSet (laneBase s.hart s.who) (List.range (vlmaxOf s.hart s.who)))

/-- The lanes of the elements below VL, with their mirrors. -/
def vlLanes (s : State) : Plane := mirrored s.hart (laneSet (laneBase s.hart s.who) (List.range s.est.vl))

/-- A predicate as a plane over all lanes. -/
def predPlane (s : State) (p : BitVec 6) : Plane :=
  if p = 0 then vlLanes s else s.hart.preds[p.toNat]'p.isLt

/-- A hart with a mask level's own lanes replaced; level `n` counts from 1 (R117). -/
def Hart.setLevel (h : Hart) (n : Nat) (v mask : Plane) : Hart :=
  if hn : n - 1 < 24 then
    { h with
      levels := h.levels.set (n - 1) (mergePlane h.levels[n - 1] v mask)
      damaged := marksAfter h.damaged [levelRow n] mask }
  else h

/-- A level of the mask stack; level 0 is all ones (R160). -/
def levelAt (h : Hart) (n : Nat) : Plane :=
  if n = 0 then BitVec.allOnes 16384 else h.levels.toList.getD (n - 1) 0

/-- A predicate or seam plane read at an element. -/
def seamAt (s : State) (j : Nat) : Bool := s.hart.seam.getLsbD (laneBase s.hart s.who + j)

/-- PAND: Writes pa AND pb into pd. (R157) -/
def execPand (d a b : BitVec 6) (s : State) : Out :=
  predWrite (wP 29 d a b 0) d [a, b] s (fun q j => q a j && q b j)

/-- POR: Writes pa OR pb into pd. (R157) -/
def execPor (d a b : BitVec 6) (s : State) : Out :=
  predWrite (wP 29 d a b 1) d [a, b] s (fun q j => q a j || q b j)

/-- PXOR: Writes pa XOR pb into pd. (R157) -/
def execPxor (d a b : BitVec 6) (s : State) : Out :=
  predWrite (wP 29 d a b 2) d [a, b] s (fun q j => q a j ^^ q b j)

/-- PANDN: Writes pa AND NOT pb into pd. (R157) -/
def execPandn (d a b : BitVec 6) (s : State) : Out :=
  predWrite (wP 29 d a b 3) d [a, b] s (fun q j => q a j && !q b j)

/-- PNOT: Writes NOT pa into pd. (R157) -/
def execPnot (d a : BitVec 6) (s : State) : Out :=
  predWrite (wP 29 d a 0 4) d [a] s (fun q j => !q a j)

/-- PMOV: Copies pa into pd. (R157) -/
def execPmov (d a : BitVec 6) (s : State) : Out :=
  predWrite (wP 29 d a 0 5) d [a] s (fun q j => q a j)

/-- PALL: Sets pd to 1 at each written element. (R157) -/
def execPall (d : BitVec 6) (s : State) : Out :=
  predWrite (wP 29 d 0 0 6) d [] s (fun _ _ => true)

/-- PCLR: Clears pd at each written element. (R157) -/
def execPclr (d : BitVec 6) (s : State) : Out :=
  predWrite (wP 29 d 0 0 7) d [] s (fun _ _ => false)

/-- PCNT: Counts the true elements of pa below VL under the top of the mask stack into gd. (R158) -/
def execPcnt (d : BitVec 5) (a : BitVec 6) (s : State) : Out :=
  issue (wP 29 (d ++ 0#1) a 0 8) [] s (fun s =>
    fillScalars s [d] (predCheck s false [a] [s.est.msdepth] fun s =>
      .adv (s.startFill [d] (.value [word (predTrue s a).length]))))

/-- PFFS: Writes the index of the first true element of pa into gd, or all ones. (R158) -/
def execPffs (d : BitVec 5) (a : BitVec 6) (s : State) : Out :=
  issue (wP 29 (d ++ 0#1) a 0 9) [] s (fun s =>
    let v := match predTrue s a with
      | j :: _ => word j
      | [] => BitVec.allOnes 64
    fillScalars s [d] (predCheck s false [a] [s.est.msdepth] fun s => .adv (s.startFill [d] (.value [v]))))

/-- PFILT: Combines a grammar predicate with filters, falling back so that a candidate remains where one exists. (R159) -/
def execPfilt (d a b : BitVec 6) (s : State) : Out :=
  issue (wP 29 d a b 10) [] s (fun s => predCheck s true [a, b] [s.est.msdepth] fun s =>
    let base := laneBase s.hart s.who
    let js := (List.range s.est.vl).filter (fun j => topAt s.hart s.est base j)
    let ga := js.filter (fun j => predAt s.hart s.est base a j)
    let t := ga.filter (fun j => predAt s.hart s.est base b j)
    let x := s.est
    let s1 := s.setHart (s.hart.setPred base d js (if t.isEmpty then ga else t))
    if !t.isEmpty then .adv s1
    else .adv (s1.setEst { s1.est with sampstat := x.sampstat ||| (if ga.isEmpty then 2#2 else 1#2) }))

/-- MPUSH: Pushes the top of the mask stack ANDed with pa. (R160) -/
def execMpush (a : BitVec 6) (s : State) : Out :=
  issue (wP 29 0 a 0 11) [] s (fun s =>
    let x := s.est
    if x.msdepth = 24 then .trap s .stackOvf 2
    else levelCheck s [a] [x.msdepth] fun s =>
      let h := s.hart.setLevel (x.msdepth + 1) (topPlane s.hart x &&& predPlane s a) (ownLanes s)
      .adv ((s.setHart h).setEst { x with msdepth := x.msdepth + 1 }))

/-- MINV: Replaces the top of the mask stack with the level below AND NOT the top. (R160) -/
def execMinv (s : State) : Out :=
  issue (wP 29 0 0 0 12) [] s (fun s =>
    let x := s.est
    if x.msdepth = 0 then .trap s .stackOvf 2
    else levelCheck s [] [x.msdepth - 1, x.msdepth] fun s =>
      .adv (s.setHart (s.hart.setLevel x.msdepth (levelAt s.hart (x.msdepth - 1) &&& ~~~(topPlane s.hart x)) (ownLanes s))))

/-- MPOP: Pops the mask stack. (R160) -/
def execMpop (s : State) : Out :=
  issue (wP 29 0 0 0 13) [] s (fun s =>
    let x := s.est
    if x.msdepth = 0 then .trap s .stackOvf 2 else .adv (s.setEst { x with msdepth := x.msdepth - 1 }))

/-- MTOP: Copies the top of the mask stack into pd below VL. (R157) -/
def execMtop (d : BitVec 6) (s : State) : Out :=
  issue (wP 29 d 0 0 14) [] s (fun s => predCheck s true [] [s.est.msdepth] fun s =>
    let base := laneBase s.hart s.who
    let js := List.range s.est.vl
    .adv (s.setHart (s.hart.setPred base d js (js.filter (fun j => topAt s.hart s.est base j)))))

/-- SEAMRD: Copies the seam mask into pd. (R157) -/
def execSeamrd (d : BitVec 6) (s : State) : Out :=
  issue (wP 29 d 0 0 15) [] s (fun s => predCheck s true [] [s.est.msdepth] fun s =>
    let base := laneBase s.hart s.who
    let js := (List.range s.est.vl).filter (fun j => topAt s.hart s.est base j)
    .adv (s.setHart (s.hart.setPred base d js (js.filter (seamAt s)))))

/-- SEAMWR: Sets the seam mask below VL from pa. (R157) -/
def execSeamwr (a : BitVec 6) (s : State) : Out :=
  issue (wP 29 0 a 0 16) [] s (fun s => predCheck s true [a] [] fun s =>
    .adv (s.setHart { s.hart with seam := mergePlane s.hart.seam (predPlane s a) (vlLanes s) }))

end Sys2Proof.Machine
end

