-- ==== Sys2Proof/Machine/Split.lean ====
section
/-! DEFINITION. Sys2Proof/Machine/Split.lean: vector length, widths and register release, micro-threads, and the prefix (R46, R47, R142-R145, R164, R207-R213). -/

namespace Sys2Proof.Machine

/-- The least of a request, VLMAX and the grant, which micro-threads share (R142). -/
def vlOf (s : State) (req : Nat) : Nat :=
  let g := (s.die s.loc.die).gvl
  let share := match s.who with
    | .mt _ => g / s.hart.split
    | _ => g
  min req (min (vlmaxOf s.hart s.who) share)

/-- Sets VL and gd as SETVL does; `k` goes on with the new VL (R142). -/
def setVl (s : State) (d a : BitVec 5) (k : State → Nat → Res) : Res :=
  if s.thr.pendingReg [d] then .stall s
  else
    let v := vlOf s (s.thr.reg a).toNat
    let s1 := s.setThr (s.thr.setReg d (word v))
    k (s1.setEst { s1.est with vl := v }) v

/-- The rows that SETVLF takes: those whose lengths still fit, with their sum and number (R164). -/
def takeRows (lim : Nat) : List Nat → Nat → List Nat → Nat × List Nat
  | [], tot, ks => (tot, ks)
  | l :: ls, tot, ks => if tot + l ≤ lim then takeRows lim ls (tot + l) (ks ++ [l]) else (tot, ks)

/-- The seam bits of rows packed one after the other; a row of length 0 has none (R164). -/
def seamBits (pos : Nat) : List Nat → List Nat
  | [] => []
  | l :: ls => if l = 0 then seamBits pos ls else pos :: seamBits (pos + l) ls

/-- SETVL: Sets VL to the request bounded by VLMAX and GVL and writes it to gd. (R142) -/
def execSetvl (d a : BitVec 5) (s : State) : Out :=
  issue (wZ 36 d a 0 0) [(a, 0)] s (fun s => setVl s d a (fun s _ => .adv s))

/-- SETVLX: Sets VL as SETVL does and branches when the new VL is 0. (R143) -/
def execSetvlx (d a : BitVec 5) (o : BitVec 16) (s : State) : Out :=
  issue (wSV 35 d a o) [(a, 0)] s (fun s => setVl s d a (fun s v =>
    if v = 0 then jumpTo s (relTarget s.thr.pc 16 o.toNat) else .adv s))

/-- SETVLF: Packs whole rows into the next strip, setting VL, CCNT and the seam mask. (R164) -/
def execSetvlf (d a : BitVec 5) (s : State) : Out :=
  issue (wZ 36 d a 0 1) [] s (fun s =>
    if s.thr.pendingReg [d] then .stall s
    else
      let n := s.est.vl
      withSrc s 0 (some a) (fun v =>
        match firstFault [v] (List.range n) with
        | some (_, m, e) => spoolTrap s m 0 e
        | none =>
          let u : LaneUse :=
            { regs := (plainRegs s [some a]).map (fun r => (r, 32)), src := List.range n
              act := List.range (vlmaxOf s.hart s.who) }
          lanesThen s false u fun s1 =>
            let base := laneBase s1.hart s1.who
            let lim := vlOf s1 16384
            let lens := (List.range n).map (fun j => rawAt (base + j) v.planes)
            let t := takeRows lim lens 0 []
            let long := t.2.isEmpty && decide (0 < n)
            let tot := if long then lim else t.1
            let bits := laneSet base (if long then [0] else seamBits 0 t.2)
            let s2 := s1.consume (srcSpools [v]) n
            let s3 := s2.setHart { s2.hart with
              seam := mergePlane s2.hart.seam (mirrored s2.hart bits) (ownLanes s2) }
            let s4 := s3.setEst { s3.est with vl := tot, ccnt := BitVec.ofNat 15 t.2.length }
            .adv (s4.setThr (s4.thr.setReg d (word tot)))))

/-- VKILL: Frees the vector registers named by the mask in ga. (R145) -/
def execVkill (a : BitVec 5) (s : State) : Out :=
  issue (wZ 36 0 a 0 2) [(a, 0)] s (fun s =>
    let m := s.thr.reg a
    .adv (s.setEst { s.est with vregs := s.est.vregs.mapFinIdx (fun k v _ => if m.getLsbD k then {} else v) }))

/-- SETEW: Writes the element widths and signedness of EW. (R144) -/
def execSetew (a b : BitVec 4) (d : BitVec 5) (x y z : BitVec 1) (s : State) : Out :=
  issue (wEW 37 a b d x y z) [] s (fun s => .adv (s.setEst { s.est with ew := z ++ y ++ x ++ d ++ b ++ a }))

/-! ## Micro-threads (R208-R213) -/

/-- Micro-thread `k` of `n` at its start (R31, R208); its S-scope CSRs are the parent's, since R208 gives them no value
(DESIGN CHOICE, notes/assumptions/14.md). -/
def Hart.micro (h : Hart) (n k : Nat) : Micro :=
  { thr := { h.e with
      pc := h.e.pc + 4, loops := [], rets := [], fills := [], wait := none, posted := [], deferred := [], cut := none }
    ex := { h.ex with vl := min h.ex.vl (vlmaxOf { h with split := n } (.mt (Fin.ofNat 16 k))) } }

/-- SPLIT's effect on the hart once E is quiet: the parent's saved state is that after SPLIT, which ends an iteration when
it stands at a body's end (R74, R208). -/
def Hart.splitInto (h : Hart) (n : Nat) : Hart :=
  { h with
    split := n
    mts := Vector.ofFn (fun k => if k.val < n then h.micro n k.val else {})
    splitSave := some { thr := { h.e.advance false with cut := none }, ex := h.ex } }

/-- The return-stack entries that lie in the spill area, the oldest first: those beyond the 16 newest (R21, R22; their order
in the area is a DESIGN CHOICE, notes/assumptions/28.md). -/
def spilledRets (rets : List Word) : List Word := (rets.drop 16).reverse

/-- The parent's mask levels, seam mask and spilled return entries copied into the split save (R23, R114, R208). -/
def State.saveSplit (s : State) : State :=
  let h := s.hart
  let s1 := (List.range h.ex.msdepth).foldl (fun s k =>
    s.putRows (BitVec.allOnes 16384) [h.levels.toList.getD k 0] (h.levelSlot (k + 1))) s
  let s2 := s1.putRows (BitVec.allOnes 16384) [h.seam] h.seamSlot
  let rets := (spilledRets h.e.rets).flatMap (fun w => bytesOf 8 w.toNat)
  if rets.isEmpty then s2 else s2.physStore h.retSlot rets

/-- The parent's mask levels, seam mask and spilled return entries as the split save holds them (R23, R210). -/
def State.loadSplit (s : State) (sv : SplitSave) : Vector Plane 24 × Plane × List Word :=
  let h := s.hart
  let n := sv.thr.rets.length - 16
  (Vector.ofFn (fun k => if k.val < sv.ex.msdepth then s.rowAt (h.levelSlot (k.val + 1)) else h.levels[k]),
    s.rowAt h.seamSlot,
    sv.thr.rets.take 16 ++ ((List.range n).map (fun k => physWord s (h.retSlot + 8 * k))).reverse)

/-- Every micro-thread of the split waits in JOIN (R210). -/
def Hart.allJoined (h : Hart) : Bool :=
  (List.range h.split).all (fun k => (h.mts.toList.getD k {}).thr.run == .joined)

/-- The lanes of micro-thread `k`, with their mirrors. -/
def microLanes (h : Hart) (k : Nat) : Plane := partLanes h (.mt (Fin.ofNat 16 k))

/-- A register in the maps of the micro-threads, by number. -/
def Hart.mapsOf (h : Hart) (r : Nat) : List (Nat × VReg) :=
  (List.range h.split).map (fun k => (k, (h.mts.toList.getD k {}).ex.vregs.toList.getD r {}))

/-- A register merged at JOIN: the largest stored width, the elements of narrower partitions extended by the SD recorded
in their own map, and the SD of the lowest micro-thread that holds that width (R119, R210). -/
def Hart.mergeReg (h : Hart) (r : Nat) : VReg :=
  let vs := h.mapsOf r
  let w := vs.foldl (fun acc v => max acc v.2.planes.length) 0
  match vs.find? (fun v => v.2.planes.length == w) with
  | none => {}
  | some top =>
    let planes := vs.foldl (fun acc v =>
      let own := planesAt v.2.planes w v.2.sd
      acc.mapIdx (fun b p => mergePlane p (own.getD b 0) (microLanes h v.1))) (List.replicate w 0)
    { top.2 with planes := planes, merged := true }

/-- Every micro-thread's map holds a register in the same rows, so that the merged map may hold it there. -/
def Hart.sameRows (h : Hart) (r : Nat) : Bool :=
  match h.mapsOf r with
  | [] => true
  | v :: vs => vs.all (fun u => u.2.rows == v.2.rows && u.2.inPool == v.2.inPool && u.2.planes.length == v.2.planes.length)

/-- The marks of bad parity of a register's bits in the micro-threads' maps, by bit-plane and lane, wherever the bits lie
(R210, R251). -/
def Hart.mergedMarks (h : Hart) (r : Nat) : List (Nat × Nat) :=
  (h.mapsOf r).flatMap (fun v =>
    ((v.2.rows.mapIdx (fun b x => (b, x))).flatMap (fun x =>
      (h.damaged.filter (fun m => m.1 == x.2)).map (fun m => (x.1, m.2))) ++ v.2.marks).filter
        (fun m => (microLanes h v.1).getLsbD m.2))

/-- Registers that lie in different rows in the micro-threads' maps, placed in rows of their own when the maps are merged:
the lowest free ones, or in the backing area when too few are free; which is open (DESIGN CHOICE,
notes/assumptions/13.md). -/
def State.placeMerged (s : State) : List Nat → Nat → State
  | [], _ => s
  | r :: rs, used =>
    let h := s.hart
    let v := h.ex.vregs.toList.getD r {}
    let rows := lowRows used 640 0 v.planes.length
    let all := BitVec.allOnes 16384
    let put (h : Hart) (v : VReg) : Hart :=
      { h with ex := { h.ex with vregs := if hr : r < 32 then h.ex.vregs.set r v else h.ex.vregs } }
    if rows.length = v.planes.length then
      (s.setHart ((put h { v with rows := rows, inPool := true }).writeRows all rows v.planes)).placeMerged rs
        (rows.foldl (fun a r => a ||| (1 <<< r)) used)
    else
      ((s.setHart (put h { v with rows := [], inPool := false })).putRows all v.planes (h.regSlot r)).placeMerged rs used

/-- The parent once every micro-thread has joined, at the JOIN that micro-thread 0 executed (R23, R31, R119, R210): TVEC,
which is E's, keeps its value, and g0 its saved full or empty bit beside the new bit 0 (DESIGN CHOICE,
notes/assumptions/64.md). -/
def Hart.join (h : Hart) (sv : SplitSave) (lv : Vector Plane 24 × Plane × List Word) : Hart :=
  let ms := h.mts.toList.take h.split
  let g0 := ms.foldl (fun (acc : Word) (m : Micro) => acc ||| (m.thr.reg 0 &&& 1)) (sv.thr.reg 0)
  let x := { sv.ex with
    fstat := ms.foldl (fun acc m => acc ||| m.ex.fstat) sv.ex.fstat
    sampstat := ms.foldl (fun acc m => acc ||| m.ex.sampstat) sv.ex.sampstat
    vregs := Vector.ofFn (fun r => h.mergeReg r.val) }
  { h with
    e := { sv.thr with
      g := sv.thr.g.set 0 g0, pc := (h.mts[0]).thr.pc, rets := lv.2.2, tvec := h.e.tvec, wait := none, run := .running }
    ex := x, split := 0, splitSave := none, trapMt := none, mts := Vector.replicate 16 {}
    levels := lv.1, seam := lv.2.1 }

/-- Every micro-thread has joined: the parent goes on, its maps merged (R74, R210). -/
def State.joinAll (s : State) : State :=
  let h := s.hart
  match h.splitSave with
  | none => s
  | some sv =>
    let h0 := h.join sv (s.loadSplit sv)
    let lost := s.poisonMarks ((List.range (min 16 sv.ex.msdepth)).map (· + 704)) (h.levelSlot 1) (BitVec.allOnes 16384)
    let h1 := { h0 with damaged := h0.damaged ++ lost }
    let moved := (List.range 32).filter (fun r => !h.sameRows r)
    let kept := { h1.ex with
      vregs := h1.ex.vregs.mapFinIdx (fun r v _ => if moved.contains r then { v with rows := [] } else v) }
    let s1 := ({ s.setHart { h1 with ex := kept } with who := .e }).placeMerged moved (usedRows kept)
    let h2 := s1.hart
    let carried := moved.flatMap (fun r =>
      let rows := (h2.ex.vregs.toList.getD r {}).rows
      (h.mergedMarks r).filterMap (fun m => (rows[m.1]?).map (fun x => (x, m.2))))
    let x := { h2.ex with vregs := h2.ex.vregs.mapFinIdx (fun r v _ =>
      if moved.contains r && !v.inPool then { v with marks := h.mergedMarks r } else v) }
    s1.setHart { h2 with damaged := h2.damaged ++ carried, ex := x, e := h2.e.advance h2.park.isSome }

/-- SPLIT: Waits for E to quiesce, saves the parent state and divides E into n micro-threads. (R208) -/
def execSplit (n : BitVec 5) (s : State) : Out :=
  issue (wQ 39 n 0 0 0) [] s (fun s => notSplit (wQ 39 n 0 0 0) s (fun s =>
    if !s.thr.fills.isEmpty || !s.thr.posted.isEmpty || s.core.unstarted s.who || s.hart.dsPending.isSome then .stall s
    else
      let s1 := s.noWait.saveSplit
      .go (s1.setHart (s1.hart.splitInto n.toNat))))

/-- JOIN: Stops a micro-thread; when all have joined, restores the parent state and merges the rename maps. (R210) -/
def execJoin (s : State) : Out :=
  issue (wQ 39 0 0 0 1) [] s (fun s =>
    match s.who with
    | .mt _ =>
      if !s.thr.fills.isEmpty || !s.thr.posted.isEmpty || s.core.unstarted s.who || !s.thr.isFull 0 then .stall s
      else
        let s1 := s.setThr { s.thr with run := .joined, wait := none }
        if s1.hart.allJoined then .go s1.joinAll else .go s1
    | _ => .trap s .splitIll ((wQ 39 0 0 0 1).setWidth 64))

/-- MTID: Writes the issuing micro-thread's index to gd. (R213) -/
def execMtid (d : BitVec 5) (s : State) : Out :=
  issue (wQ 39 d 0 0 2) [] s (fun s => writeReg s d ((mtidOf s.who).setWidth 64))

/-- PFX: Lends a predicate, a destination copy and last-use marks to the next instruction through PFXS. (R47) -/
def execPfx (p : BitVec 6) (i : BitVec 1) (v : BitVec 5) (c e l u : BitVec 1) (s : State) : Out :=
  issue (wX 40 p i v c e l u) [] s (fun s =>
    let f : Pfx :=
      { pend := true, pm := p, inv := i == 1, vc := v, ce := c == 1, pe := e == 1, lua := l == 1, lub := u == 1 }
    .adv (s.setEst { s.est with pfx := f }))

end Sys2Proof.Machine
end

