-- ==== Sys2Proof/Machine/Admit.lean ====
section
/-! DEFINITION. Sys2Proof/Machine/Admit.lean: admission of vector instructions to the lanes: which registers a word reads
and writes, spilling to the backing area and filling back (R114), and the copy into the operand buffer (R249). -/

namespace Sys2Proof.Machine

/-! ## The registers that a word names (R43) -/

/-- The FN field of formats V, VS, VR, VM and VX. -/
def fn5 (w : BitVec 32) : Nat := (bits w 0 5).toNat

/-- The FN field of formats VC, Z and PG. -/
def fn4 (w : BitVec 32) : Nat := (bits w 0 4).toNat

/-- The va field: [19:15] in format VC, [20:16] otherwise (R39). -/
def vaOf (w : BitVec 32) : BitVec 5 := if major w == 0x1C then bits w 15 5 else bits w 16 5

/-- The vb field: [14:10] in format VC, [15:11] otherwise (R39). -/
def vbOf (w : BitVec 32) : BitVec 5 := if major w == 0x1C then bits w 10 5 else bits w 11 5

/-- The vd or vs field: [25:21], the low 5 bits of d6 in format PG, and there the b field of PGPRUNE (R39, R43). -/
def vdOf (w : BitVec 32) : BitVec 5 :=
  if major w == 0x26 then (if fn4 w == 5 then bits w 10 5 else bits w 20 5) else bits w 21 5

/-- The word writes the v register that `vdOf` gives. -/
def writesVd (w : BitVec 32) : Bool :=
  let m := major w
  (decide (0x18 ≤ m) && decide (m ≤ 0x1B)) || m == 0x1F || m == 0x20 || (m == 0x21 && fn5 w != 3) ||
    (m == 0x22 && [0, 2, 4, 6, 10, 12].contains (fn5 w)) || (m == 0x26 && [3, 4, 5, 7].contains (fn4 w))

/-- The word reads the v register that its d field names, as the data that it stores. -/
def readsVs (w : BitVec 32) : Bool := major w == 0x22 && [1, 3, 5, 7, 11, 13].contains (fn5 w)

/-- The word reads a v register through another field: an offset, an index, a token, or the rows' lengths. -/
def readsOther (w : BitVec 32) : List (BitVec 5) :=
  (if major w == 0x22 && (fn5 w == 4 || fn5 w == 5) then [bits w 11 5] else []) ++
    (if major w == 0x26 && fn4 w == 7 then [bits w 10 5] else []) ++
    (if major w == 0x24 && fn4 w == 1 then [bits w 16 5] else [])

/-- The per-row register of a reduction (R169). -/
def rowReg (x : EState) (w : BitVec 32) : Option (BitVec 5) :=
  if major w == 0x1E && x.seamctl.getLsbD 0 then some (BitVec.ofNat 5 (x.seamctl.toNat / 2)) else none

/-- The registers in the lanes that the instruction holds: its sources, those whose bits it keeps, and the copy's (R114). -/
def heldRegs (s : State) (w : BitVec 32) : List (BitVec 5) :=
  let x := s.est
  plainRegs s ([if readsVa w then some (vaOf w) else none, if readsVb w then some (vbOf w) else none,
      if writesVd w || readsVs w then some (vdOf w) else none, rowReg x w] ++ (readsOther w).map some) ++
    (if writesVd w && x.pfx.pend && x.pfx.ce then [x.pfx.vc] else [])

/-- The word's instruction records VSTART and resumes (R175, R224). -/
def recordsVstart (w : BitVec 32) : Bool :=
  let m := major w
  m == 0x1E || (m == 0x1F && fn5 w != 6) || (m == 0x22 && (decide (fn5 w < 6) || decide (9 < fn5 w)))

/-- The width of the per-row register of a reduction: 16 in the arg forms, else that of its result (R169). -/
def rowWidth (x : EState) (w : BitVec 32) : Nat :=
  if [5, 6, 9].contains (fn5 w) then 16 else (sideWidths x w).2.2

/-- The fresh rows that the instruction takes: those of its destination, of the per-row register and of the copy, but for the
rows of the pending destination with which it resumes (R113, R114, R176). -/
def freshOf (s : State) (w : BitVec 32) : Nat :=
  let x := s.est
  let wd := (sideWidths x w).2.2
  let n := (if writesVd w && !(plainRegs s [some (vdOf w)]).isEmpty then wd else 0) +
    (if (rowReg x w).isSome then rowWidth x w else 0)
  let held := match x.pending with
    | some p => if recordsVstart w && x.vstart != 0 && p.rows.length == n then n else 0
    | none => 0
  n - held + (if writesVd w && x.pfx.pend && x.pfx.ce then wd else 0)

/-! ## Spilling and filling (R114) -/

/-- The threads of a hart that have rename maps: E, or its micro-threads while it is split (R112). -/
def Hart.laneThreads (h : Hart) : List Who :=
  if h.split = 0 then [.e] else ((List.finRange 16).filter (fun k => decide (k.val < h.split))).map Who.mt

/-- The pool rows that some threads' maps hold. -/
def Hart.rowsUsed (h : Hart) (ws : List Who) : Nat := ws.foldl (fun acc w => acc ||| usedRows (h.est w)) 0

/-- The registers that may be spilled: those in the pool of some threads, beside some registers. -/
def Hart.spillable (h : Hart) (ws : List Who) (keep : List (BitVec 5)) : List (Who × BitVec 5 × Nat) :=
  ws.flatMap (fun w => ((List.finRange 32).map (fun r => BitVec.ofFin (w := 5) r)).filterMap (fun r =>
    let v := (h.est w).vreg r
    if v.rows.isEmpty || !v.inPool || keep.contains r then none else some (w, r, v.stamp)))

/-- The victim: the least recently written (R114). -/
def Hart.victim (h : Hart) (ws : List Who) (keep : List (BitVec 5)) : Option (Who × BitVec 5 × Nat) :=
  (h.spillable ws keep).foldl (fun best x =>
    match best with
    | some b => if x.2.2 < b.2.2 then some x else some b
    | none => some x) none

/-- A hart with the place of a thread's register changed. -/
def Hart.setReg (h : Hart) (w : Who) (r : BitVec 5) (v : VReg) : Hart :=
  h.setEst { h.est w with vregs := (h.est w).vregs.set r.toNat v r.isLt } w

/-- The marks of bad parity in some rows, as marks of the bit-planes that the rows hold (R114, R251). -/
def planeMarks (damaged : List (Nat × Nat)) (rows : List Nat) : List (Nat × Nat) :=
  (rows.mapIdx (fun b r => (b, r))).flatMap (fun x =>
    (damaged.filter (fun m => m.1 == x.2)).map (fun m => (x.1, m.2)))

/-- Marks of bit-planes as marks of the rows that hold them, in some lanes. -/
def rowMarks (marks : List (Nat × Nat)) (rows : List Nat) (lanes : Plane) : List (Nat × Nat) :=
  marks.filterMap (fun m => if lanes.getLsbD m.2 then (rows[m.1]?).map (fun r => (r, m.2)) else none)

/-- A register of a thread of the hart in focus written to its slot of the backing area, in the thread's lanes; its rows
become free, and a bit whose parity fails is no better there (R114, R251). -/
def State.spill (s : State) (w : Who) (r : BitVec 5) : State :=
  let h := s.hart
  let v := (h.est w).vreg r
  let s1 := s.putRows (partLanes h w) (v.rows.map h.poolRow) (h.regSlot r.toNat)
  s1.setHart (s1.hart.setReg w r { v with rows := [], inPool := false, marks := planeMarks h.damaged v.rows })

/-- The pending destination of a thread of the hart in focus, and its per-row register, written to their slots; their rows
become free (R114, R176). -/
def State.spillPending (s : State) (w : Who) (p : Pending) : State :=
  let h := s.hart
  let rows := p.rows.map h.poolRow
  let s1 := (s.putRows (partLanes h w) (rows.take p.planes.length) h.pendSlot).putRows (partLanes h w)
    (rows.drop p.planes.length) h.perRowSlot
  s1.setHart (s1.hart.setEst { s1.hart.est w with pending := some { p with rows := [] } } w)

/-- A thread of some whose pending destination is in the pool. -/
def Hart.pendingOf (h : Hart) (ws : List Who) : Option (Who × Pending) :=
  (ws.filterMap (fun w => (h.est w).pending.map (fun p => (w, p)))).find? (fun x => !x.2.rows.isEmpty)

/-- Victims are spilled until `n` rows of the pool are free in the maps of some threads: registers, and once there is none the
pending destinations, those of an instruction that resumes (`keepPend`) apart (R114). -/
def State.makeRoom (s : State) (ws : List Who) (keep : List (BitVec 5)) (keepPend : Bool) (n : Nat) : Nat → State
  | 0 => s
  | fuel + 1 =>
    if (lowRows (s.hart.rowsUsed ws) 640 0 n).length = n then s
    else
      match s.hart.victim ws keep, if keepPend then none else s.hart.pendingOf ws with
      | some v, _ => (s.spill v.1 v.2.1).makeRoom ws keep keepPend n fuel
      | none, some p => (s.spillPending p.1 p.2).makeRoom ws keep keepPend n fuel
      | none, none => s

/-- A spilled register of the thread in focus read back from its slot into fresh rows (R114). -/
def State.fillBack (s : State) (keep : List (BitVec 5)) (keepPend : Bool) (r : BitVec 5) : State :=
  let v := s.est.vreg r
  if v.inPool || v.planes.isEmpty then s
  else
    let n := v.planes.length
    let s1 := s.makeRoom [s.who] keep keepPend n 32
    let rows := s1.est.freshRows n
    let lanes := partLanes s1.hart s1.who
    let mem := s1.getRows n (s1.hart.regSlot r.toNat)
    let ps := v.planes.mapIdx (fun b p => mergePlane p (mem.getD b 0) lanes)
    let h := (s1.hart.setReg s1.who r { v with planes := ps, rows := rows, inPool := true, marks := [] }).writeRows lanes rows ps
    let lost := rowMarks v.marks rows lanes ++ s1.poisonMarks rows (s1.hart.regSlot r.toNat) lanes
    s1.setHart { h with damaged := h.damaged ++ lost }

/-- The spilled pending destination of the instruction that resumes in the thread in focus read back into fresh rows (R114,
R176). -/
def State.fillPending (s : State) (keep : List (BitVec 5)) : State :=
  match s.est.pending with
  | none => s
  | some p =>
    if !p.rows.isEmpty then s
    else
      let n := p.planes.length + p.perRow.length
      let s1 := s.makeRoom [s.who] keep true n 32
      let rows := s1.est.freshRows n
      let lanes := partLanes s1.hart s1.who
      let get (ps : List Plane) (a : Nat) : List Plane :=
        (ps.zip (s1.getRows ps.length a)).map (fun x => mergePlane x.1 x.2 lanes)
      let ps := get p.planes s1.hart.pendSlot
      let rs := get p.perRow s1.hart.perRowSlot
      let s2 := s1.setEst { s1.est with pending := some { p with planes := ps, perRow := rs, rows := rows } }
      let h := s2.hart.writeRows lanes rows (ps ++ rs)
      let lost := s2.poisonMarks (rows.take ps.length) h.pendSlot lanes ++
        s2.poisonMarks (rows.drop ps.length) h.perRowSlot lanes
      s2.setHart { h with damaged := h.damaged ++ lost }

/-! ## Admission (R107, R114, R249) -/

/-- The planes of a source of an instruction at its effective width; none of a strip that is not there yet. -/
def sourcePlanes (s : State) (r : Option (BitVec 5)) (wd : Nat) (signed : Bool) : List Plane :=
  match r with
  | none => []
  | some r =>
    match readSrc s 0 r with
    | .ok v => v.at wd signed
    | _ => []

/-- The A and B bits enter the operand buffer, A first, and the latches of the lanes are left as the instruction leaves
them, which is open (R107, R249). -/
def State.bufferOperands (s : State) (w : BitVec 32) : State :=
  let x := s.est
  let n := sideWidths x w
  let a := sourcePlanes s (if readsVa w then some (vaOf w) else none) n.1 x.sa
  let b := sourcePlanes s (if readsVb w then some (vbOf w) else none) n.2.1 x.sb
  let new := (a ++ b).take 32
  let lanes := partLanes s.hart s.who
  let l := Config.latches s.free
  { s with
    free := s.free + 1
    core := { s.core with
      opBuf := (List.range 32).map (fun n =>
        match new[n]? with
        | some p => mergePlane (s.core.opBuf.getD n 0) p lanes
        | none => s.core.opBuf.getD n 0)
      carry := mergePlane s.core.carry l.1 lanes
      compare := mergePlane s.core.compare l.2 lanes } }

/-- The word is executed in the lanes. -/
def laneWord (s : State) (w : BitVec 32) : Bool := !(heldRegs s w).isEmpty || freshOf s w != 0

/-- The word is not an instruction, or one that raises ILL before it reads anything: a load or store of MX blocks whose format is
no element kind (R37, R230). -/
noncomputable def State.illWord (s : State) (w : BitVec 32) : Bool :=
  (match decode w with | .ok _ => false | .error _ => true) ||
    (major w == 0x22 && (fn5 w == 10 || fn5 w == 11) && (mxEmax s.est.fd).isNone)

/-- The lanes take up an instruction of the thread in focus that has passed the checks of its issue: the registers that it
holds are filled back, room is made for its fresh rows, and its operands enter the operand buffer (R114, R249). A word that is
no instruction reads nothing (R37). -/
noncomputable def State.takenUp (s : State) (w : BitVec 32) : State :=
  if s.who = .a || s.illWord w || !laneWord s w || (gate w s).isSome then s
  else
    let rs := heldRegs s w
    let resumes := recordsVstart w && s.est.vstart != 0
    let s1 := rs.foldl (fun s r => s.fillBack rs resumes r) (if resumes then s.fillPending rs else s)
    (s1.makeRoom [s1.who] rs resumes (freshOf s1 w) 32).bufferOperands w

/-! ## Rows of tile tasks (R264) -/

/-- A hart with the rows of a tile task's part in its maps: E's, the micro-threads', and the one that JOIN restores. -/
def Hart.setTile (h : Hart) (rows : List Nat) : Hart :=
  { h with
    ex := { h.ex with tile := rows }
    mts := h.mts.map (fun m => { m with ex := { m.ex with tile := rows } })
    splitSave := h.splitSave.map (fun v => { v with ex := { v.ex with tile := rows } }) }

/-- A part's 96 rows are allocated on its core, spilling registers as needed (R114, R264). -/
def State.takeTileRows (s : State) (c : CoreId) : State :=
  let t := s.focus c .e
  let ws := t.hart.laneThreads
  let t1 := t.makeRoom ws [] false 96 512
  (t1.setHart (t1.hart.setTile (lowRows (t1.hart.rowsUsed ws) 640 0 96))).focus s.loc s.who

/-- A core's register takes planes, signed, in fresh rows (R113, R270). -/
def State.commitAt (s : State) (c : CoreId) (r : BitVec 5) (ps : List Plane) : State :=
  let t := (s.focus c .e).makeRoom [.e] [r] false ps.length 32
  (t.commitReg r ps true (t.est.freshRows ps.length)).focus s.loc s.who

end Sys2Proof.Machine
end

