-- ==== Sys2Proof/Machine/Int.lean ====
section
/-! DEFINITION. Sys2Proof/Machine/Int.lean: the INT group and the immediate forms (R60-R63). -/

namespace Sys2Proof.Machine

/-- The signed value of a word (R60). -/
abbrev sv (x : Word) : Int := x.toInt

/-- Quotient of R61: all ones for a zero divisor, the dividend on the one overflow, else truncated division. -/
def divS (a b : Word) : Word :=
  if b = 0 then BitVec.allOnes 64
  else if sv a = -2 ^ 63 ∧ sv b = -1 then a
  else BitVec.ofInt 64 (Int.tdiv (sv a) (sv b))

/-- Remainder of R61: the dividend for a zero divisor, 0 on the one overflow, else with the dividend's sign. -/
def remS (a b : Word) : Word :=
  if b = 0 then a
  else if sv a = -2 ^ 63 ∧ sv b = -1 then 0
  else BitVec.ofInt 64 (Int.tmod (sv a) (sv b))

/-- Unsigned quotient of R61. -/
def divU (a b : Word) : Word := if b = 0 then BitVec.allOnes 64 else word (a.toNat / b.toNat)

/-- Unsigned remainder of R61. -/
def remU (a b : Word) : Word := if b = 0 then a else word (a.toNat % b.toNat)

/-- 1 for true, 0 for false. -/
def truth (b : Bool) : Word := if b then 1 else 0

/-- The shift amount of R60: bits [5:0]. -/
def shamt (b : Word) : Nat := b.toNat % 64

/-- The number of leading zero bits of a word's `n` low bits. -/
def clzN : Nat → Word → Nat
  | 0, _ => 0
  | n + 1, x => if x.getLsbD n then 0 else 1 + clzN n x

/-- The number of trailing zero bits, from bit `i` on, of `n` bits. -/
def ctzN : Nat → Nat → Word → Nat
  | 0, _, _ => 0
  | n + 1, i, x => if x.getLsbD i then 0 else 1 + ctzN n (i + 1) x

/-- The number of one bits of a word. -/
def popc (x : Word) : Nat := ((List.range 64).filter (fun i => x.getLsbD i)).length

/-- A two-source INT instruction (R60). -/
def int2 (w : BitVec 32) (d a b : BitVec 5) (f g : BitVec 1) (s : State) (op : Word → Word → Word) : Out :=
  issue w [(a, f), (b, g)] s (fun s => writeReg s d (op (s.thr.reg a) (s.thr.reg b)))

/-- A one-source INT instruction, or an immediate form (R60, R63). -/
def int1 (w : BitVec 32) (d a : BitVec 5) (f : BitVec 1) (s : State) (op : Word → Word) : Out :=
  issue w [(a, f)] s (fun s => writeReg s d (op (s.thr.reg a)))

/-- ADD: Writes the 64-bit sum of ga and gb to gd. (R60) -/
def execAdd (d a b : BitVec 5) (f g : BitVec 1) (s : State) : Out :=
  int2 (wA 1 d a b f g 0) d a b f g s (fun x y => x + y)

/-- SUB: Writes ga minus gb, modulo 2^64, to gd. (R60) -/
def execSub (d a b : BitVec 5) (f g : BitVec 1) (s : State) : Out :=
  int2 (wA 1 d a b f g 1) d a b f g s (fun x y => x - y)

/-- MUL: Writes the low 64 bits of the product of ga and gb to gd. (R60) -/
def execMul (d a b : BitVec 5) (f g : BitVec 1) (s : State) : Out :=
  int2 (wA 1 d a b f g 2) d a b f g s (fun x y => x * y)

/-- MULH: Writes bits 127:64 of the signed product of ga and gb to gd. (R60) -/
def execMulh (d a b : BitVec 5) (f g : BitVec 1) (s : State) : Out :=
  int2 (wA 1 d a b f g 3) d a b f g s (fun x y => BitVec.ofInt 64 (sv x * sv y / 2 ^ 64))

/-- MULHN: Writes bits 127:64 of the unsigned product of ga and gb to gd. (R60) -/
def execMulhn (d a b : BitVec 5) (f g : BitVec 1) (s : State) : Out :=
  int2 (wA 1 d a b f g 4) d a b f g s (fun x y => word (x.toNat * y.toNat / 2 ^ 64))

/-- DIV: Writes the signed quotient of ga by gb to gd, rounded toward zero, with the fixed results for zero and overflow. (R61) -/
def execDiv (d a b : BitVec 5) (f g : BitVec 1) (s : State) : Out :=
  int2 (wA 1 d a b f g 5) d a b f g s (fun x y => divS x y)

/-- DIVN: Writes the unsigned quotient of ga by gb to gd. (R61) -/
def execDivn (d a b : BitVec 5) (f g : BitVec 1) (s : State) : Out :=
  int2 (wA 1 d a b f g 6) d a b f g s (fun x y => divU x y)

/-- REM: Writes the signed remainder of ga by gb to gd. (R61) -/
def execRem (d a b : BitVec 5) (f g : BitVec 1) (s : State) : Out :=
  int2 (wA 1 d a b f g 7) d a b f g s (fun x y => remS x y)

/-- REMN: Writes the unsigned remainder of ga by gb to gd. (R61) -/
def execRemn (d a b : BitVec 5) (f g : BitVec 1) (s : State) : Out :=
  int2 (wA 1 d a b f g 8) d a b f g s (fun x y => remU x y)

/-- AND: Writes the bitwise AND of ga and gb to gd. (R60) -/
def execAnd (d a b : BitVec 5) (f g : BitVec 1) (s : State) : Out :=
  int2 (wA 1 d a b f g 9) d a b f g s (fun x y => x &&& y)

/-- OR: Writes the bitwise OR of ga and gb to gd. (R60) -/
def execOr (d a b : BitVec 5) (f g : BitVec 1) (s : State) : Out :=
  int2 (wA 1 d a b f g 10) d a b f g s (fun x y => x ||| y)

/-- XOR: Writes the bitwise XOR of ga and gb to gd. (R60) -/
def execXor (d a b : BitVec 5) (f g : BitVec 1) (s : State) : Out :=
  int2 (wA 1 d a b f g 11) d a b f g s (fun x y => x ^^^ y)

/-- ANDN: Writes ga AND NOT gb to gd. (R60) -/
def execAndn (d a b : BitVec 5) (f g : BitVec 1) (s : State) : Out :=
  int2 (wA 1 d a b f g 12) d a b f g s (fun x y => x &&& ~~~y)

/-- SHL: Shifts ga left by gb[5:0] into gd. (R60) -/
def execShl (d a b : BitVec 5) (f g : BitVec 1) (s : State) : Out :=
  int2 (wA 1 d a b f g 13) d a b f g s (fun x y => x <<< shamt y)

/-- SHR: Shifts ga right logically by gb[5:0] into gd. (R60) -/
def execShr (d a b : BitVec 5) (f g : BitVec 1) (s : State) : Out :=
  int2 (wA 1 d a b f g 14) d a b f g s (fun x y => x >>> shamt y)

/-- SAR: Shifts ga right arithmetically by gb[5:0] into gd. (R60) -/
def execSar (d a b : BitVec 5) (f g : BitVec 1) (s : State) : Out :=
  int2 (wA 1 d a b f g 15) d a b f g s (fun x y => x.sshiftRight (shamt y))

/-- MIN: Writes the signed lesser of ga and gb to gd. (R60) -/
def execMin (d a b : BitVec 5) (f g : BitVec 1) (s : State) : Out :=
  int2 (wA 1 d a b f g 16) d a b f g s (fun x y => if sv x ≤ sv y then x else y)

/-- MAX: Writes the signed greater of ga and gb to gd. (R60) -/
def execMax (d a b : BitVec 5) (f g : BitVec 1) (s : State) : Out :=
  int2 (wA 1 d a b f g 17) d a b f g s (fun x y => if sv x ≤ sv y then y else x)

/-- MINN: Writes the unsigned lesser of ga and gb to gd. (R60) -/
def execMinn (d a b : BitVec 5) (f g : BitVec 1) (s : State) : Out :=
  int2 (wA 1 d a b f g 18) d a b f g s (fun x y => if x.toNat ≤ y.toNat then x else y)

/-- MAXN: Writes the unsigned greater of ga and gb to gd. (R60) -/
def execMaxn (d a b : BitVec 5) (f g : BitVec 1) (s : State) : Out :=
  int2 (wA 1 d a b f g 19) d a b f g s (fun x y => if x.toNat ≤ y.toNat then y else x)

/-- SLT: Writes 1 to gd if ga is less than gb, signed, and 0 otherwise. (R60) -/
def execSlt (d a b : BitVec 5) (f g : BitVec 1) (s : State) : Out :=
  int2 (wA 1 d a b f g 20) d a b f g s (fun x y => truth (decide (sv x < sv y)))

/-- SLTN: Writes 1 to gd if ga is less than gb, unsigned, and 0 otherwise. (R60) -/
def execSltn (d a b : BitVec 5) (f g : BitVec 1) (s : State) : Out :=
  int2 (wA 1 d a b f g 21) d a b f g s (fun x y => truth (decide (x.toNat < y.toNat)))

/-- CLZ: Writes the number of leading zero bits of ga to gd. (R60) -/
def execClz (d a : BitVec 5) (f : BitVec 1) (s : State) : Out :=
  int1 (wA 1 d a 0 f 0 22) d a f s (fun x => word (clzN 64 x))

/-- CTZ: Writes the number of trailing zero bits of ga to gd. (R60) -/
def execCtz (d a : BitVec 5) (f : BitVec 1) (s : State) : Out :=
  int1 (wA 1 d a 0 f 0 23) d a f s (fun x => word (ctzN 64 0 x))

/-- POPC: Writes the number of one bits of ga to gd. (R60) -/
def execPopc (d a : BitVec 5) (f : BitVec 1) (s : State) : Out :=
  int1 (wA 1 d a 0 f 0 24) d a f s (fun x => word (popc x))

/-- MOV: Copies ga to gd. (R60) -/
def execMov (d a : BitVec 5) (f : BitVec 1) (s : State) : Out :=
  int1 (wA 1 d a 0 f 0 25) d a f s (fun x => x)

/-- What GFULL read: the bit as it stood when the instruction first issued, kept while it waits to write gd (R18, R62). -/
def fullSample (t : Thread) (a : BitVec 5) : Word :=
  match t.wait with
  | some w => if w.kind = WaitKind.sample then w.num else truth (t.isFull a)
  | none => truth (t.isFull a)

/-- GFULL: Writes 1 to gd if ga is full and 0 if it is empty, without waiting. (R62) -/
def execGfull (d a : BitVec 5) (s : State) : Out :=
  issue (wA 1 d a 0 0 0 26) [] s (fun s =>
    let v := fullSample s.thr a
    if s.thr.pendingReg [d] then
      .stall (s.setThr { s.thr with wait := some { kind := .sample, num := v, since := s.gts, bound := 0 } })
    else writeReg s d v)

/-- GEMPTY: Waits for any outstanding fill of gd, then marks gd empty and keeps its bits. (R62) -/
def execGempty (d : BitVec 5) (s : State) : Out :=
  issue (wA 1 d 0 0 0 0 27) [] s (fun s =>
    if s.thr.pendingReg [d] then .stall s else .adv (s.setThr (s.thr.setEmpty d)))

/-- ADDI: Writes ga plus the sign-extended imm15 to gd. (R63) -/
def execAddi (d a : BitVec 5) (f : BitVec 1) (i : BitVec 15) (s : State) : Out :=
  int1 (wI 2 d a f i) d a f s (fun x => x + i.signExtend 64)

/-- ANDI: Writes ga AND the sign-extended imm15 to gd. (R63) -/
def execAndi (d a : BitVec 5) (f : BitVec 1) (i : BitVec 15) (s : State) : Out :=
  int1 (wI 3 d a f i) d a f s (fun x => x &&& i.signExtend 64)

/-- ORI: Writes ga OR the sign-extended imm15 to gd. (R63) -/
def execOri (d a : BitVec 5) (f : BitVec 1) (i : BitVec 15) (s : State) : Out :=
  int1 (wI 4 d a f i) d a f s (fun x => x ||| i.signExtend 64)

/-- XORI: Writes ga XOR the sign-extended imm15 to gd. (R63) -/
def execXori (d a : BitVec 5) (f : BitVec 1) (i : BitVec 15) (s : State) : Out :=
  int1 (wI 5 d a f i) d a f s (fun x => x ^^^ i.signExtend 64)

/-- SLTI: Writes 1 to gd if ga is less than the sign-extended imm15, signed. (R63) -/
def execSlti (d a : BitVec 5) (f : BitVec 1) (i : BitVec 15) (s : State) : Out :=
  int1 (wI 7 d a f i) d a f s (fun x => truth (decide (sv x < i.toInt)))

/-- SHLI: Shifts ga left by an immediate amount into gd. (R63) -/
def execShli (d a : BitVec 5) (f : BitVec 1) (n : BitVec 6) (s : State) : Out :=
  int1 (wI 6 d a f (0#9 ++ n)) d a f s (fun x => x <<< n.toNat)

/-- SHRI: Shifts ga right logically by an immediate amount into gd. (R63) -/
def execShri (d a : BitVec 5) (f : BitVec 1) (n : BitVec 6) (s : State) : Out :=
  int1 (wI 6 d a f (128#9 ++ n)) d a f s (fun x => x >>> n.toNat)

/-- SARI: Shifts ga right arithmetically by an immediate amount into gd. (R63) -/
def execSari (d a : BitVec 5) (f : BitVec 1) (n : BitVec 6) (s : State) : Out :=
  int1 (wI 6 d a f (256#9 ++ n)) d a f s (fun x => x.sshiftRight n.toNat)

/-- A word with one 16-bit slot replaced (R40). -/
def insertSlot (x : Word) (slot : BitVec 2) (v : BitVec 16) : Word :=
  (x &&& ~~~(0xFFFF#64 <<< (16 * slot.toNat))) ||| (v.setWidth 64 <<< (16 * slot.toNat))

/-- INS16: Replaces one 16-bit slot of gd with imm16 and keeps the other bits. (R63) -/
def execIns16 (d : BitVec 5) (sf : BitVec 2) (i : BitVec 16) (s : State) : Out :=
  issue (wN 8 d sf i) [(d, 0)] s (fun s => writeReg s d (insertSlot (s.thr.reg d) sf i))

/-- LDI: Writes the sign-extended imm21 to gd. (R63) -/
def execLdi (d : BitVec 5) (i : BitVec 21) (s : State) : Out :=
  issue (wD 9 d i) [] s (fun s => writeReg s d (i.signExtend 64))

end Sys2Proof.Machine
end

