-- ==== Sys2Proof/Machine/System.lean ====
section
/-! DEFINITION. Sys2Proof/Machine/System.lean: CSR access, traps, halt, time stamps, events, ordering and translation invalidation (R80-R92). -/

namespace Sys2Proof.Machine

/-- HALT's end: the stacks are discarded and fetching stops; the hart's iteration may end with it (R15, R83). -/
def haltNow (s : State) : State :=
  let t := s.thr.advance false
  let s1 := s.setThr { t with run := .halted, loops := [], rets := [] }
  let s2 := match s.who with
    | .a => s1
    | _ => s1.setEst { s1.est with msdepth := 0 }
  s2.endIter s2.loc

/-- Some earlier access of the thread in focus, of a kind that a FENCE's order bits name first, is not performed: an engine
command that has not started counts as a store (R89, R310, R311). What is performed is performed at every scope at once
(notes/assumptions/11.md), so the wait is the same at each. -/
def fenceHeld (s : State) (order : BitVec 4) : Bool :=
  ((order.getLsbD 0 || order.getLsbD 1) && s.thr.fills.any (fun f => f.unperformed false)) ||
    ((order.getLsbD 2 || order.getLsbD 3) &&
      (s.thr.fills.any (fun f => f.unperformed true) || s.core.unstarted s.who))

/-- The threads of a hart's A or E stream. -/
def Hart.stream (h : Hart) (e : Bool) : List Who :=
  if e then .e :: (if h.split = 0 then [] else (List.finRange 16).map .mt) else [.a]

/-- A wait is of an access that is issued and not performed: a tagged store held at its scratchpad, a version operation, a
SYWR, or a VRFLOOR; `loads` counts those that are loads alone too (R221, R330-R332, R344). -/
def Wait.open (w : Wait) (loads : Bool) : Bool :=
  match w.kind with
  | .tagged => !w.served
  | .room => w.asks.any (·.ended.isNone)
  | .version => loads && w.asks.any (·.ended.isNone)
  | .update => true
  | .floor => true
  | _ => false

/-- A fill's access that is not performed is a sync update or an atomic, which is a store too; the others load a register (R90,
R91). -/
def Fill.owed (f : Fill) (loads : Bool) : Bool :=
  match f.src with
  | .sync _ _ _ => true
  | .atom _ _ _ _ => true
  | .load _ _ => loads
  | _ => loads && f.unperformed true

/-- The accesses that a thread has issued and not performed; without `loads`, its stores (R90, R91, R304). -/
def Thread.owes (t : Thread) (loads : Bool) : List Owed :=
  (t.fills.filter (·.owed loads)).map (fun f => .fill f.id) ++ t.posted.map (fun p => .posted p.id) ++
    (match t.wait with
      | some w => if w.open loads then [.wait w.kind w.num w.since] else []
      | none => [])

/-- The engine commands of a thread that have not started: each counts as a store (R89, R310). -/
def Core.owesCmds (k : Core) (w : Who) : List Owed :=
  let mine (l : List EngCmd) : List EngCmd :=
    l.filter (fun x => !x.started && decide (x.who = w) && decide (x.team = k.hart.team))
  (mine k.bobbin).map (fun x => .command false x.ticket) ++ (mine k.xcopy).map (fun x => .command true x.ticket)

/-- The accesses that a stream of a core's hart has issued and not performed; without `loads`, its stores (R90, R91). -/
def Core.owes (k : Core) (e loads : Bool) : List (Who × Owed) :=
  (k.hart.stream e).flatMap (fun w => ((k.hart.thr w).owes loads ++ k.owesCmds w).map (fun o => (w, o)))

/-- An access is still not performed. -/
def Core.stillOwes (k : Core) (x : Who × Owed) : Bool := ((k.hart.thr x.1).owes true ++ k.owesCmds x.1).contains x.2

/-- SBAR and IFENCE wait for the accesses that had been issued when they first executed, and complete once all are performed
(R90, R91). -/
def orderWait (s : State) (owed : List (Who × Owed)) : Res :=
  let all := match s.thr.wait with
    | some w => if w.kind = WaitKind.order then w.owed else owed
    | none => owed
  let left := all.filter s.core.stillOwes
  if left.isEmpty then .adv s
  else .stall (s.setThr { s.thr with
    wait := some { kind := .order, num := 0, since := s.gts, bound := 0, owed := left } })

/-- Cached translations without those a TLBINV removes (R92, R295). -/
def tlbDrop (keep : TlbEntry → Bool) (k : Core) : Core := { k with tlb := k.tlb.filter keep }

/-- TLBINV: the entries kept, on the issuing core or on every core and tile fetch unit (R92). -/
def tlbInv (s : State) (all : BitVec 1) (keep : TlbEntry → Bool) : State :=
  if all = 1 then
    { s with
      core := tlbDrop keep s.core
      others := s.others.map (fun p => (p.1, tlbDrop keep p.2))
      dies := s.dies.map (fun d =>
        { d with clusters := d.clusters.map (fun k => { k with tlb := k.tlb.filter keep }) }) }
  else { s with core := tlbDrop keep s.core }

/-- CSRRD: Reads a CSR into gd after the access checks. (R80) -/
def execCsrrd (d : BitVec 5) (c : BitVec 12) (s : State) : Out :=
  issueIll (wZ 18 d 0 c 0) (fun s => csrIll s c.toNat 0) [] s (fun s =>
    writeReg s d (word (csrGet s c.toNat)))

/-- CSRWR: Writes ga to the RW fields of a CSR and clears the W1C bits set in ga. (R80) -/
def execCsrwr (a : BitVec 5) (c : BitVec 12) (s : State) : Out :=
  csrWrite (wZ 18 0 a c 1) 1 c a s

/-- CSRSET: Sets the RW bits of a CSR that are set in ga and clears the W1C bits set in ga. (R80) -/
def execCsrset (a : BitVec 5) (c : BitVec 12) (s : State) : Out :=
  csrWrite (wZ 18 0 a c 2) 2 c a s

/-- CSRCLR: Clears the RW bits of a CSR that are set in ga. (R80) -/
def execCsrclr (a : BitVec 5) (c : BitVec 12) (s : State) : Out :=
  csrWrite (wZ 18 0 a c 3) 3 c a s

/-- TRAP: Completes and then raises SYSCALL with the immediate as TVAL. (R81) -/
def execTrap (n : BitVec 12) (s : State) : Out :=
  issue (wZ 18 0 0 n 4) [] s (fun s => .advTrap s .syscall (n.setWidth 64))

/-- RETT: Returns from a trap handler to TPC, restoring privilege and the pending-prefix bit and lowering CLVL. (R82) -/
def execRett (s : State) : Out :=
  issue (wZ 18 0 0 0 5) [] s (fun s => .go s.returnTrap)

/-- HALT: Waits for earlier instructions, fills and stores to complete, then stops the sequencer. (R83) -/
def execHalt (s : State) : Out :=
  issue (wZ 18 0 0 0 6) [] s (fun s => notSplit (wZ 18 0 0 0 6) s (fun s =>
    if !s.thr.fills.isEmpty then .stall s else .go (haltNow s)))

/-- GTSRD: Serialises the sequencer and writes GTS to gd. (R84) -/
def execGtsrd (d : BitVec 5) (s : State) : Out :=
  issue (wZ 18 d 0 0 7) [] s (fun s =>
    if !s.thr.fills.isEmpty || !s.thr.posted.isEmpty || s.core.unstarted s.who then .stall s
    else writeReg s d (word s.gts))

/-- EVRD: Removes the oldest removable event record into gd..gd+3, leaving them empty until one is removable. (R85) -/
def execEvrd (d : BitVec 3) (s : State) : Out :=
  issue (wZ 18 (d ++ 0#2) 0 0 8) [] s (fun s =>
    let dests : List (BitVec 5) := [d ++ 0#2, d ++ 1#2, d ++ 2#2, d ++ 3#2]
    if s.thr.pendingReg dests || !s.thr.fillRoom then .stall s else .adv (s.startFill dests .event))

/-- EVWAIT: Stalls until the core's event queue holds a removable record. (R86) -/
def execEvwait (s : State) : Out :=
  issue (wZ 18 0 0 0 9) [] s (fun s => if (leastRemovable s.gts s.hart.evq).isNone then waitOn s .event 3 0 else .adv s)

/-- WAITA: Reloads a word until it differs from gd, then writes it to gd with acquire at system scope. (R87) -/
def execWaita (d a : BitVec 5) (s : State) : Out :=
  issue (wZ 18 d a 0 10) [(a, 0), (d, 0)] s (fun s =>
    let ea := s.thr.reg a
    if s.held false then .stall s
    else
    match resolveThr s .read ea 8 with
    | .fail c s' => .trap s' c ea
    | .stall s' => .stall s'
    | .ok p s' =>
      if s'.poisonedAt p 8 then .trap s' .dataPoison ea
      else
        let v := word (ofBytes (s'.loadAt p 8))
        if v ≠ s'.thr.reg d then .adv (s'.setThr (s'.thr.setReg d v))
        else waitOn s' .waita 5 (ea.toNat / 8))

/-- FENCE: Orders the selected pairs of the stream's accesses at a scope and waits for posted reductions. (R89) -/
def execFence (o : BitVec 4) (sf : BitVec 3) (s : State) : Out :=
  issue (wZ 18 0 0 (0#5 ++ o ++ sf) 11) [] s (fun s =>
    if !s.thr.posted.isEmpty || fenceHeld s o then .stall s else .adv s)

/-- SBAR: Waits until the named spool and sequencer streams have performed their issued accesses at system scope. (R90) -/
def execSbar (a : BitVec 5) (s : State) : Out :=
  issue (wZ 18 0 a 0 12) [(a, 0)] s (fun s =>
    let m := s.thr.reg a
    orderWait s ((if bit m 16 then s.core.owes false true else []) ++ (if bit m 17 then s.core.owes true true else [])))

/-- IFENCE: Waits for the hart's stores at core scope, then invalidates the instruction cache and prefetched instructions. (R91) -/
def execIfence (s : State) : Out :=
  issue (wZ 18 0 0 0 13) [] s (fun s =>
    match orderWait s (s.core.owes false false ++ s.core.owes true false) with
    | .adv s' => .adv { s' with core := { s'.core with icache := [] } }
    | r => r)

/-- TLBINV_ALL: Removes all cached translations on the core or package. (R92) -/
def execTlbinvAll (a : BitVec 5) (r : BitVec 1) (s : State) : Out :=
  issue (wZ 18 0 a (0#9 ++ r ++ 0#2) 14) [(a, 0)] s (fun s => .adv (tlbInv s r (fun _ => false)))

/-- TLBINV_PAGE: Removes the cached translations that map the address in ga in the current context. (R92) -/
def execTlbinvPage (a : BitVec 5) (r : BitVec 1) (s : State) : Out :=
  issue (wZ 18 0 a (0#9 ++ r ++ 1#2) 14) [(a, 0)] s (fun s =>
    let v := (s.thr.reg a).toNat % 2 ^ 57
    .adv (tlbInv s r (fun t =>
      !(decide (t.ctx = s.hart.ctx) && decide (t.base ≤ v) && decide (v < t.base + t.size)))))

/-- TLBINV_CONTEXT: Removes all non-global cached translations of the context number in ga. (R92) -/
def execTlbinvContext (a : BitVec 5) (r : BitVec 1) (s : State) : Out :=
  issue (wZ 18 0 a (0#9 ++ r ++ 2#2) 14) [(a, 0)] s (fun s =>
    let n := field (s.thr.reg a) 0 16
    .adv (tlbInv s r (fun t => t.glob || !decide (t.ctx = n))))

end Sys2Proof.Machine
end

