-- ==== Sys2Proof/Machine/Sync.lean ====
section
/-! DEFINITION. Sys2Proof/Machine/Sync.lean: sync registers (R341-R345). -/

namespace Sys2Proof.Machine

/-- The context of a hart (R353). -/
def State.ctxOf (s : State) (h : Hart) : Option Context := s.ctxs.find? (fun x => decide (x.num = h.ctx))

/-- SYBASE and SYCOUNT of the hart in focus; a context that grants none has the count 0 (R343, R353). -/
def State.syncGrant (s : State) : Nat × Nat :=
  match s.ctxOf s.hart with
  | some x => (field (dw x.desc 1) 0 12, field (dw x.desc 1) 16 13)
  | none => (0, 0)

/-- A sync register at its home (R341; notes/assumptions/4.md). -/
def State.syncAt (s : State) (p : Nat) : Word := assocGet 0 s.sync p

/-- The mirror of a sync register on a die; the register itself on its home die (R342). -/
def State.mirrorAt (s : State) (die p : Nat) : Word :=
  if p / 512 % 8 = die then s.syncAt p else assocGet 0 (s.mirrors.toList.getD die []) p

/-- A sync update performed at the home and on its way to the other seven dies; the update's number (R342). -/
def State.syncPut (s : State) (p : Nat) (v : Word) : State × Nat :=
  let u := s.syncUpd + 1
  ({ s with
      sync := assocSet s.sync p v
      syncUpd := u
      syncMsgs := s.syncMsgs.mapIdx (fun d l => if d = p / 512 % 8 then l else l ++ [{ reg := p, upd := u, val := v }]) },
    u)

/-- Every mirror holds the update's value or a later one (R342). -/
def State.syncDone (s : State) (u : Nat) : Bool := s.syncMsgs.toList.all (fun l => l.all (fun m => decide (m.upd ≠ u)))

/-- The check of R343, then the body with the logical and the physical register. A grant that passes register 4,095 gives
no register beyond it: such a number raises PERM (R341; DESIGN CHOICE, notes/assumptions/23.md). -/
def syncCheck (s : State) (a : BitVec 5) (k : Nat → Nat → Res) : Res :=
  let n := (s.thr.reg a).toNat
  if s.syncGrant.2 ≤ n || 4096 ≤ s.syncGrant.1 + n then .trap s .perm (s.thr.reg a) else k n (s.syncGrant.1 + n)

/-- An update that returns the old value: performed at the home, its destination filled once it is performed at package
scope; `new` gives the value written, if any (R344). -/
def syncUpdate (s : State) (d a : BitVec 5) (new : Word → Option Word) : Res :=
  syncCheck s a (fun _ p =>
    if s.held true || s.thr.pendingReg [d] || !s.thr.fillRoom then .stall s
    else
      let old := s.syncAt p
      match new old with
      | some v => .adv ((s.syncPut p v).1.startFill [d] (.sync p (s.syncPut p v).2 old))
      | none => .adv (s.startFill [d] (.sync p 0 old)))

/-- SYTAS: Test-and-sets a sync register at its home and returns the old value once performed at package scope. (R344) -/
def execSytas (d a : BitVec 5) (f : BitVec 1) (s : State) : Out :=
  issue (wA 20 d a 0 f 0 0) [(a, f)] s (fun s =>
    syncUpdate s d a (fun old => if old = 0 then some 1 else none))

/-- SYFADD: Adds gb to a sync register at its home and returns the old value once performed at package scope. (R344) -/
def execSyfadd (d a b : BitVec 5) (f g : BitVec 1) (s : State) : Out :=
  issue (wA 20 d a b f g 1) [(a, f), (b, g)] s (fun s =>
    syncUpdate s d a (fun old => some (old + s.thr.reg b)))

/-- SYRD: Reads the local mirror of a sync register into gd. (R344) -/
def execSyrd (d a : BitVec 5) (f : BitVec 1) (s : State) : Out :=
  issue (wA 20 d a 0 f 0 2) [(a, f)] s (fun s => syncCheck s a (fun _ p =>
    if s.held false || s.thr.pendingReg [d] || !s.thr.fillRoom then .stall s
    else .adv (s.startFill [d] (.value [s.mirrorAt s.loc.die p]))))

/-- The update that a SYWR in the thread in focus has performed at its home and waits for. -/
def Thread.syncWait (t : Thread) : Option Nat :=
  match t.wait with
  | some w => if w.kind = WaitKind.update then some w.num.toNat else none
  | none => none

/-- SYWR: Writes gb to a sync register at its home and retires once performed at package scope. (R344) -/
def execSywr (a b : BitVec 5) (f g : BitVec 1) (s : State) : Out :=
  issue (wA 20 0 a b f g 3) [(a, f), (b, g)] s (fun s => syncCheck s a (fun _ p =>
    match s.thr.syncWait with
    | some u => if s.syncDone u then .adv s else .stall s
    | none =>
      if s.held true then .stall s
      else
        let r := s.syncPut p (s.thr.reg b)
        .stall (r.1.setThr { r.1.thr with
          wait := some { kind := .update, num := word r.2, since := s.gts, bound := 0 } })))

/-- SYWAIT: Waits until the local mirror of a sync register is at least gb. (R344) -/
def execSywait (a b : BitVec 5) (f g : BitVec 1) (s : State) : Out :=
  issue (wA 20 0 a b f g 4) [(a, f), (b, g)] s (fun s => syncCheck s a (fun n p =>
    if s.held false then .stall s
    else if (s.thr.reg b).toNat ≤ (s.mirrorAt s.loc.die p).toNat then .adv s
    else waitOn s .sync 4 n))

end Sys2Proof.Machine
end

