-- ==== Sys2Proof/Machine/Vers.lean ====
section
/-! DEFINITION. Sys2Proof/Machine/Vers.lean: versioned regions and the version instructions (R323-R340). -/

namespace Sys2Proof.Machine

/-- Rel(u) under a floor (R326). -/
def relTo (floor u : BitVec 32) : Int := (u - floor).toInt

/-- The home die of a versioned word (R325). -/
def versHome (a : Word) : Nat := field a 12 3

/-- The versions of a word of a region (R327). -/
def Region.word (r : Region) (a : Word) : VersWord :=
  match r.words.find? (fun x => x.addr == a) with
  | some x => x
  | none => { addr := a }

/-- The region with a word's versions replaced. -/
def Region.setWord (r : Region) (x : VersWord) : Region :=
  if r.words.any (fun y => y.addr == x.addr) then
    { r with words := r.words.map (fun y => if y.addr = x.addr then x else y) }
  else { r with words := r.words ++ [x] }

/-- The floor as applied at a word's home (R337). -/
def Region.floorAt (r : Region) (a : Word) : BitVec 32 := r.applied.toList.getD (versHome a) r.floor

/-- The region of a context that holds an address (R323, R329). -/
def State.regionOf (s : State) (ctx : Nat) (a : Word) : Option Region :=
  s.regions.find? (fun r => decide (r.ctx = ctx) && decide (r.base.toNat ≤ a.toNat) &&
    decide (a.toNat < r.base.toNat + r.length))

/-- The state with a region replaced. -/
def State.setRegion (s : State) (r : Region) : State :=
  { s with regions := s.regions.map (fun x => if x.ctx = r.ctx ∧ x.num = r.num then r else x) }

/-- The version number is that of the base version (R327). -/
def VersWord.isBase (x : VersWord) (v : BitVec 32) : Bool :=
  match x.base with
  | some b => b.1 == v
  | none => false

/-- The value of a live version. -/
def VersWord.find (x : VersWord) (v : BitVec 32) : Option Word := assocFind x.live v

/-- The version is gone: below the floor applied at the home, or the base version's number (R330). -/
def verGone (floor : BitVec 32) (x : VersWord) (v : BitVec 32) : Bool := decide (relTo floor v < 0) || x.isBase v

/-- The newest of some versions under a floor. -/
def newest (floor : BitVec 32) (l : List (BitVec 32 × Word)) : Option (BitVec 32 × Word) :=
  l.foldl (fun best e =>
    match best with
    | none => some e
    | some b => if relTo floor b.1 < relTo floor e.1 then some e else some b) none

/-- VRLDLE: the newest version at or below v, the base version older than every live one (R327, R333). -/
def VersWord.atMost (x : VersWord) (floor v : BitVec 32) : Option (BitVec 32 × Word) :=
  match newest floor (x.live.filter (fun e => decide (relTo floor e.1 ≤ relTo floor v))) with
  | some e => some e
  | none =>
    match x.base with
    | some b =>
      let rb := if relTo floor b.1 < 0 then relTo floor b.1 else -(2 ^ 31 : Int)
      if rb ≤ relTo floor v then some b else none
    | none => none

/-- VRTOP: the newest version, base version included (R334). -/
def VersWord.top (x : VersWord) (floor : BitVec 32) : Option (BitVec 32 × Word) :=
  match newest floor x.live with
  | some e => some e
  | none => x.base

/-- A word's versions once a new floor is applied: the newest below it is the base version (R332). -/
def VersWord.floored (x : VersWord) (floor : BitVec 32) : VersWord :=
  let below := x.live.filter (fun e => decide (relTo floor e.1 < 0))
  { x with
    live := x.live.filter (fun e => decide (0 ≤ relTo floor e.1))
    base := match newest floor below with
      | some e => some e
      | none => x.base }

/-- A die applies a floor to the words of a region that it homes (R332). -/
def Region.applyOne (r : Region) (die : Nat) (f : BitVec 32) : Region :=
  if h : die < 8 then
    { r with
      applied := r.applied.set die f
      words := r.words.map (fun x => if versHome x.addr = die then x.floored f else x) }
  else r

/-- A die applies the floors raised that it has not applied, each in turn (R332, R337). -/
def Region.applyFloor (r : Region) (die : Nat) : Region :=
  if h : die < 8 then
    let r1 := r.raised[die].foldl (fun (r : Region) f => r.applyOne die f) r
    { r1 with raised := r1.raised.set die [] }
  else r

/-- The entries of versions that a die homes (R328). -/
def State.entriesOf (s : State) (die : Nat) : Nat :=
  s.regions.foldl (fun acc r => r.words.foldl (fun acc x =>
    if versHome x.addr = die then acc + x.live.length + (if x.base.isSome then 1 else 0) else acc) acc) 0

/-- The entries that a die's VERSION banks store (R328). -/
def State.entryRoom (s : State) (die : Nat) : Nat := 393216 * ((s.die die).roles.toList.filter (· == 4)).length

/-- An entry is available for a word that a die homes: in its banks or in the overflow pool (R328). -/
def State.entryFree (s : State) (die : Nat) : Bool :=
  decide (s.entriesOf die < s.entryRoom die) ||
    decide ((List.range 8).foldl (fun acc d => acc + (s.entriesOf d - s.entryRoom d)) 0 < Config.overflowEntries)

/-! ## Operations that wait at a home (R330, R331, R337) -/

/-- The threads of a hart. -/
def allWho : List Who := .a :: .e :: (List.finRange 16).map .mt

/-- Who waits at a version's home: a thread, or the work that creates a completion version (R339). -/
inductive Asker
  | thread (c : CoreId) (w : Who)
  | work (m : Maker)
  deriving DecidableEq, Repr

/-- A version operation that waits: who, since when, and what it asks. -/
structure VersWait where
  asker : Asker
  since : Nat
  ask : VersAsk

/-- The version operations that wait: those of threads, and completion versions at the depth (R330, R331, R335, R339). -/
def State.versWaiters (s : State) : List VersWait :=
  (s.cores.flatMap (fun p =>
    if p.2.resident then
      allWho.flatMap (fun w => match (p.2.hart.thr w).wait with
        | some t => (t.asks.filter (fun q => q.ended.isNone)).map (fun q => ⟨.thread p.1 w, t.since, q⟩)
        | none => [])
    else [])) ++
  (s.making.filter (fun m => m.ask.ended.isNone)).map (fun m => ⟨.work m.maker, m.since, m.ask⟩)

/-- Waiting operations in the order of their arrival (R337). -/
def insertWaiter (x : VersWait) : List VersWait → List VersWait
  | [] => [x]
  | y :: r => if x.since < y.since then x :: y :: r else y :: insertWaiter x r

/-- A thread whose waiting version operation has been settled at a word. -/
def Thread.versEnd (t : Thread) (a : Word) (e : VersEnd) : Thread :=
  { t with wait := t.wait.map (fun w => { w with
      asks := w.asks.map (fun q => if q.addr = a then { q with ended := some e } else q) }) }

/-- A waiting operation has been settled at a word. -/
def State.versEnd (s : State) (x : Asker) (a : Word) (e : VersEnd) : State :=
  match x with
  | .thread c w => s.onThr c w (fun t => t.versEnd a e)
  | .work m => { s with making := s.making.map (fun y =>
      if y.maker = m then { y with ask := { y.ask with ended := some e } } else y) }

/-- A waiting operation is examined again: gone, served or created if its word allows it now (R330, R331, R337). -/
def State.reexamine (s : State) (x : VersWait) : State :=
  let q := x.ask
  let a := q.addr
  match s.regionOf q.ctx a with
  | none => s
  | some r =>
    let t := r.word a
    if verGone (r.floorAt a) t q.ver then s.versEnd x.asker a .gone
    else
      match t.find q.ver, q.val with
      | some v, none => s.versEnd x.asker a (.served v)
      | some _, some _ => s.versEnd x.asker a .dup
      | none, none => s
      | none, some v =>
        if t.live.length < r.depth + 1 && s.entryFree (versHome a) then
          (s.setRegion (r.setWord { t with live := t.live ++ [(q.ver, v)] })).versEnd x.asker a .made
        else s

/-- Every waiting operation is examined again, in order of arrival, once for each that waits, since one that is settled
may serve another (R337). -/
def State.wakeVers (s : State) : State :=
  (List.range s.versWaiters.length).foldl (fun s _ =>
    (s.versWaiters.foldl (fun l x => insertWaiter x l) []).foldl State.reexamine s) s

/-- How a creation of a version ends (R331). -/
inductive Create
  | done (s : State)
  | gone
  | dup
  | full

/-- Creates version `v` of a word; the operations that wait are examined again (R331, R337). -/
def createVersion (s : State) (r : Region) (a : Word) (v : BitVec 32) (val : Word) : Create :=
  let x := r.word a
  if verGone (r.floorAt a) x v then .gone
  else if (x.find v).isSome then .dup
  else if x.live.length < r.depth + 1 && s.entryFree (versHome a) then
    .done (s.setRegion (r.setWord { x with live := x.live ++ [(v, val)] })).wakeVers
  else .full

/-- The completion version of some work, once created, given up or failed, waits no longer (R339). -/
def State.stopMaking (s : State) (m : Maker) : State := { s with making := s.making.filter (fun x => decide (x.maker ≠ m)) }

/-- How the completion version of some work that waited at the depth was settled, if it has been (R339). -/
def State.madeBy (s : State) (m : Maker) : Option VersEnd := (s.making.find? (fun x => decide (x.maker = m))).bind (·.ask.ended)

/-- How the creation of a completion version stands (R339). -/
inductive Made
  | done (s : State)
  | gone
  | dup
  | wait (s : State)

/-- Creates the completion version of some work as VRST does, without a bound: at the depth it waits with the VRSTs, in the
order of arrival (R339). -/
def makeVersion (s : State) (m : Maker) (ctx : Nat) (r : Region) (a : Word) (v : BitVec 32) (val : Word) : Made :=
  match s.madeBy m with
  | some .made => .done s
  | some .dup => .dup
  | some _ => .gone
  | none =>
    if s.making.any (fun x => decide (x.maker = m)) then .wait s
    else
      match createVersion s r a v val with
      | .done s' => .done s'
      | .gone => .gone
      | .dup => .dup
      | .full => .wait { s with making := s.making ++
          [{ maker := m, since := s.gts, ask := { ctx := ctx, addr := a, ver := v, val := some val, bound := 0 } }] }

/-- What the version operation that a thread waits in has asked for a word. -/
def Thread.asked (t : Thread) (a : Word) : Option VersAsk :=
  t.wait.bind (fun w => w.asks.find? (fun q => q.addr == a))

/-- How the version operation that a thread waits for at a word has been settled, if it has. -/
def Thread.versDone (t : Thread) (a : Word) : Option VersEnd := (t.asked a).bind (·.ended)

/-- The bound of a version wait in microseconds (R329). -/
def Region.bound (r : Region) (vtimeout : Nat) : Nat := if r.timeout = 0 then vtimeout else r.timeout

/-- The region of a version access, or the cause that R329's checks of its address raise. -/
def State.versRegion (s : State) (a : Word) : Except Cause Region :=
  if !canonical a then .error .xlate
  else if a.toNat % 8 ≠ 0 then .error .misalign
  else
    match s.regionOf s.hart.ctx a with
    | some r => .ok r
    | none => .error .perm

/-- The checks of R329 on the address of a version instruction; goes on with its region. -/
def versAddr (s : State) (a : Word) (k : Region → Res) : Res :=
  match s.versRegion a with
  | .ok r => k r
  | .error c => .trap s c a

/-- A version read that never waits: its destinations are empty from issue and filled when it is served (R17, R329, R333,
R334). -/
def versRead (s : State) (dests : List (BitVec 5)) (a : Word) (k : Region → VersWord → List Word) : Res :=
  versAddr s a (fun r =>
    if s.held false || s.thr.pendingReg dests || !s.thr.fillRoom then .stall s
    else .adv (s.startFill dests (.value (k r (r.word a)))))

/-- The floor of a region raised to `f` if that is newer, which every die has then to apply (R332). -/
def Region.raise (r : Region) (f : BitVec 32) : Region :=
  if relTo r.floor f ≤ 0 then r else { r with floor := f, raised := r.raised.map (fun l => l ++ [f]) }

/-- Every die has applied the floor `f` of the region (R332). -/
def Region.settled (r : Region) (f : BitVec 32) : Bool := r.raised.toList.all (fun l => !l.contains f)

/-- What a version instruction asks of its word's home (R330, R331). -/
def versAsk (s : State) (r : Region) (a : Word) (v : BitVec 32) (val : Option Word) : VersAsk :=
  { ctx := s.hart.ctx, addr := a, ver := v, val := val, bound := r.bound s.vtimeout }

/-- VRLD: Waits for version v of a versioned word and returns its value with acquire. (R330) -/
def execVrld (d a b : BitVec 5) (f g : BitVec 1) (s : State) : Out :=
  issue (wA 22 d a b f g 0) [(a, f), (b, g)] s (fun s =>
    let ea := s.thr.reg a
    let v := (s.thr.reg b).setWidth 32
    match s.thr.versDone ea with
    | some (.served x) => .adv ((s.setThr s.thr.endWait).startFill [d] (.value [x]))
    | some _ => .trap s .verGone ea
    | none =>
      versAddr s ea (fun r =>
        if s.held false || s.thr.pendingReg [d] || !s.thr.fillRoom then .stall s
        else if verGone (r.floorAt ea) (r.word ea) v then .trap s .verGone ea
        else
          match (r.word ea).find v with
          | some x => .adv (s.startFill [d] (.value [x]))
          | none => .ask s .version ea [versAsk s r ea v none] (.load d) .verTimeout ea))

/-- VRLDLE: Returns the newest version at or below v, base included, and its number, without waiting. (R333) -/
def execVrldle (d : BitVec 4) (a b : BitVec 5) (f g : BitVec 1) (s : State) : Out :=
  issue (wA 22 (d ++ 0#1) a b f g 1) [(a, f), (b, g)] s (fun s =>
    let ea := s.thr.reg a
    versRead s [d ++ 0#1, d ++ 1#1] ea (fun r x =>
      match x.atMost (r.floorAt ea) ((s.thr.reg b).setWidth 32) with
      | some e => [e.2, e.1.setWidth 64]
      | none => [0, BitVec.allOnes 64]))

/-- VRST: Creates version v of a versioned word with the value gd, releasing at the region's scope, waiting at the depth. (R331) -/
def execVrst (d a b : BitVec 5) (f g : BitVec 1) (s : State) : Out :=
  issue (wA 22 d a b f g 2) [(a, f), (b, g), (d, 0)] s (fun s =>
    let ea := s.thr.reg a
    let v := (s.thr.reg b).setWidth 32
    match s.thr.versDone ea with
    | some .made => .adv s
    | some .dup => .trap s .verDup ea
    | some _ => .trap s .verGone ea
    | none =>
      versAddr s ea (fun r =>
        if s.held true then .stall s
        else
          match createVersion s r ea v (s.thr.reg d) with
          | .done s' => .adv s'
          | .gone => .trap s .verGone ea
          | .dup => .trap s .verDup ea
          | .full => .ask s .room ea [versAsk s r ea v (some (s.thr.reg d))] .store .verFull ea))

/-- The floor that a VRFLOOR in the thread in focus waits for every die to apply. -/
def Thread.floorWait (t : Thread) : Option (BitVec 32) :=
  match t.wait with
  | some w => if w.kind = WaitKind.floor then some (w.num.setWidth 32) else none
  | none => none

/-- VRFLOOR: Raises the floor of a region, keeping the newest version below it as the base version and freeing the rest; one that
does not raise it completes once every die has applied the floor in force (DEDUCED, notes/assumptions/57.md). (R332) -/
def execVrfloor (a b : BitVec 5) (f g : BitVec 1) (s : State) : Out :=
  issue (wA 22 0 a b f g 3) [(a, f), (b, g)] s (fun s =>
    let n := (s.thr.reg a).toNat
    let f := (s.thr.reg b).setWidth 32
    match s.regions.find? (fun r => decide (r.ctx = s.hart.ctx) && decide (r.num = n)) with
    | none => .trap s .perm (s.thr.reg a)
    | some r =>
      match s.thr.floorWait with
      | some g => if r.settled g then .adv s else .stall s
      | none =>
        if s.held true then .stall s
        else
          let r1 := r.raise f
          let s1 := s.setRegion r1
          if r1.settled r1.floor then .adv s1
          else .stall (s1.setThr { s1.thr with
            wait := some { kind := .floor, num := r1.floor.setWidth 64, since := s.gts, bound := 0 } }))

/-- VRTOP: Writes the number of the newest version of a word to gd. (R334) -/
def execVrtop (d a : BitVec 5) (f : BitVec 1) (s : State) : Out :=
  issue (wA 22 d a 0 f 0 4) [(a, f)] s (fun s =>
    let ea := s.thr.reg a
    versRead s [d] ea (fun r x =>
      match x.top (r.floorAt ea) with
      | some e => [e.1.setWidth 64]
      | none => [BitVec.allOnes 64]))

/-- VRPOLL: Reports whether version v is live, below the floor, or neither. (R334) -/
def execVrpoll (d a b : BitVec 5) (f g : BitVec 1) (s : State) : Out :=
  issue (wA 22 d a b f g 5) [(a, f), (b, g)] s (fun s =>
    let ea := s.thr.reg a
    let v := (s.thr.reg b).setWidth 32
    versRead s [d] ea (fun r x =>
      if (x.find v).isSome && decide (0 ≤ relTo (r.floorAt ea) v) then [1]
      else if verGone (r.floorAt ea) x v then [2] else [0]))

end Sys2Proof.Machine
end

