-- ==== Sys2Proof/Machine/Tile.lean ====
section
/-! DEFINITION. Sys2Proof/Machine/Tile.lean: the tile scheduler: records, slots, operand fetch, windows, and the tile instructions (R139, R140, R257-R275, R339). -/

namespace Sys2Proof.Machine

/-! ## The record (R260-R263) -/

def tOp (d : List Word) : Nat := field (dw d 0) 0 4
def tFA (d : List Word) : Nat := field (dw d 0) 4 4
def tFB (d : List Word) : Nat := field (dw d 0) 8 4
def tSnA (d : List Word) : Bool := bit (dw d 0) 15
def tSnB (d : List Word) : Bool := bit (dw d 0) 19
def tScA (d : List Word) : Nat := field (dw d 0) 20 2
def tScB (d : List Word) : Nat := field (dw d 0) 22 2
def tPreg (d : List Word) : BitVec 5 := BitVec.ofNat 5 (field (dw d 0) 32 5)
def tXreg (d : List Word) : BitVec 5 := BitVec.ofNat 5 (field (dw d 0) 37 5)
def tPhys (d : List Word) : Bool := bit (dw d 0) 58
def tRows (d : List Word) : Nat := field (dw d 1) 0 9 + 1
def tCols (d : List Word) : Nat := field (dw d 1) 9 8 + 1
def tK (d : List Word) : Nat := field (dw d 1) 17 20 + 1

/-- The width of a side: that of its format, or of its INT field (R262). -/
def tWidth (fmt wfield : Nat) : Nat := if fmt = 0 then wfield + 1 else fmtWidth fmt
def tWA (d : List Word) : Nat := tWidth (tFA d) (field (dw d 0) 12 3)
def tWB (d : List Word) : Nat := tWidth (tFB d) (field (dw d 0) 16 3)

/-- The parts of a task: row blocks times column blocks (R261). -/
def tCB (d : List Word) : Nat := (tCols d + 127) / 128
def tParts (d : List Word) : Nat := (tRows d + 127) / 128 * tCB d

/-- The windows of a task (R264). -/
def tWindows (d : List Word) : Nat := (tK d + 127) / 128

/-- The k-steps of a window (R264). -/
def tLen (d : List Word) (w : Nat) : Nat := min 128 (tK d - 128 * w)

/-- The precondition or completion word whose address is word `n` of the record: in force, address, version (R260). -/
def tVers (d : List Word) (n : Nat) : Bool × Word × BitVec 32 :=
  (bit (dw d (n + 1)) 63, addrField false (dw d n), BitVec.ofNat 32 (field (dw d (n + 1)) 0 32))

/-- A format that a tile record accepts (R262). -/
def tFormat (f : Nat) : Bool := f == 0 || (decide (4 ≤ f) && decide (f ≤ 10))

/-- A reserved field of the record is nonzero (R260, R272, against R9: DEDUCED, notes/assumptions/70.md). -/
def tReserved (d : List Word) : Bool :=
  field (dw d 0) 59 5 != 0 || field (dw d 0) 43 13 != 0 || field (dw d 1) 37 27 != 0 ||
    [2, 4, 5, 7, 8, 10, 12].any (fun n => field (dw d n) 57 7 != 0) ||
    [9, 11, 13].any (fun n => field (dw d n) 32 31 != 0) || dw d 15 != 0

/-- R263 is not met: what a record whose A is generated must leave 0. -/
def tGenBad (d : List Word) : Bool :=
  tOp d != 0 &&
    (tFA d != 0 || field (dw d 0) 12 4 != 0 || tScA d != 0 || field (dw d 0) 24 4 != 0 || dw d 3 != 0 || dw d 4 != 0 ||
      (tOp d != 2 && dw d 2 != 0) ||
      (tOp d == 4 && (tK d < 2 || 512 < tK d || (tK d &&& (tK d - 1)) != 0 || tK d < tRows d)))

/-- The rows of bytes that a record names as operands, index array and scale arrays: address and length (R259, R262,
R263). -/
def tRanges (d : List Word) : List (Word × Nat) :=
  let ph := tPhys d
  let rows (base : Word) (str n len : Nat) : List (Word × Nat) :=
    (List.range n).map (fun i => (addrField ph base + word (str * i), len))
  let rowA := (tK d * tWA d + 7) / 8
  let rowB := (tK d * tWB d + 7) / 8
  let sc := (tK d + 31) / 32
  (if tOp d = 0 then rows (dw d 2) (field (dw d 3) 0 32) (tRows d) rowA else []) ++
    (if tOp d = 2 then rows (dw d 2) 0 1 (2 * tRows d) else []) ++
    rows (dw d 5) (field (dw d 6) 0 32) (tCols d) rowB ++
    (if tScA d = 1 then rows (dw d 4) (field (dw d 3) 32 32) (tRows d) sc else []) ++
    (if tScB d = 1 then rows (dw d 7) (field (dw d 6) 32 32) (tCols d) sc else [])

/-- Some of the bytes lie in a window: the windows are the highest addresses, above which the bytes wrap round (R215). -/
def inWindow (r : Word × Nat) : Bool := decide (windowBase < r.1.toNat + r.2)

/-- An address or stride of the operands is not aligned (R262, R263). -/
def tMisaligned (d : List Word) : Bool :=
  field (dw d 2) 0 4 != 0 || field (dw d 5) 0 4 != 0 || field (dw d 3) 0 4 != 0 || field (dw d 6) 0 4 != 0

/-- A precondition or completion word that is in force is no word of a declared region (R259, R339). -/
def tVersBad (s : State) (d : List Word) (n : Nat) : Bool :=
  let v := tVers d n
  v.1 && (decide (v.2.1.toNat % 8 ≠ 0) || (s.regionOf s.hart.ctx v.2.1).isNone)

/-- Valid of R272 for a record read by the thread in focus. -/
def tValid (s : State) (d : List Word) : Bool :=
  !(tReserved d || decide (5 ≤ tOp d) || tScA d == 3 || tScB d == 3 || !tFormat (tFA d) || !tFormat (tFB d) ||
    (tFA d != 0 && field (dw d 0) 12 4 != 0) || (tFB d != 0 && field (dw d 0) 16 4 != 0) || tGenBad d ||
    tPreg d == tXreg d || decide (s.hart.teamsize < tParts d) || tMisaligned d ||
    (!tPhys d && (tRanges d).any inWindow) ||
    [2, 4, 5, 7].any (fun n => physBad (tPhys d) (dw d n)) ||
    tVersBad s d 8 || tVersBad s d 10 || tVersBad s d 12 || (decide (s.who = .a) && (tScA d == 2 || tScB d == 2)))

/-! ## Slots and handles (R267) -/

/-- A slot of a cluster's scheduler. -/
def State.slot (s : State) (d c n : Nat) : TileSlot := (s.cluster d c).slots.toList.getD n {}

/-- The state with a slot changed. -/
def State.setSlot (s : State) (d c n : Nat) (f : TileSlot → TileSlot) : State :=
  s.setCluster d c (fun k => if h : n < 64 then { k with slots := k.slots.set n (f k.slots[n]) } else k)

/-- The handle of a slot's task (R267). -/
def handleOf (n : Nat) (t : TileSlot) : Nat := n + 64 * t.gen

/-- The slot that a handle of a hart's team names, if it is not stale (R267). -/
def State.taskOf (s : State) (h : Word) : Option (Nat × TileSlot) :=
  let n := field h 0 6
  let t := s.slot s.loc.die s.loc.cluster n
  if t.state = TileState.free || h.toNat ≠ handleOf n t || t.team ≠ s.hart.team then none else some (n, t)

/-- The part of a task that a hart holds, with its number (R261). -/
def TileSlot.partOf (t : TileSlot) (hart : Nat) : Option (Nat × TilePart) :=
  (t.parts.mapIdx (fun q p => (q, p))).find? (fun x => decide (x.2.hart = hart))

/-- The windows that every part has committed. -/
def TileSlot.committed (t : TileSlot) : Nat :=
  match t.parts with
  | [] => 0
  | p :: ps => ps.foldl (fun acc q => min acc q.committed) p.committed

/-- The event source of a cluster's tile scheduler (R347). -/
def tileSource (d c : Nat) : BitVec 16 := BitVec.ofNat 16 (d * 0x1000 + 0x400 + c)

/-! ## Pinned operand lines (R266, R288) -/

/-- The lines that a bank of a die holds for tile operands. -/
def Die.opIn (d : Die) (bank : Nat) : Nat :=
  (((d.opPins.filter (fun p => decide (p.bank = bank))).map (·.line)).eraseDups).length

/-- The bank that a further operand line takes: the CACHE bank that holds its data, up to half of its ways, which stand for half
of its lines, then an OPERAND bank; none when neither has room. No line is placed in a bank whose role is about to change
(R288; DESIGN CHOICE, notes/assumptions/12.md). -/
def Die.opBank (d : Die) (line : Nat) : Option Nat :=
  let open' (b : Nat) : Bool := !d.newRoles.any (fun x => decide (x.1 = b))
  let spare := (d.banksOf 2).find? (fun b => open' b && decide (d.opIn b < bankLines))
  match d.dataBank line with
  | some b => if open' b && decide (d.opIn b < bankLines / 2) then some b else spare
  | none => spare

/-- Another slot of the package that has pinned lines broadcasts a window, and does not itself stall for room: its lines will
be free (R266). -/
def State.roomToCome (s : State) (d c n : Nat) : Bool :=
  s.dies.toList.any (fun x => x.opPins.any (fun p =>
    let t := s.slot p.die p.cluster p.slot
    !(decide (p.die = d) && decide (p.cluster = c) && decide (p.slot = n)) && t.state == .running && !t.starved &&
      decide (t.kdone < tLen t.record t.window)))

/-- The lines that a cluster has pinned in the package. -/
def State.opLines (s : State) (d c : Nat) : Nat :=
  ((s.dies.toList.flatMap (fun x => x.opPins.filter (fun p => decide (p.die = d) && decide (p.cluster = c)))).map
    (·.line)).eraseDups.length

/-- A line pinned for a slot; none when the cluster has pinned 1,024 lines, or no bank has room (R266, R288). Lines of host
memory and of the chip scratchpad are in no bank. -/
def State.pin (s : State) (d c n line : Nat) : Option State :=
  let pa := 64 * line
  if isHost pa || isScratch pa then some s
  else
    let x := s.die (homeDie pa)
    let own (p : OpPin) : Bool := decide (p.line = line) && decide (p.die = d) && decide (p.cluster = c)
    let add (b : Nat) : State := s.setDie (homeDie pa) (fun x =>
      { x with
        opPins := x.opPins ++ [{ line := line, bank := b, die := d, cluster := c, slot := n }]
        l2 := if x.roles.toList.getD b 0 == 2 then x.l2.filter (fun l => decide (l.1 ≠ line)) else x.l2 })
    if x.opPins.any (fun p => own p && decide (p.slot = n)) then some s
    else if x.opPins.any own || decide (s.opLines d c < 1024) then
      match x.opPins.find? (fun p => decide (p.line = line)) with
      | some p => some (add p.bank)
      | none => (x.opBank line).map add
    else none

/-- A slot keeps only some of its lines pinned (R266). -/
def State.unpin (s : State) (d c n : Nat) (keep : List Nat) : State :=
  { s with dies := s.dies.map (fun x => { x with opPins := x.opPins.filter (fun p =>
      !(decide (p.die = d) && decide (p.cluster = c) && decide (p.slot = n)) || keep.contains p.line) }) }

/-- The pool rows of the parts' cores are freed, and the slot's operand lines are pinned no longer (R264, R266). -/
def State.freeTileRows (s : State) (d c n : Nat) (t : TileSlot) : State :=
  (t.parts.foldl (fun s p =>
    let id : CoreId := ⟨d, c, p.core⟩
    let k := s.getCore id
    s.setCore id { k with hart := k.hart.setTile [] }) s).unpin d c n []

/-- The task of a slot holds cores (R269). -/
def TileSlot.placed (t : TileSlot) : Bool :=
  match t.state with
  | .running => true
  | .hold => true
  | .drain => true
  | _ => false

/-- A task ends: its rows are freed, TILE_DONE goes to the enqueuing hart, the slot is FREE with its next generation
(R269, R270). -/
def State.endTask (s : State) (d c n status : Nat) (addr : Word) : State :=
  let t := s.slot d c n
  let s1 := if t.placed then s.freeTileRows d c n t else s
  let r := mkRec s1 3 (tileSource d c) (word (handleOf n t + status * 2 ^ 16 + t.committed * 2 ^ 32))
    (addr &&& 0x01FF_FFFF_FFFF_FFFF#64)
  ((s1.setSlot d c n (fun t => { gen := nextGen t.gen })).stopMaking (.tile d c n)).postHart t.team t.hart t.core r

/-- A task in DRAIN whose parts have released the last window: once the accesses of their streams that precede the final TRELs
are performed, the completion version is created and the task ends (R269, R270, R339). -/
def State.drainTask (s : State) (d c n : Nat) : State :=
  let t := s.slot d c n
  let last := tWindows t.record
  let v := tVers t.record 12
  let quiet := t.parts.all (fun p =>
    let k := s.getCore ⟨d, c, p.core⟩
    !p.owed.any k.stillOwes)
  if t.state = TileState.drain && t.parts.all (fun p => decide (p.released = last)) && (!v.1 || quiet) then
    if !v.1 then s.endTask d c n 0 0
    else
      match s.regionOf t.ctx v.2.1 with
      | none => s.endTask d c n 2 0
      | some r =>
        match makeVersion s (.tile d c n) t.ctx r v.2.1 v.2.2 (dw t.record 14) with
        | .done s' => s'.endTask d c n 0 0
        | .dup => s.endTask d c n 6 0
        | .gone => s.endTask d c n 2 0
        | .wait s' => s'
  else s

/-! ## Operands (R139, R262, R263, R266) -/

/-- The significand and exponent of an element's bits, none for a NaN or an infinity (R139). -/
def tileVal (fmt w : Nat) (signed : Bool) (raw : Nat) : Option KVal :=
  match ffmt fmt with
  | some f =>
    match f.value raw with
    | .fin neg m e => some { sig := if neg then -(m : Int) else m, exp := e }
    | _ => none
  | none =>
    if fmt = 9 then some { sig := ternVal raw, exp := 0 }
    else if fmt = 10 then some { sig := sextNat 8 raw, exp := -6 }
    else some { sig := intVal w signed raw, exp := 0 }

/-- A value with its block's scale byte; 0xFF makes it a NaN (R139, R140). -/
def tileScaled (v : Option KVal) (x : Byte) : Option KVal :=
  if x = 0xFF then none else v.map (fun v => { v with exp := v.exp + (x.toNat : Int) - 127 })

/-- A range of bytes cut at 16-byte boundaries; addresses wrap round. -/
def cut16 (a : Word) (n : Nat) : List (Word × Nat) :=
  let lead := a.toNat % 16
  if n = 0 then []
  else
    (List.range ((lead + n + 15) / 16)).map (fun k =>
      let lo := 16 * k - lead
      (a + word lo, min n (16 * (k + 1) - lead) - lo))

/-- What the tile fetch unit does: the slot with what it has read, the status with which a failure ends the task, a wait, or a
stall for want of room for a line. -/
inductive TileRead
  | ok (s : State) (t : TileSlot)
  | fail (s : State) (status : Nat) (a : Word)
  | stall
  | full

/-- The 16-byte part that holds an address. -/
def partAddr (a : Word) : Word := a &&& ~~~0xF#64

/-- Reads the 16-byte part that holds an address, unless it has been read, and pins its line (R266, R297). The unit stalls while
there is no room for the line; only where no other task's broadcast will make room is a line that the k-step in progress needs
(`now`) read and not pinned, as the stall would cost more than time (DESIGN CHOICE, notes/assumptions/38.md). -/
def fetchPart (d c n : Nat) (now : Bool) (a : Word) (s : State) (t : TileSlot) : TileRead :=
  if t.fetched.any (fun f => f.1 == partAddr a) then .ok s t
  else
    let x : Xlate :=
      if tPhys t.record then (if physOk s a.toNat then .ok a.toNat [] s else .fail .perm s)
      else if !canonical a || windowBase ≤ a.toNat then .fail .xlate s
      else s.xlate none (s.cluster d c).tlb 512 t.ctx (!t.super) .read a
    match x with
    | .fail e s' => .fail s' (if e = .perm then 4 else 3) a
    | .stall _ => .stall
    | .ok pa tlb s' =>
      if s'.owned none (.phys pa) then .stall
      else if poisoned s' pa 1 then .fail s' 5 a
      else
        let s1 := if tPhys t.record then s' else s'.setCluster d c (fun k => { k with tlb := tlb })
        let bs := memRead s1.mem (pa / 16 * 16) 16
        let s2 := s1.touchDirect pa true
        let t' := { t with fetched := t.fetched ++ [(partAddr a, pa / 64, bs)] }
        match s2.pin d c n (pa / 64) with
        | some s3 => .ok s3 t'
        | none => if now && !s.roomToCome d c n then .ok s2 t' else .full

/-- Reads the parts that hold some addresses. -/
def fetchParts (d c n : Nat) (now : Bool) : List Word → State → TileSlot → TileRead
  | [], s, t => .ok s t
  | a :: r, s, t =>
    match fetchPart d c n now a s t with
    | .ok s' t' => fetchParts d c n now r s' t'
    | x => x

/-- A byte of a part that has been read. -/
def TileSlot.byteAt (t : TileSlot) (a : Word) : Byte :=
  match t.fetched.find? (fun f => f.1 == partAddr a) with
  | some f => f.2.2.getD (a.toNat % 16) 0
  | none => 0

/-- A side as it is fetched: count of rows or columns, base and stride, scale base and stride, format. -/
structure TileSide where
  count : Nat
  base : Word
  stride : Nat
  sbase : Word
  sstride : Nat
  fmt : Nat
  width : Nat
  signed : Bool
  sc : Nat
  snap : List Byte

/-- Side A of a GEMM record. -/
def sideA (t : TileSlot) : TileSide :=
  let d := t.record
  { count := tRows d, base := addrField (tPhys d) (dw d 2), stride := field (dw d 3) 0 32
    sbase := addrField (tPhys d) (dw d 4), sstride := field (dw d 3) 32 32, fmt := tFA d, width := tWA d
    signed := tSnA d, sc := tScA d, snap := t.snapA }

/-- Side B of a record. -/
def sideB (t : TileSlot) : TileSide :=
  let d := t.record
  { count := tCols d, base := addrField (tPhys d) (dw d 5), stride := field (dw d 6) 0 32
    sbase := addrField (tPhys d) (dw d 7), sstride := field (dw d 6) 32 32, fmt := tFB d, width := tWB d
    signed := tSnB d, sc := tScB d, snap := t.snapB }

/-- The bytes that hold element `k` of row or column `i` of a side: address and number (R262). -/
def TileSide.elem (x : TileSide) (i k : Nat) : Word × Nat :=
  let b := x.width * k
  (x.base + word (i * x.stride + b / 8), (b + x.width - 1) / 8 - b / 8 + 1)

/-- The address of the scale byte of element `k` of row or column `i` of a side (R262). -/
def TileSide.scale (x : TileSide) (i k : Nat) : Word := x.sbase + word (i * x.sstride + k / 32)

/-- The addresses of the parts that hold a side's elements of k-step `k` and their scales. -/
def TileSide.needs (x : TileSide) (k : Nat) : List Word :=
  (List.range x.count).flatMap (fun i =>
    (cut16 (x.elem i k).1 (x.elem i k).2).map (·.1) ++ (if x.sc = 1 then [x.scale i k] else []))

/-- The addresses of the parts of the PERMUTE index array (R263). -/
def permNeeds (r : List Word) : List Word :=
  if tOp r = 2 then (cut16 (addrField (tPhys r) (dw r 2)) (2 * tRows r)).map (·.1) else []

/-- The addresses of the parts that k-step `k` of a task uses (R262, R263). -/
def TileSlot.needs (t : TileSlot) (k : Nat) : List Word :=
  permNeeds t.record ++ (if tOp t.record = 0 then (sideA t).needs k else []) ++ (sideB t).needs k

/-- A side's element of row or column `i` at k-step `k`, with its scale (R139, R140, R262). -/
def TileSlot.value (t : TileSlot) (x : TileSide) (k i : Nat) : Option KVal :=
  let e := x.elem i k
  let bits := ofBytes ((List.range e.2).map (fun b => t.byteAt (e.1 + word b)))
  let v := tileVal x.fmt x.width x.signed (bits / 2 ^ (x.width * k % 8) % 2 ^ x.width)
  if x.sc = 1 then tileScaled v (t.byteAt (x.scale i k))
  else if x.sc = 2 then tileScaled v (x.snap.getD (k / 32 % 512) 0)
  else v

/-- The PERMUTE index of an output row (R263). -/
def TileSlot.permOf (t : TileSlot) (r : Nat) : Nat :=
  let a := addrField (tPhys t.record) (dw t.record 2) + word (2 * r)
  (t.byteAt a).toNat + 256 * (t.byteAt (a + 1)).toNat

/-- The last k-step of a side that uses bytes of a part, counted from 1; 0 when none does. -/
def TileSide.lastUse (x : TileSide) (kn : Nat) (part : Word) : Nat :=
  (List.range x.count).foldl (fun acc i =>
    let o := (part - (x.base + word (i * x.stride))).toNat
    let e := if o < (kn * x.width + 7) / 8 then min kn ((8 * (o + 16) - 1) / x.width + 1) else 0
    let q := (part + 15 - (x.sbase + word (i * x.sstride))).toNat
    let c := if x.sc = 1 && decide (q < (kn + 31) / 32 + 15) then min kn (32 * (q + 1)) else 0
    max acc (max e c)) 0

/-- The last k-step that uses bytes of a part, counted from 1. -/
def TileSlot.lastUse (t : TileSlot) (part : Word) : Nat :=
  let kn := tK t.record
  max (if (permNeeds t.record).any (fun a => partAddr a == part) then kn else 0)
    (max (if tOp t.record = 0 then (sideA t).lastUse kn part else 0) ((sideB t).lastUse kn part))

/-- The last k-step that uses bytes of the line that holds a part, read or not, counted from 1. -/
def TileSlot.lineUse (t : TileSlot) (part : Word) : Nat :=
  let a := part &&& ~~~0x3F#64
  max (max (t.lastUse a) (t.lastUse (a + 16))) (max (t.lastUse (a + 32)) (t.lastUse (a + 48)))

/-- The slot without the parts of lines that no k-step after the first `k` uses; the other lines stay pinned (R266). -/
def State.broadcast (s : State) (d c n k : Nat) (t : TileSlot) : State × TileSlot :=
  let t' := { t with fetched := t.fetched.filter (fun f => decide (k < t.lineUse f.1)), starved := false }
  (s.unpin d c n (t'.fetched.map (·.2.1)), t')

/-- The addresses of the parts that windows `w` to `w + ahead` use from k-step `from'` of the first on (R266). -/
def TileSlot.windowNeeds (t : TileSlot) (w from' ahead : Nat) : List Word :=
  ((List.range (min (tK t.record) (128 * (w + ahead + 1)))).filter (fun k => decide (128 * w + from' ≤ k))).flatMap t.needs

/-- The unit reads ahead, up to two windows; which parts it reads before the k-step that uses them is open (R266). A part that
it cannot read now, and all after it, are read later. -/
def fetchAhead (d c n : Nat) : List Word → State → TileSlot → State × TileSlot
  | [], s, t => (s, t)
  | a :: r, s, t =>
    match fetchPart d c n false a s t with
    | .ok s' t' => fetchAhead d c n r s' t'
    | _ => (s, t)

/-- Reads a number of windows ahead of the window in progress: none, one or two, which is open (R266). -/
def State.readAhead (s : State) (d c n : Nat) (t : TileSlot) : State × TileSlot :=
  match Config.choose s.free % 3 with
  | 0 => ({ s with free := s.free + 1 }, t)
  | a => fetchAhead d c n (t.windowNeeds t.window 0 a) { s with free := s.free + 1 } t

/-! ## Window arithmetic (R140) -/

/-- The generated A of a constant-matrix operation (R263). -/
def genA (op perm r k : Nat) : Int :=
  match op with
  | 1 => if k = r then 1 else 0
  | 2 => if perm = k then 1 else 0
  | 3 => 1
  | _ => if popc (word (r &&& k)) % 2 = 0 then 1 else -1

/-- The column of A and the row of B that k-step `k` broadcasts, from the parts read (R262, R263, R266). -/
def TileSlot.operands (t : TileSlot) (k : Nat) : List (Option KVal) × List (Option KVal) :=
  let d := t.record
  (if tOp d = 0 then (List.range (tRows d)).map (t.value (sideA t) k)
    else (List.range (tRows d)).map (fun r => some { sig := genA (tOp d) (t.permOf r) r k, exp := 0 }),
   (List.range (tCols d)).map (t.value (sideB t) k))

/-- Row `r` of A over the k-steps done. -/
def TileSlot.rowA (t : TileSlot) (r : Nat) : List (Option KVal) := t.opsA.map (fun col => col.getD r none)

/-- Column `c` of B over the k-steps done. -/
def TileSlot.colB (t : TileSlot) (c : Nat) : List (Option KVal) := t.opsB.map (fun row => row.getD c none)

/-- ShiftZ (R140). -/
def shiftZ (v d : Int) : Int := if 0 ≤ d then v * 2 ^ d.toNat else Int.tdiv v (2 ^ (-d).toNat)

/-- (P, X) of one output element over a window, and whether E > 127 (R140, R264). -/
def tileLane (a b : List (Option KVal)) : BitVec 32 × BitVec 8 × Bool :=
  let zs := a.zip b
  if zs.any (fun z => z.1.isNone || z.2.isNone) then (0, 0x80, false)
  else
    let ps := (zs.filterMap (fun z =>
      match z.1, z.2 with
      | some x, some y => some (x.sig * y.sig, x.exp + y.exp)
      | _, _ => none)).filter (fun p => p.1 != 0)
    match ps with
    | [] => (0, 0, false)
    | p :: r =>
      let e := r.foldl (fun acc q => max acc q.2) p.2
      let ref := min (max e (-127)) 127
      (BitVec.ofInt 32 (ps.foldl (fun acc q => acc + shiftZ q.1 (q.2 - ref + 8)) 0), BitVec.ofInt 8 ref, decide (127 < e))

/-- The lanes of part `q` that stand for an element of the tile, each with its (P, X) (R261). -/
def TileSlot.lanes (t : TileSlot) (q : Nat) : List (Nat × BitVec 32 × BitVec 8 × Bool) :=
  let cb := tCB t.record
  let r0 := 128 * (q / cb)
  let c0 := 128 * (q % cb)
  (List.range (min 128 (tRows t.record - r0))).flatMap (fun i =>
    let a := t.rowA (r0 + i)
    (List.range (min 128 (tCols t.record - c0))).map (fun j => (128 * i + j, tileLane a (t.colB (c0 + j)))))

/-- The planes of numbers in lanes; every other lane holds 0. -/
def lanePlanes (width : Nat) (vs : List (Nat × Nat)) : List Plane :=
  (List.range width).map (fun b => laneSet 0 ((vs.filter (fun v => v.2.testBit b)).map (·.1)))

/-! ## Checks of a k-step (R248, R250, R264) -/

/-- The lanes of a part check a k-step as they check a multiply: a group that fails is executed again and scored, and one that fails
three times, or meets a buffer row of bad parity, raises LANE_UE; as a k-step is no instruction of E's, E takes the trap at its next
instruction boundary, and the k-step is executed again afterwards (R250, R251, R256; DESIGN CHOICE, notes/assumptions/37.md).
Gives the state and whether the k-step stands. -/
def State.checkPart (s : State) (c : CoreId) : State × Bool :=
  let k := s.getCore c
  if k.laneErrs.isEmpty then (s, true)
  else
    let buf := k.bufErrs.filter (fun m => k.laneErrs.any (fun e => e.1 == m.2))
    let lost (e : Nat × Nat) : Bool := decide (3 ≤ e.2) || buf.any (fun m => m.2 == e.1)
    let s1 := k.laneErrs.foldl (fun s e =>
      s.scoreLane c e.1 (if lost e then 16 else 1)) s
    let e := k.hart.e
    let bad := leastOf ((k.laneErrs.filter lost).map (·.1))
    let e' := match bad with
      | some j => { e with deferred := e.deferred ++ [(.laneUe, word j)] }
      | none => e
    (s1.setCore c { s1.getCore c with
      laneErrs := errsLeft k.laneErrs (fun _ => true) 3
      bufErrs := []
      failedRows := (s1.getCore c).failedRows ++ (buf.map (fun m => (k.laneGroup m.2, m.1))).eraseDups
      hart := { (s1.getCore c).hart with e := e' } },
      bad.isNone)

/-- The checks of a k-step on every part. -/
def State.checkParts (s : State) (d c : Nat) : List TilePart → State × Bool
  | [] => (s, true)
  | p :: ps =>
    let r := s.checkPart ⟨d, c, p.core⟩
    let q := r.1.checkParts d c ps
    (q.1, r.2 && q.2)

/-! ## Events of the scheduler (R269, R270) -/

/-- Whether a precondition is met, has failed, or neither (R339). -/
def State.preState (s : State) (ctx : Nat) (v : Bool × Word × BitVec 32) : Option Bool :=
  if !v.1 then some true
  else
    match s.regionOf ctx v.2.1 with
    | none => none
    | some r =>
      let x := r.word v.2.1
      if (x.find v.2.2).isSome && decide (0 ≤ relTo (r.floorAt v.2.1) v.2.2) then some true
      else if verGone (r.floorAt v.2.1) x v.2.2 then some false
      else none

/-- The logical harts of a slot's team whose cores hold no task (R269). -/
def State.idleHarts (s : State) (d c : Nat) (tm : Team) : List Nat :=
  (List.range tm.cores.length).filter (fun h =>
    !((s.cluster d c).slots.toList.any (fun t =>
      t.placed && t.parts.any (fun p => some p.core == tm.cores[h]?))))

/-- The score of a unit that has not acted (R351, R352). -/
def State.scoreOf (s : State) (u : ScoreUnit) : Nat :=
  if s.mgmt.replaced.contains u then 0 else assocGet 0 s.halved.mgmt.scores u

/-- The highest score of a cluster and its cores (R281). -/
def State.clusterScore (s : State) (d c : Nat) : Nat :=
  (List.range 8).foldl (fun acc k => max acc (s.scoreOf (.core ⟨d, c, k⟩))) (s.scoreOf (.cluster d c))

/-- The units of a cluster whose scores trigger a swap of it (R281). -/
def clusterUnits (d c : Nat) : List ScoreUnit :=
  ScoreUnit.cluster d c :: (List.range 8).map (fun k => ScoreUnit.core ⟨d, c, k⟩)

/-- The cluster or a core of it is suspect, and no swap has begun for it (R281, R352). -/
def State.clusterSuspect (s : State) (d c : Nat) : Bool := (clusterUnits d c).any s.halved.suspect

/-- Nothing more is placed on the cluster: it is leaving, or suspect (R280, R281). -/
def State.shunned (s : State) (d c : Nat) : Bool := (s.cluster d c).leaving || s.clusterSuspect d c

/-- The k-steps of the window in progress are all done. -/
def TileSlot.windowDone (t : TileSlot) : Bool :=
  decide (t.window < tWindows t.record) && t.kdone == tLen t.record t.window

/-- Part `q` of a task may take the window in progress: it has released the one before, its hart is on its core, E is not
split and MODE.DS is 0 (R269, R270). -/
def State.canCommit (s : State) (d c : Nat) (t : TileSlot) (p : TilePart) : Bool :=
  let k := s.getCore ⟨d, c, p.core⟩
  p.committed == t.window && p.released == t.window && k.resident && k.hart.split == 0 && !k.hart.ds

/-- The window in progress is committed on part `q` (R270). -/
def State.commitPart (s : State) (d c n q : Nat) : State :=
  let t := s.slot d c n
  match t.parts[q]? with
  | none => s
  | some p =>
    if !s.canCommit d c t p then s
    else
      let id : CoreId := ⟨d, c, p.core⟩
      let vs := t.lanes q
      let wrap := vs.any (fun v => v.2.2.2)
      let s1 := s.commitAt id (tPreg t.record) (lanePlanes 32 (vs.map (fun v => (v.1, v.2.1.toNat))))
      let s2 := s1.commitAt id (tXreg t.record) (lanePlanes 8 (vs.map (fun v => (v.1, v.2.2.1.toNat))))
      let s3 := s2.setSlot d c n (fun t =>
        { t with parts := listSet t.parts q (fun p => { p with committed := p.committed + 1, wrap := wrap }) })
      if bit (dw t.record 0) 42 then
        s3.postCore id (mkRec s3 2 (tileSource d c) (word (handleOf n t + q * 2 ^ 16 + t.window * 2 ^ 32))
          (word (wrap.toNat + (decide (t.window + 1 = tWindows t.record)).toNat * 2)))
      else s3

/-- Where a task stands after commits of the window in progress (R269). -/
def TileSlot.afterCommit (t : TileSlot) : TileSlot :=
  if t.parts.all (fun p => decide (p.committed = t.window + 1)) then
    let t' := { t with window := t.window + 1, kdone := 0, opsA := [], opsB := [] }
    if t.window + 1 = tWindows t.record then { t' with state := .drain } else { t' with state := .running }
  else if t.parts.any (fun p => decide (p.released < t.window)) then { t with state := .hold }
  else t

/-- The slot numbers of a cluster that are kept for the parked tasks of the teams that a swap brings to it (R267, R269, R280). -/
def State.keptSlots (s : State) (d c : Nat) : List Nat :=
  s.teams.flatMap (fun t => if t.2.state == .saved && t.2.target == some (d, c) then t.2.slots.map (·.1) else []) ++
    (match (s.die d).swap with
     | some w =>
       if w.inn == some c then (List.range 64).filter (fun n => (s.slot d w.out n).state != .free) else []
     | none => [])

/-- The slot that TENQ takes on a cluster: the first that is free and not kept (R267, R280). -/
def State.freeSlot (s : State) (d c : Nat) : Option Nat :=
  (List.range 64).find? (fun n => (s.slot d c n).state == .free && !(s.keptSlots d c).contains n)

/-- TENQ: Validates a tile-task record, takes a free scheduler slot with a scale snapshot and returns the handle, or 0. (R272) -/
def execTenq (d a : BitVec 5) (s : State) : Out :=
  issue (wQ 23 d a 0 8) [(a, 0)] s (fun s => notSplit (wQ 23 d a 0 8) s (fun s =>
    if s.thr.pendingReg [d] then .stall s
    else readDesc s (s.thr.reg a) 128 (fun s r =>
      if privFields r && !s.thr.super then .trap s .priv (((wQ 23 d a 0 8)).setWidth 64)
      else if !tValid s r then .trap s .engineFault 0
      else
        let cl := s.cluster s.loc.die s.loc.cluster
        match s.freeSlot s.loc.die s.loc.cluster with
        | none => .adv (s.setThr (s.thr.setReg d 0))
        | some n =>
          let snap (sc e : Nat) : List Byte := if sc = 2 then s.hart.scales.toList.getD e [] else []
          let t : TileSlot :=
            { state := .waiting, gen := (cl.slots.toList.getD n {}).gen, record := r
              snapA := snap (tScA r) (field (dw r 0) 24 4), snapB := snap (tScB r) (field (dw r 0) 28 4)
              team := s.hart.team, hart := s.hart.hartid, ctx := s.hart.ctx, core := s.loc, super := s.thr.super }
          let s1 := s.setSlot s.loc.die s.loc.cluster n (fun _ => t)
          .adv (s1.setThr (s1.thr.setReg d (word (handleOf n t)))))))

/-- TWIN: Waits for the oldest committed, unreleased window of the core's part of a task. (R273) -/
def execTwin (d a : BitVec 5) (s : State) : Out :=
  issue (wQ 23 d a 0 9) [(a, 0)] s (fun s => notSplit (wQ 23 d a 0 9) s (fun s =>
    if s.thr.pendingReg [d] then .stall s
    else
      let h := s.thr.reg a
      let no : Res := .adv (s.setThr (s.thr.setReg d (BitVec.allOnes 64)))
      match s.taskOf h with
      | none => no
      | some (_, t) =>
        if !t.placed then waitOn s .twin 6 h.toNat
        else
          match t.partOf s.hart.hartid with
          | none => no
          | some (q, p) =>
            if p.released < p.committed then
              .adv (s.setThr (s.thr.setReg d (word
                ((decide (p.released + 1 = tWindows t.record)).toNat * 2 ^ 63 + p.wrap.toNat * 2 ^ 62 + q * 2 ^ 32 +
                  p.released))))
            else waitOn s .twin 6 h.toNat))

/-- TREL: Releases the oldest committed, unreleased window of the core's part, allowing the next commit. (R274) -/
def execTrel (a : BitVec 5) (s : State) : Out :=
  issue (wQ 23 0 a 0 10) [(a, 0)] s (fun s => notSplit (wQ 23 0 a 0 10) s (fun s =>
    match s.taskOf (s.thr.reg a) with
    | none => .adv s
    | some (n, t) =>
      match t.partOf s.hart.hartid with
      | none => .adv s
      | some (q, p) =>
        if p.released < p.committed then
          let s1 := s.setSlot s.loc.die s.loc.cluster n (fun t =>
            { t with parts := listSet t.parts q (fun p => { p with
              released := p.released + 1
              owed := if p.released + 1 = tWindows t.record then s.core.owes false true ++ s.core.owes true true else p.owed }) })
          .adv (s1.drainTask s.loc.die s.loc.cluster n)
        else .adv s))

/-- TCANCEL: Ends a tile task with status 1. (R275) -/
def execTcancel (a : BitVec 5) (s : State) : Out :=
  issue (wQ 23 0 a 0 11) [(a, 0)] s (fun s => notSplit (wQ 23 0 a 0 11) s (fun s =>
    match s.taskOf (s.thr.reg a) with
    | none => .adv s
    | some (n, t) =>
      match t.state with
      | .waiting => .adv (s.endTask s.loc.die s.loc.cluster n 1 0)
      | .ready => .adv (s.endTask s.loc.die s.loc.cluster n 1 0)
      | .running => .adv (s.endTask s.loc.die s.loc.cluster n 1 0)
      | .hold => .adv (s.endTask s.loc.die s.loc.cluster n 1 0)
      | _ => .adv s))

/-- TILE_READY: A waiting tile task's enabled preconditions exist, or one falls below its floor and the task ends. (R269) -/
def execTileReady (die cluster slot : Nat) (s : State) : Out :=
  if s.asleep then .next s
  else
    let t := s.slot die cluster slot
    if t.state = TileState.waiting then
      match s.preState t.ctx (tVers t.record 8), s.preState t.ctx (tVers t.record 10) with
      | some false, _ => .next (s.endTask die cluster slot 2 0)
      | _, some false => .next (s.endTask die cluster slot 2 0)
      | some true, some true => .next (s.setSlot die cluster slot (fun t => { t with state := .ready }))
      | _, _ => .next s
    else .next s

/-- TILE_PLACE: A ready tile task is placed on free team cores with rows allocated. (R269) -/
def execTilePlace (die cluster slot : Nat) (s : State) : Out :=
  if s.asleep then .next s
  else
    let t := s.slot die cluster slot
    match assocFind s.teams t.team with
    | none => .next s
    | some tm =>
      let idle := s.idleHarts die cluster tm
      let harts := if t.parts.isEmpty then idle.take (tParts t.record) else t.parts.map (·.hart)
      if t.state = TileState.ready && tm.state == .running && !s.shunned die cluster && harts.length == tParts t.record &&
          harts.all (fun h => idle.contains h) then
        let parts := harts.mapIdx (fun q h =>
          { (t.parts.getD q { core := 0, hart := h }) with core := tm.cores.getD h 0 })
        let s1 := parts.foldl (fun s p => s.takeTileRows ⟨die, cluster, p.core⟩) s
        let st : TileState := if t.window = tWindows t.record then .drain else .running
        let s2 := s1.setSlot die cluster slot (fun t => { t with state := st, parts := parts })
        let r := s2.readAhead die cluster slot (s2.slot die cluster slot)
        .next ((r.1.setSlot die cluster slot (fun _ => r.2)).drainTask die cluster slot)
      else .next s

/-- K_STEP: A k-step starts on all parts of a task when their ALU paths are free. (R264, R265, R266) -/
def execKStep (die cluster slot : Nat) (s : State) : Out :=
  if s.asleep then .next s
  else
    let t := s.slot die cluster slot
    if t.state = TileState.running && !t.windowDone then
      let k := 128 * t.window + t.kdone
      match fetchParts die cluster slot true (t.needs k) s t with
      | .ok s1 t1 =>
        let r := if t1.kdone = 0 then s1.readAhead die cluster slot t1 else (s1, t1)
        let q := r.1.checkParts die cluster t1.parts
        if q.2 then
          let ops := r.2.operands k
          let b := q.1.broadcast die cluster slot (k + 1) r.2
          .next (b.1.setSlot die cluster slot (fun _ =>
            { b.2 with kdone := b.2.kdone + 1, opsA := b.2.opsA ++ [ops.1], opsB := b.2.opsB ++ [ops.2] }))
        else .next (q.1.setSlot die cluster slot (fun _ => r.2))
      | .full => .next (s.setSlot die cluster slot (fun t => { t with starved := true }))
      | _ => .next s
    else .next s

/-- TILE_WINDOW_COMMIT: A completed window is committed into PREG and XREG of each part, posting TILE_WINDOW when asked. (R270) -/
def execTileWindowCommit (die cluster slot : Nat) (s : State) : Out :=
  if s.asleep then .next s
  else
    let t := s.slot die cluster slot
    match t.state with
    | .running => if t.windowDone then .next (commitAll t.parts.length) else .next s
    | .hold => .next (commitAll t.parts.length)
    | .drain => .next (s.drainTask die cluster slot)
    | _ => .next s
  where
    /-- Commits the window on every part that may take it, then moves the task on. -/
    commitAll (n : Nat) : State :=
      let s1 := (List.range n).foldl (fun s q => s.commitPart die cluster slot q) s
      s1.setSlot die cluster slot TileSlot.afterCommit

/-- TILE_FETCH_FAILURE: A tile fetch fails on translation, permission or data and the task ends with status 3, 4 or 5. (R266) -/
def execTileFetchFailure (die cluster slot : Nat) (s : State) : Out :=
  if s.asleep then .next s
  else
    let t := s.slot die cluster slot
    if t.state = TileState.running || t.state = TileState.hold then
      let from' := if t.windowDone then tLen t.record t.window else t.kdone
      match fetchParts die cluster slot true (t.windowNeeds t.window from' 2) s t with
      | .fail s1 status a => .next (s1.endTask die cluster slot status a)
      | _ => .next s
    else .next s

/-- TILE_PARK: A pre-empted team's running task stops at the next window boundary and parks. (R269) -/
def execTilePark (die cluster slot : Nat) (s : State) : Out :=
  if s.asleep then .next s
  else
    let t := s.slot die cluster slot
    let parking := match assocFind s.teams t.team with
      | some tm => tm.state == .parking
      | none => false
    if t.placed && parking && (t.kdone = 0 || t.windowDone || t.state = TileState.hold) then
      let s1 := s.freeTileRows die cluster slot t
      .next (s1.setSlot die cluster slot (fun t => { t with state := .parked, kdone := 0, opsA := [], opsB := [], fetched := [] }))
    else .next s

end Sys2Proof.Machine
end

