-- ==== Sys2Proof/Machine/Wake.lean ====
section
/-! DEFINITION. Sys2Proof/Machine/Wake.lean: the events of a hart: fills that complete, waits that reach their bound, forced parking, event records that settle, spool fetches, posted reductions, floors, sync mirrors and MODE.DS. -/

namespace Sys2Proof.Machine

/-! ## Fills (R17, R20, R85, R94, R344) -/

/-- The fills of a hart's threads. -/
def Hart.allFills (h : Hart) : List Fill :=
  h.a.fills ++ h.e.fills ++ h.mts.toList.flatMap (fun m => m.thr.fills)

/-- A fill of EVRD. -/
def Fill.isEvent (f : Fill) : Bool :=
  match f.src with
  | .event => true
  | _ => false

/-- A fill of QPOP. -/
def Fill.isQueue (f : Fill) : Bool :=
  match f.src with
  | .queue _ => true
  | _ => false

/-- A withdrawn scalar access of the thread in focus is issued again, as the fill that it became: its registers take what it
gives; one that fails now leaves them empty and raises its cause at the thread's next boundary, as an access that ends while it
waits does (R20, R221, R298; DEDUCED, notes/assumptions/31.md). -/
def State.reissue (s : State) (acc : Access) (f : Fill) (ea : Word) (size : Nat) (act : Place → State → List Word × State) :
    State :=
  let failed (s : State) (c : Cause) : State := s.setThr { s.thr with
    fills := s.thr.fills.filter (fun x => decide (x.id ≠ f.id)), deferred := s.thr.deferred ++ [(c, ea)] }
  match resolveThr s acc ea size with
  | .stall s1 => s1
  | .fail c s1 => failed s1 c
  | .ok p s1 =>
    if s1.poisonedAt p size then failed s1 .dataPoison
    else
      let r := act p s1
      r.2.setThr (r.2.thr.complete f r.1)

/-- Completes a fill of a thread of a core whose access can be performed or has been: a value arrives; the oldest QPOP of
its sequencer takes the head of its queue; the oldest EVRD of the hart takes the least removable record; a sync update
returns the old value once every mirror has it. Nothing changes where it cannot complete. -/
def State.fillOne (s : State) (c : CoreId) (w : Who) (f : Fill) : State :=
  let h := (s.getCore c).hart
  let t := h.thr w
  match f.src with
  | .value ws => s.onThr c w (fun t => t.complete f ws)
  | .queue q =>
    if t.fills.any (fun g => g.isQueue && decide (g.id < f.id)) then s
    else
      match h.qs[q.toNat]'q.isLt with
      | [] => s
      | v :: rest =>
        (s.onHart c (fun h => { h with qs := h.qs.set q.toNat rest q.isLt })).onThr c w (fun t => t.complete f [v])
  | .event =>
    if h.allFills.any (fun g => g.isEvent && decide (g.id < f.id)) then s
    else
      match leastRemovable s.gts h.evq with
      | none => s
      | some i =>
        let r := i.record
        (s.onHart c (fun h => h.removeEvent s.gts i)).onThr c w (fun t => t.complete f
          [word (r.source.toNat * 2 ^ 16 + r.flags.toNat * 2 ^ 8 + r.typ.toNat), word r.gts, r.p0, r.p1])
  | .tagged => s
  | .sync _ u old => if s.syncDone u then s.onThr c w (fun t => t.complete f [old]) else s
  | .bell _ _ _ _ _ _ => s
  | .load fn ea =>
    let form := loadForm fn
    ((s.focus c w).reissue .read f ea form.1 (fun p s =>
      (form.2 (s.loadAt p form.1), s.touchPlace false p))).focus s.loc s.who
  | .atom op ea b cas =>
    ((s.focus c w).reissue .rmw f ea 8 (fun p s =>
      let r := atomAt s p op.toNat b cas
      ([r.1], r.2))).focus s.loc s.who

/-- FILL_COMPLETE: A long-latency producer's data arrives and fills its empty destination registers, releasing waiting readers. (R17) -/
def execFillComplete (c : CoreId) (w : Who) (n : Nat) (s : State) : Out :=
  .next (if s.asleep then s else
    (let k := s.getCore c
     match (k.hart.thr w).fills.find? (fun f => decide (f.id = n)) with
     | some f => if k.resident then s.fillOne c w f else s
     | none => s))

/-! ## Waits that reach their bound (R19, R29, R221, R330, R331) -/

/-- The wait of a thread in progress has reached its bound. -/
def Wait.expired (w : Wait) (now : Nat) : Bool := decide (w.since + w.bound * 1000 ≤ now)

/-- What a wait bounded by WAITTIMEOUT waits for has not come about, where the wait itself shows it (R19, R86, R94, R95);
A waits at a branch-outcome queue that is full, E at one that is empty; SYWAIT, WAITA and TWIN look again when they are executed. -/
def stillWaits (h : Hart) (who : Who) (now : Nat) (w : Wait) : Bool :=
  let t := h.thr who
  match w.kind with
  | .reg => !t.isFull (BitVec.ofNat 5 w.num.toNat)
  | .queue => decide (64 ≤ (h.qs.toList.getD w.num.toNat []).length)
  | .branch => if who = .a then decide (32 ≤ h.bo.length) else h.bo.isEmpty
  | .event => (leastRemovable now h.evq).isNone
  | _ => true

/-- The kind of a wait in WAIT_TIMEOUT's value; none for a wait that WAITTIMEOUT does not bound (R97). -/
def WaitKind.number : WaitKind → Option Nat
  | .reg => some 0
  | .queue => some 1
  | .branch => some 2
  | .event => some 3
  | .sync => some 4
  | .waita => some 5
  | .twin => some 6
  | _ => none

/-- A thread whose wait of one kind has reached its bound takes the cause that bounds it. -/
def waitEnd (s : State) (c : CoreId) (w : Who) (cause : Wait → Option (Cause × Word)) : State :=
  let k := s.getCore c
  let t := k.hart.thr w
  match t.wait with
  | some x =>
    match cause x with
    | some (e, v) =>
      if k.canRun w && t.deferred.isEmpty && x.expired s.gts && stillWaits k.hart w s.gts x then
        (s.focus c w).takeTrap e v t.pc
      else s
    | none => s
  | none => s

/-- WAIT_TIMEOUT: WAITTIMEOUT expires for a register, queue, event, sync, WAITA or TWIN wait and the waiting instruction traps. (R19) -/
def execWaitTimeout (c : CoreId) (w : Who) (s : State) : Out :=
  .next (if s.asleep then s else (waitEnd s c w (fun x => x.kind.number.map (fun n => (.waitTimeout, waitVal n x.num.toNat)))))

/-- A thread whose version operation waits for a word that is not settled, once its home has examined it again, when the bound of
that word's region is reached takes a cause, with the word's address (R329-R331, R335, R337). -/
def versWaitEnd (s0 : State) (c : CoreId) (w : Who) (kind : WaitKind) (cause : Cause) : State :=
  let s := s0.wakeVers
  let k := s.getCore c
  let t := k.hart.thr w
  match t.wait with
  | some x =>
    match x.asks with
    | q :: _ =>
      if decide (x.kind = kind) && q.ended.isNone && k.canRun w && t.deferred.isEmpty &&
          decide (x.since + q.bound * 1000 ≤ s.gts) then (s.focus c w).takeTrap cause q.addr t.pc
      else s
    | [] => s
  | none => s

/-- VER_TIMEOUT: The wait bound of a waiting VRLD expires and it traps. (R330) -/
def execVerTimeout (c : CoreId) (w : Who) (s : State) : Out :=
  .next (if s.asleep then s else versWaitEnd s c w .version .verTimeout)

/-- VER_FULL: The wait bound of a VRST waiting at the depth expires and it traps. (R331) -/
def execVerFull (c : CoreId) (w : Who) (s : State) : Out :=
  .next (if s.asleep then s else versWaitEnd s c w .room .verFull)

/-- The requests held at every scratchpad. -/
def State.tagReqs (s : State) : List TagReq := s.cores.flatMap (fun p => p.2.hart.spadWait)

/-- FE_TIMEOUT: FETIMEOUT expires for a waiting tagged-word request, which is withdrawn and traps its sequencer. (R221) -/
def execFeTimeout (c : CoreId) (n : Nat) (s : State) : Out :=
  .next (if s.asleep then s else
    (match s.tagReqs.find? (fun r => decide (r.id = n) && decide (r.core = c)) with
     | none => s
     | some r =>
       if s.gts < r.since + r.bound * 1000 then s
       else
         let s1 := s.withdrawTag n
         match r.op with
         | .stef _ =>
           if (s.getCore c).canRun r.who then
             ((s1.focus c r.who).tryTrap .feTimeout r.ea ((s1.getCore c).hart.thr r.who).pc).getD s
           else s
         | _ => s1.onThr c r.who (fun t =>
             { t with
               fills := t.fills.filter (fun f => decide (f.id ≠ r.fill)), deferred := t.deferred ++ [(.feTimeout, r.ea)] })))

/-! ## Instruction boundaries at a wait (R97, R103, R221, R304, R338, R345) -/

/-- A vector store of versions whose element VSTART has been created while it waited goes on after that element (R335). -/
def State.passMade (s : State) (ns : List Nat) : State :=
  let j := s.est.vstart.toNat
  (s.setEst { s.est with vstart := BitVec.ofNat 15 (j + 1) }).passed ns j 1

/-- The wait of a thread ends because its instruction is not to go on. What it waits for may have come about already, and then
it has been performed and is not performed again: a tagged store that is served, a version that is created and a SYWR that
every mirror has complete, a version that is read is delivered, and a created element of a vector store is passed. A tagged store
that is not served is withdrawn, every other operation has not been performed. There is none while a SYWR is on its way to
the mirrors (R20, R88, R221, R335, R338, R344, R345). -/
def State.closeWait (s : State) (c : CoreId) (w : Who) (park : Bool) : Option State :=
  match ((s.getCore c).hart.thr w).wait with
  | none => some s
  | some x =>
    match x.kind with
    | .tagged => some (if x.served then s.onThr c w (fun t => t.advance park) else s.withdrawTag x.num.toNat)
    | .update => if s.syncDone x.num.toNat then some (s.onThr c w (fun t => t.advance park)) else none
    | _ =>
      match x.op, (x.asks.map (·.ended) : List (Option VersEnd)) with
      | .store, [some .made] => some (s.onThr c w (fun t => t.advance park))
      | .load d, [some (.served v)] => some (s.onThr c w (fun t => (t.endWait.setReg d v).advance park))
      | .lanes ns, [some .made] => some (((s.focus c w).passMade ns).focus s.loc s.who)
      | _, _ => some s

/-- Delivers the oldest deferred cause of the thread in focus at an instruction boundary, with TPC at the next
instruction not yet executed (R97, R221, R304). A SYWR that is performed at its home and a table read that waits for a
migration leave the cause deferred (R298, R344). -/
def State.deliver (s : State) : State :=
  match s.thr.deferred with
  | [] => s
  | (c, v) :: rest =>
    match s.closeWait s.loc s.who s.hart.park.isSome with
    | none => s
    | some s1 => ((s1.setThr { s1.thr with deferred := rest }).tryTrap c v s1.thr.pc).getD s

/-- TRAP_DELIVERY: A raised trap reaches the oldest uncompleted instruction and is delivered to the handler through TVEC. (R99) -/
def execTrapDelivery (c : CoreId) (w : Who) (s : State) : Out :=
  .next (if (s.getCore c).canRun w then (s.focus c w).deliver else s)

/-! ## Parking (R88, R101-R103) -/

/-- A sequencer has parked, or counts as parked (R101, R210). -/
def Run.quiet : Run → Bool
  | .running => false
  | _ => true

/-- Every sequencer and micro-thread of a hart has parked (R101). -/
def Hart.allParked (h : Hart) : Bool :=
  h.a.run.quiet &&
    (if h.split = 0 then h.e.run.quiet
     else (List.range h.split).all (fun k => (h.mts.toList.getD k {}).thr.run.quiet))

/-- The thread exists and runs, whether or not another micro-thread's handler holds it (R100, R208). -/
def Core.alive (k : Core) (w : Who) : Bool :=
  k.resident && (k.hart.thr w).run == .running &&
    (match w with
      | .a => true
      | .e => k.hart.split == 0
      | .mt i => decide (i.val < k.hart.split))

/-- A thread is parked where it stands, its wait over; a SYWR that is on its way to the mirrors completes first (R88, R103,
R345). -/
def State.forcePark (s : State) (c : CoreId) (w : Who) : State :=
  match s.closeWait c w false with
  | some s1 => s1.onThr c w (fun t => { t.endWait with run := .parked, cut := none })
  | none => s

/-- The page of an address is under migration in a context (R298). -/
def State.migrating (s : State) (ctx : Nat) (va : Word) : Bool :=
  match s.rootOf ctx with
  | none => false
  | some root =>
    match walkFrom s.mem (va.toNat % 2 ^ 57) walkLevels root with
    | .leaf _ e _ => bit e 56
    | .none => false

/-- The scalar access, of those that fill registers, that the thread in focus is stalled in by a migration: its registers, and what
they wait for (R298). -/
def State.stalledAccess (s : State) : Option (List (BitVec 5) × FillSrc) :=
  match fetch s with
  | .ok w s1 =>
    let t := s.thr
    let d := bits w 21 5
    let a := bits w 16 5
    let b := bits w 11 5
    let op := (bits w 5 4).toNat
    let stalled (acc : Access) (ea : Word) (size : Nat) : Bool :=
      s1.migrating s.hart.ctx ea && (match resolveThr s1 acc ea size with | .stall _ => true | _ => false)
    let ready (ds srcs : List (BitVec 5)) (release : Bool) : Bool :=
      (gate w s).isNone && srcs.all t.isFull && !s.held release && !t.pendingReg ds && t.fillRoom
    if major w = 0x0A then
      let fn := bits w 12 3
      let ea := eaOf t a (bits w 0 12)
      let ds := if fn = 7 then [d, d + 1] else [d]
      if (fn != 7 || d.getLsbD 0 == false) && ready ds [a] false && stalled .read ea (loadForm fn).1 then some (ds, .load fn ea)
      else none
    else if major w = 0x13 && decide (op ≤ 9) then
      let cas := if op = 2 then [d] else []
      if ready [d] ([a, b] ++ cas) (releases (bits w 3 2)) && stalled .rmw (t.reg a) 8 then
        some ([d], .atom (BitVec.ofNat 4 op) (t.reg a) (t.reg b) (if op = 2 then some (t.reg d) else none))
      else none
    else if major w = 0x13 && bits w 3 6 == 53#6 && b == 0 && bits w 9 1 == 0 then
      if ready [d] [a] false && stalled .read (t.reg a) 8 then some ([d], .load 6 (t.reg a)) else none
    else none
  | _ => none

/-- A forced thread that is stalled in a scalar access by a migration leaves it as a withdrawn fill (R20, R298). -/
def State.withdrawStalled (s : State) (c : CoreId) (w : Who) : State :=
  let s1 := s.focus c w
  match (if s1.thr.wait.isNone && s1.thr.cut.isNone then s1.stalledAccess else none) with
  | some (ds, src) =>
    let s2 := s1.startFill ds src
    (s2.setThr (s2.thr.advance false)).focus s.loc s.who
  | none => s

/-- PREDEADLINE_EXPIRY: A sequencer not parked by PREDEADLINE, or 500 µs for brown-out, is forced at its next instruction boundary. (R103)
Where the lanes are at work, the instruction that the thread executes next is in progress when it is forced, or has not begun;
which is open: in the first case it stops at the latest at the element of `cut` if it records VSTART, and completes otherwise. A scalar access that a migration stalls becomes
a withdrawn fill (R298). -/
def execPredeadlineExpiry (c : CoreId) (w : Who) (s : State) : Out :=
  .next (if s.asleep then s else
    (let k := s.getCore c
     match k.hart.park with
     | some p =>
       let t := k.hart.thr w
       if k.alive w && decide (p.force ≤ s.gts) && (t.deferred.isEmpty || !k.canRun w) then
         let s1 := { s with free := s.free + 2 }
         if k.canRun w && decide (w ≠ .a) && t.wait.isNone && t.cut.isNone && Config.choose s.free % 2 == 1 then
           s1.onThr c w (fun t => { t with cut := some (Config.choose (s.free + 1) % 16384) })
         else (if k.canRun w then s1.withdrawStalled c w else s1).forcePark c w
       else s
     | none => s))

/-- The state `t` after an instruction of the thread that was in focus in `s`: a forced thread whose instruction was in progress
parks at the boundary that it has reached (R103). -/
def State.endCut (t s : State) : State :=
  if s.thr.cut.isNone then t
  else
    let k := t.getCore s.loc
    let u := t.onThr s.loc s.who (fun x => { x with cut := none })
    if k.alive s.who then u.forcePark s.loc s.who else u

/-! ## Events, spools, posted reductions, floors, sync mirrors, MODE.DS (R30, R236, R304, R337, R342, R348) -/

/-- The record's settle point has passed (R348). -/
def EvItem.settle (now : Nat) (i : EvItem) : EvItem := if i.record.gts + 250 ≤ now then { i with settled := true } else i

/-- EVENT_SETTLE: A queued event record becomes removable once local GTS reaches its stamp plus 250 ns; records for the host that
have settled enter the host event ring. (R348, R374) -/
def execEventSettle (c : CoreId) (s : State) : Out :=
  .next ((s.onHart c (fun h => { h with evq := h.evq.map (EvItem.settle s.gts) })).flushRing 256)

/-- SPOOL_FETCH: A read spool's prefetched elements arrive or are marked faulted. (R236) -/
def execSpoolFetch (c : CoreId) (n cnt : Nat) (s : State) : Out :=
  .next (if s.asleep then s else
    (let k := s.getCore c
     let p := k.hart.spool n
     if n < 16 && k.resident && p.bound && !p.isWrite && !p.held then fetchSpool s c n (min cnt (32768 - p.buf.length)) else s))

/-- A posted reduction is not performed: deferred to its thread, or dropped with FAULT_DEFERRED and its context
poisoned when its sequencer has halted or its launch has ended (R304, R355). -/
def postedFail (s : State) (c : CoreId) (w : Who) (r : Posted) (cause : Cause) (num : Nat) : State :=
  let k := s.getCore c
  if k.resident && (k.hart.thr w).run != .halted then
    s.onThr c w (fun t => { t with deferred := t.deferred ++ [(cause, r.va)] })
  else
    let x := k.hart.ctx
    let s1 := { s with ctxs := s.ctxs.map (fun (y : Context) => if y.num = x then { y with poisoned := true } else y) }
    s1.postHost (mkRec s1 6 (BitVec.ofNat 16 (c.die * 0x1000 + 0x800))
      (word (x % 2 ^ 16 + num * 2 ^ 16 + r.op4.toNat * 2 ^ 24)) (word (r.va.toNat % 2 ^ 57)))

/-- The walk of a posted reduction ends: it is performed, or it fails. -/
def postedEnd (s : State) (c : CoreId) (w : Who) (r : Posted) : State :=
  let s1 := (s.focus c w).onThr c w (fun t => { t with posted := t.posted.drop 1 })
  match resolve s1 c r.user .rmw r.va 8 with
  | .stall _ => s
  | .fail e s2 => if e = Cause.xlate then postedFail s2 c w r .deferXlate 8 else postedFail s2 c w r .deferPerm 9
  | .ok p s2 =>
    if s2.poisonedAt p 8 then postedFail s2 c w r .dataPoison 26
    else (atomAt s2 p r.op4.toNat r.operand none).2

/-- POSTED_REDUCTION_WALK_END: A posted reduction's walk ends: it is performed, or its fault is deferred, held or reported as FAULT_DEFERRED. (R304) -/
def execPostedReductionWalkEnd (c : CoreId) (w : Who) (s : State) : Out :=
  .next (if s.asleep then s else
    (match ((s.getCore c).hart.thr w).posted with
     | r :: _ => postedEnd s c w r
     | [] => s))

/-- FLOOR_APPLY: A die applies a new region floor, re-examining waiting version operations. (R337) -/
def execFloorApply (region die : Nat) (s : State) : Out :=
  .next (if s.asleep then s else { s with regions := listSet s.regions region (fun r => r.applyFloor die) }.wakeVers)

/-- Takes the first message of a home out of a die's list. -/
def takeMsg (home : Nat) : List SyncMsg → Option (SyncMsg × List SyncMsg)
  | [] => none
  | m :: r => if m.reg / 512 % 8 = home then some (m, r) else (takeMsg home r).map (fun p => (p.1, m :: p.2))

/-- A die's mirror takes the first update of a home (R342). -/
def State.applyMsg (s : State) (die home : Nat) : State :=
  if h : die < 8 then
    match takeMsg home s.syncMsgs[die] with
    | some (m, r) =>
      { s with
        mirrors := s.mirrors.set die (assocSet s.mirrors[die] m.reg m.val), syncMsgs := s.syncMsgs.set die r }
    | none => s
  else s

/-- SYNC_BROADCAST: A sync-register update from its home is applied to a die's mirror. (R342) -/
def execSyncBroadcast (die : Nat) (s : State) : Out :=
  .next (if s.asleep then s else
    (let homes := ((s.syncMsgs.toList.getD die []).map (fun m => m.reg / 512 % 8)).eraseDups
     match homes with
     | [] => s
     | [h] => s.applyMsg die h
     | h :: _ => { s with free := s.free + 1 }.applyMsg die (homes.getD (Config.choose s.free % homes.length) h)))

/-- DS_MODE_CHANGE: A MODE.DS change takes effect at its point in E's order, copying primary lane state into the mirrors. (R30) -/
def execDsModeChange (c : CoreId) (s : State) : Out :=
  .next (s.applyDs c)

/-- ILL: A fetched word that is not an instruction reaches execution and raises ILL with no other effect. (R37) -/
def execIll (w : BitVec 32) (s : State) : Out :=
  if !s.core.resident then .fault .noHart else .next (finish (.trap s .ill (w.setWidth 64)))

end Sys2Proof.Machine
end

