-- ==== Sys2Proof/Machine/Ring.lean ====
section
/-! DEFINITION. Sys2Proof/Machine/Ring.lean: the register window (R395): command rings and their queues (R356-R359), the host event ring (R374), the holds of brown-out (R385, R386) and the lease registers (R407). -/

namespace Sys2Proof.Machine

/-! ## Memory of a context, as the Drover reaches it (R235, R294, R362) -/

/-- The address that a 57-bit field of a command names (R235). -/
def addr57 (w : Word) : Word := sext57 (w &&& 0x01FF_FFFF_FFFF_FFFF#64)

/-- Translates an address in a context for the Drover, with supervisor rights. -/
def drvXlate (s : State) (before : Option Nat) (ctx : Nat) (acc : Access) (a : Word) : Xlate :=
  if canonical a then s.xlate before [] 0 ctx false acc a else .fail .xlate s

/-- What a read by the Drover gives. -/
inductive DrvRead
  | ok (bs : List Byte) (s : State)
  | fail (s : State)
  | stall

/-- Reads pieces that each lie in one 16-byte part, behind the lines that engines own, as a command that started as the
how-many-th or as none (R309, R315). -/
def drvReadBy (before : Option Nat) (ctx : Nat) : List (Word × Nat) → List Byte → State → DrvRead
  | [], acc, s => .ok acc s
  | (a, n) :: r, acc, s =>
    match drvXlate s before ctx .read a with
    | .fail _ s' => .fail s'
    | .stall _ => .stall
    | .ok pa _ s' =>
      if s'.owned before (.phys pa) then .stall
      else if poisoned s' pa n then .fail s'
      else drvReadBy before ctx r (acc ++ memRead s'.mem pa n) (s'.touchDirect pa true)

/-- Reads pieces for the Drover itself. -/
def drvRead (ctx : Nat) (ps : List (Word × Nat)) (acc : List Byte) (s : State) : DrvRead := drvReadBy none ctx ps acc s

/-- What a write by the Drover gives; on a failure the bytes written before it remain. -/
inductive DrvWrite
  | ok (s : State)
  | fail (s : State)
  | stall

/-- Writes pieces that each lie in one 16-byte part, behind the lines that engines own (R309, R315). -/
def drvWriteBy (before : Option Nat) (ctx : Nat) : List (Word × Nat) → List Byte → State → DrvWrite
  | [], _, s => .ok s
  | (a, n) :: r, bs, s =>
    match drvXlate s before ctx .write a with
    | .fail _ s' => .fail s'
    | .stall _ => .stall
    | .ok pa _ s' =>
      if s'.owned before (.phys pa) then .stall
      else drvWriteBy before ctx r (bs.drop n) ((s'.touchDirect pa true).storeAt none (.phys pa) (bs.take n))

/-- Writes pieces for the Drover itself. -/
def drvWrite (ctx : Nat) (ps : List (Word × Nat)) (bs : List Byte) (s : State) : DrvWrite := drvWriteBy none ctx ps bs s

/-- The words of a list of bytes. -/
def wordsOf (bs : List Byte) (n : Nat) : List Word := (List.range n).map (fun i => word (ofBytes ((bs.drop (8 * i)).take 8)))

/-! ## Queues (R356-R359) -/

/-- A queue by number. -/
def State.queue (s : State) (q : Nat) : Queue := s.queues.toList.getD q {}

/-- The state with a queue changed. -/
def State.setQueue (s : State) (q : Nat) (f : Queue → Queue) : State :=
  if h : q < 64 then { s with queues := s.queues.set q (f s.queues[q]) } else s

/-- SIZE of a queue's ring (R356). -/
def Queue.size (q : Queue) : Nat := 2 ^ (q.lsize.toNat + 4)

/-- The address of the record of a sequence (R357). -/
def Queue.slotAddr (q : Queue) (n : BitVec 32) : Word :=
  sext57 (q.base.setWidth 64) + word (64 + 64 * (n.toNat % q.size))

/-- A queue enabled: HEAD and TAIL are 0, and header word 0 is to be stored before anything is consumed (R356). -/
def Queue.enable (q : Queue) : Queue :=
  { q with en := true, head := 0, tail := 0, headerDue := true, dueBase := q.base, dueCtx := q.ctx }

/-- A write to QCFG (R356). -/
def Queue.writeCfg (q : Queue) (v : Word) : Queue :=
  let q1 := { q with err := q.err && !bit v 62, flt := q.flt && !bit v 58 }
  let q2 := if q.en then q1 else
    { q1 with
      prio := BitVec.ofNat 3 (field v 59 3)
      quantum := BitVec.ofNat 16 (max 1 (field v 40 16))
      lsize := BitVec.ofNat 4 (field v 32 4)
      ctx := BitVec.ofNat 16 (field v 0 16) }
  if bit v 63 then (if q.en then q2 else q2.enable) else { q2 with en := false }

/-- A write to QBASE (R356). -/
def Queue.writeBase (q : Queue) (v : Word) : Queue := if q.en then q else { q with base := BitVec.ofNat 57 (field v 6 51 * 64) }

/-- A write of T to QTAIL (R356, R358). -/
def Queue.writeTail (q : Queue) (v : Word) : Queue :=
  let t : BitVec 32 := v.setWidth 32
  if !q.en then q
  else if (t - q.tail).toInt ≤ 0 then q
  else if (q.size : Int) < (t - q.head).toInt then { q with err := true }
  else { q with tail := t }

/-! ## The host event ring's registers (R374) -/

/-- A write to HEVCFG (R374). -/
def State.writeHevCfg (s : State) (v : Word) : State :=
  let h := s.ring
  let h1 := { h with ovf := h.ovf && !bit v 62, lsize := if h.en then h.lsize else BitVec.ofNat 4 (field v 32 4) }
  if bit v 63 && !h.en then { s with ring := { h1 with en := true, tail := 0, head := 0 } }.flushRing 256
  else { s with ring := { h1 with en := bit v 63 } }

/-- A write to HEVBASE (R374). -/
def State.writeHevBase (s : State) (v : Word) : State :=
  if s.ring.en then s else { s with ring := { s.ring with base := BitVec.ofNat 52 (field v 6 46 * 64) } }

/-- A write to HEVHEAD: backward, or beyond TAIL, it is ignored (R374). -/
def State.writeHevHead (s : State) (v : Word) : State :=
  let n : BitVec 32 := v.setWidth 32
  if (n - s.ring.head).toInt < 0 || (s.ring.tail - n).toInt < 0 then s
  else { s with ring := { s.ring with head := n } }.flushRing 256

/-! ## Parking (R101, R103, R370) -/

/-- Pre-emption of a RUNNING team is requested (R101, R370). -/
def State.askTeam (s : State) (tid : Nat) (us : Option Nat) (hot : Bool) : State :=
  match assocFind s.teams tid with
  | some t =>
    if t.state = TeamState.running then
      { s.askHarts t us with teams := assocSet s.teams tid { t with state := .parking, hotMove := hot } }
    else s
  | none => s

/-! ## Brown-out entry and the lease registers (R385, R386, R405, R407) -/

/-- Entry: STATE 1, every RUNNING team is asked to park within 500 microseconds, automatic migrations that have not begun
are abandoned (R386); teams that have parked for a swap are noted (R282). -/
def State.enterBrownout (s : State) : State :=
  let s1 := { s with
    power := { s.power with state := 1, entryGts := s.gts, engPark := false }
    mig := { s.mig with reqs := s.mig.reqs.filter (fun r => r.auto.isNone) } }
  let s2 := { s1 with teams := s1.teams.map (fun (t : Nat × Team) => (t.1, { t.2 with
    atEntry := t.2.target.isSome && t.2.state == TeamState.saved || t.2.state == TeamState.parking &&
      (s.cluster t.2.die t.2.cluster).leaving && t.2.ids.all (fun c => (s.getCore c).hart.allParked) })) }
  (s2.teams.map (·.1)).foldl (fun s t => s.askTeam t (some 500) false) s2

/-- Entry begins when a hold is in force in STATE 0 (R385). -/
def State.checkHold (s : State) : State :=
  if (s.power.brn || s.power.hold) && s.power.state == 0 then s.enterBrownout else s

/-- A write to PWRCTL (R385). -/
def State.writePwrctl (s : State) (v : Word) : State :=
  let h := if bit v 0 && !bit v 1 then true else if bit v 1 && !bit v 0 then false else s.power.hold
  { s with power := { s.power with hold := h, lost := s.power.lost && !bit v 16 } }.checkHold

/-- A write to LEASECFG (R407). -/
def Power.writeLease (p : Power) (v : Word) : Power :=
  let f := field v 0 16
  { p with src := BitVec.ofNat 12 (field v 32 12), failsafe := if 300 ≤ f && f ≤ 2000 then BitVec.ofNat 16 f else p.failsafe }

/-! ## Ring slots (R356-R360) -/

/-- A command of a queue that holds it: WAITVER or FENCE (R362). -/
def State.heldQueue (s : State) (q : Nat) : Bool :=
  s.cmds.any (fun c => decide (c.q = q) && (field (dw c.record 0) 0 8 == 3 || field (dw c.record 0) 0 8 == 5))

/-- Stores HEAD to header word 0 of the ring that the queue drained when the store fell due (R357). -/
def State.storeHeader (s : State) (q : Nat) : DrvWrite :=
  let x := s.queue q
  match drvWrite x.dueCtx.toNat (cut16 (sext57 (x.dueBase.setWidth 64)) 8) (bytesOf 8 x.head.toNat) s with
  | .ok s' => .ok (s'.setQueue q (fun x => { x with headerDue := false }))
  | r => r

/-- A header store that is due is made, of a disabled queue too; one that fails sets FLT, one that waits for a migration stays
due (R356, R357, R359). -/
def State.settleHeader (s : State) (q : Nat) : State :=
  let x := s.queue q
  if x.headerDue && !x.flt then
    match s.storeHeader q with
    | .ok s' => s'
    | .fail s' => s'.setQueue q (fun x => { x with flt := true })
    | .stall => s
  else s

/-- The slot at HEAD: a published record, with the state after it was read; a failure; or nothing yet (R359). -/
inductive Slot
  | record (ws : List Word) (s : State)
  | fault (s : State)
  | none

/-- Looks at the slot at HEAD: word 0 first, the others once its SEQ is HEAD (R356, R359, R386). -/
def State.peek (s : State) (q : Nat) : Slot :=
  let x := s.queue q
  if s.mgmt.bootFailed || !x.en || x.flt || (x.tail - x.head).toInt ≤ 0 || s.heldQueue q || s.power.state != 0 then .none
  else
    match (if x.headerDue then s.storeHeader q else .ok s) with
    | .fail s1 => .fault s1
    | .stall => .none
    | .ok s1 =>
      let a := x.slotAddr x.head
      match drvRead x.ctx.toNat (cut16 a 8) [] s1 with
      | .fail s2 => .fault s2
      | .stall => .none
      | .ok bs s2 =>
        if field (dw (wordsOf bs 1) 0) 32 32 ≠ x.head.toNat then .none
        else
          match drvRead x.ctx.toNat (cut16 (a + 8) 56) bs s2 with
          | .fail s3 => .fault s3
          | .stall => .none
          | .ok bs s3 => .record (wordsOf bs 8) s3

/-- QTAIL_WRITE: A write to QTAIL advances TAIL, is ignored as stale, or sets QCFG.ERR when beyond the ring. (R358) -/
def execQtailWrite (q : Nat) (v : Word) (s : State) : Out :=
  .next (s.setQueue q (fun x => x.writeTail v))

/-- QUEUE_ENABLE: Writing QCFG.EN = 1 enables a queue, setting HEAD and TAIL to 0 and storing header word 0. (R356) -/
def execQueueEnable (q : Nat) (s : State) : Out :=
  .next ((s.setQueue q (fun x => if x.en then x else x.enable)).settleHeader q)

/-- QUEUE_DISABLE: Writing QCFG.EN = 0 stops consumption of further records of a queue. (R356) -/
def execQueueDisable (q : Nat) (s : State) : Out :=
  .next (s.setQueue q (fun x => { x with en := false }))

/-- FLT_CLEAR: Writing 1 to QCFG.FLT clears it and the Drover retries the failed ring read or header store. (R359) -/
def execFltClear (q : Nat) (s : State) : Out :=
  .next ((s.setQueue q (fun x => { x with flt := false })).settleHeader q)

/-- HOST_EVENT_RING_ENABLE: Writing HEVCFG.EN = 1 enables the host event ring with TAIL and HEAD at 0. (R374) -/
def execHostEventRingEnable (s : State) : Out :=
  .next
    (if s.ring.en then s else { s with ring := { s.ring with en := true, tail := 0, head := 0 } }.flushRing 256)

/-- HEVHEAD_WRITE: The host frees ring slots by writing HEVHEAD, letting held records enter. (R374) -/
def execHevheadWrite (v : Word) (s : State) : Out :=
  .next (s.writeHevHead v)

/-- HOST_EVENT_RECORD: The Drover writes a host-bound record into the host event ring, holds it, or drops it and sets OVF. (R374) -/
def execHostEventRecord (r : EvRec) (s : State) : Out :=
  .next (if r.typ = 6 || r.typ = 11 || r.typ = 12 then s.postHost r else s)

/-- REGISTER_WRITE: A write through the register window: each register takes its fields as its rule gives, read-only ones keep theirs. (R395) -/
def execRegisterWrite (r : RegName) (v : Word) (s : State) : Out :=
  .next
    (if s.mgmt.bootFailed then s else match r with
     | .qcfg q => (s.setQueue q (fun x => x.writeCfg v)).settleHeader q
     | .qbase q => s.setQueue q (fun x => x.writeBase v)
     | .qtail q => s.setQueue q (fun x => x.writeTail v)
     | .qhead _ => s
     | .hevcfg => s.writeHevCfg v
     | .hevbase => s.writeHevBase v
     | .hevtail => s
     | .hevhead => s.writeHevHead v
     | .pwrctl => s.writePwrctl v
     | .leasecfg => { s with power := s.power.writeLease v }
     | .leasestat => s)

/-- PWRCTL_ENTER: Writing PWRCTL.ENTER sets the host hold that holds the device in brown-out. (R385) -/
def execPwrctlEnter (s : State) : Out :=
  .next (s.writePwrctl 1)

/-- PWRCTL_EXIT: Writing PWRCTL.EXIT clears the host hold. (R385) -/
def execPwrctlExit (s : State) : Out :=
  .next (s.writePwrctl 2)

/-- BRN_N_ASSERT: Assertion of BRN_N holds the device in brown-out. (R385) -/
def execBrnNAssert (s : State) : Out :=
  .next { s with power := { s.power with brn := true } }.checkHold

/-- BRN_N_DEASSERT: Deassertion of BRN_N ends the pin's hold. (R385) -/
def execBrnNDeassert (s : State) : Out :=
  .next { s with power := { s.power with brn := false } }

end Sys2Proof.Machine
end

