-- ==== Sys2Proof/Machine/Bobbin.lean ====
section
/-! DEFINITION. Sys2Proof/Machine/Bobbin.lean: the performance of engine commands: Bobbin (R241-R245) and remote copies (R397-R399). -/

namespace Sys2Proof.Machine

/-! ## Commands of a core (R243-R245, R386) -/

/-- The first command with a ticket for which a condition holds; a command of a saved hart may bear the ticket of one of the
hart that has followed it on its core (R105, R243). -/
def findCmd (l : List EngCmd) (ticket : Nat) (p : EngCmd → Bool) : Option EngCmd :=
  l.find? (fun k => decide (k.ticket.toNat = ticket) && p k)

/-- Two entries stand for one command: they bear its ticket and the hart that issued it. -/
def EngCmd.same (a b : EngCmd) : Bool := a.ticket == b.ticket && a.team == b.team && a.hartid == b.hartid

/-- A list with a command replaced. -/
def putCmd (l : List EngCmd) (k : EngCmd) : List EngCmd := l.map (fun x => if x.same k then k else x)

/-- A list without a command. -/
def dropCmd (l : List EngCmd) (k : EngCmd) : List EngCmd := l.filter (fun x => !x.same k)

/-- Every command of a list before a command has started: commands start in issue order (R244). -/
def mayStart (l : List EngCmd) (k : EngCmd) : Bool := (l.takeWhile (fun x => !x.same k)).all (·.started)

/-- A Bobbin command of a core that has not ended and whose operation is `op`, unless engines are parked or the logic rails are
down (R386); it goes on while its hart is saved (R105, R244). -/
def State.bobCmd (s : State) (c : CoreId) (ticket op : Nat) : Option EngCmd :=
  if s.asleep || s.power.engPark then none
  else findCmd (s.getCore c).bobbin ticket (fun x => !x.ended && bOp x.desc == op)

/-- A command of a core's Bobbin engine replaced. -/
def State.setBobbin (s : State) (c : CoreId) (k : EngCmd) : State :=
  let x := s.getCore c
  s.setCore c { x with bobbin := putCmd x.bobbin k }

/-- Where a part of a command stands: performed, failed with a status at an address (R245), or waiting. -/
inductive BobRes
  | ok (s : State)
  | bad (s : State) (status : Nat) (a : Word)
  | stall

/-- Resolves an address for a command: through the translations of its core, in the context and with the windows of its
hart, behind the lines that commands started before it own (R215, R244, R315). -/
def State.cmdResolve (s : State) (c : CoreId) (k : EngCmd) (phys : Bool) (acc : Access) (a : Word) (align : Nat) :
    Resolved :=
  if phys then
    if a.toNat % align ≠ 0 then .fail .misalign s
    else if physOk s a.toNat then (Resolved.ok (.phys a.toNat) s).behind (some k.stamp) align
    else .fail .perm s
  else (resolveWith s (some k.stamp) c k.ctx (s.cmdWindow c k) (!k.super) acc a align).behind (some k.stamp) align

/-- Reads bytes for an engine command (R244, R245, R350). -/
def bobRead (s : State) (c : CoreId) (k : EngCmd) (phys : Bool) (a : Word) (n align : Nat)
    (f : State → List Byte → BobRes) : BobRes :=
  match s.cmdResolve c k phys .read a align with
  | .fail e s' => .bad s' (faultCode e).toNat a
  | .stall _ => .stall
  | .ok p s' =>
    if s'.poisonedAt p n then .bad s' 5 a else f (s'.touchVec p) (s'.loadAt p n)

/-- Writes bytes for an engine command (R244, R245). -/
def bobWrite (s : State) (c : CoreId) (k : EngCmd) (phys : Bool) (a : Word) (bs : List Byte) (align : Nat) : BobRes :=
  match s.cmdResolve c k phys .write a align with
  | .fail e s' => .bad s' (faultCode e).toNat a
  | .stall _ => .stall
  | .ok p s' => .ok ((s'.touchVec p).storeAt none p bs)

/-- The pieces of a range of addresses that lie in one page of 64 KiB: offset in the range and length. -/
def pagePieces (a : Word) (n : Nat) : List (Nat × Nat) :=
  if n = 0 then []
  else
    let lead := a.toNat % 0x1_0000
    (List.range ((lead + n - 1) / 0x1_0000 + 1)).map (fun i =>
      let lo := 0x1_0000 * i - lead
      (lo, min n (0x1_0000 * (i + 1) - lead) - lo))

/-- A command takes exclusive ownership of its destination lines: no L1 keeps a copy of one (R244, R291, R315). -/
def State.takeLines (s : State) (c : CoreId) (k : EngCmd) (phys : Bool) (r : Word × Nat) : State :=
  (pagePieces r.1 r.2).foldl (fun s x =>
    match s.cmdPlace c k phys (r.1 + word x.1) with
    | some (.phys q) => s.recall none (linesOf q x.2)
    | _ => s) s

/-- A command starts: it is the next one of the package to start, and takes its lines (R244, R315). -/
def EngCmd.start (k : EngCmd) (s : State) : EngCmd := { k with started := true, stamp := s.starts }

/-- How a run over units of a command goes: it ends with a status at an address, or stops with so much complete. -/
inductive BobEnd
  | ended (s : State) (status done : Nat) (a : Word)
  | paused (s : State) (done : Nat)

/-- Performs units of a command in ascending order; a unit that fails ends it, one that waits stops it (R244). Each unit comes
with the count that is complete before it; `next` is the count after the last. -/
def bobLoop (f : Nat → State → BobRes) (next : Nat) : List (Nat × Nat) → State → BobEnd
  | [], s => .paused s next
  | (u, done) :: us, s =>
    match f u s with
    | .ok s' => bobLoop f next us s'
    | .bad s' st a => .ended s' st done a
    | .stall => .paused s done

/-- The units of a command, one for each element. -/
def elemUnits (n : Nat) : List (Nat × Nat) := (List.range n).map (fun e => (e, e))

/-- The units of a command, one for each group of `g` elements. -/
def groupUnits (n g : Nat) : List (Nat × Nat) := (List.range ((n + g - 1) / g)).map (fun q => (q, q * g))

/-- The bytes of its destination that a command has written once `n` bytes or elements are complete (R242). -/
def bWritten (d : List Word) (n : Nat) : Nat :=
  match bOp d with
  | 0 => n
  | 2 => n * ebOf (bWidth d)
  | 3 => planeBytes (n / 64 * 64) (bWidth d) + (if n = bCount d && n % 64 != 0 then 8 * bWidth d else 0)
  | 4 => n * ebOf (bWidth d)
  | 5 => (n + 31) / 32
  | _ => 0

/-- The 16-byte parts that a command has written whole since `n` bytes or elements were complete have lost their poison
(R309, R350). -/
def State.clearWritten (s : State) (c : CoreId) (k : EngCmd) (n : Nat) : State :=
  if s.poison.isEmpty then s
  else
    let spans (n : Nat) : List (Nat × Nat) :=
      (pagePieces (bDest k.desc).1 (bWritten k.desc n)).filterMap (fun x =>
        match s.cmdPlace c k (bPhys k.desc) ((bDest k.desc).1 + word x.1) with
        | some (.phys q) => some (q, x.2)
        | _ => none)
    let before := (s.clearWhole (spans n)).poison
    { s with poison := s.poison.filter (fun q =>
        !before.contains q || (s.clearWhole (spans k.done)).poison.contains q) }

/-- A turn of a command. Its first turn starts it, in its order: with an address that breaks the alignment of R242 it ends at
once. Further turns perform its units in ascending order, as many at a time as is left open (R244, R309), and give up the lines that
are written (R315). -/
def State.bobTurn (s : State) (c : CoreId) (ticket op : Nat) (aligns : List Word → List (Word × Nat))
    (units : List Word → List (Nat × Nat)) (f : EngCmd → Nat → State → BobRes) : State :=
  match s.bobCmd c ticket op with
  | none => s
  | some k =>
    let d := k.desc
    if !k.started then
      if !mayStart (s.getCore c).bobbin k then s
      else
        let k1 := k.start s
        let s1 := { s with starts := s.starts + 1 }
        match (aligns d).find? (fun x => x.1.toNat % x.2 != 0) with
        | some x => s1.setBobbin c { k1 with ended := true, status := 3, faddr := x.1 }
        | none => (s1.takeLines c k1 (bPhys d) (bDest d)).setBobbin c k1
    else
      let rest := (units d).filter (fun u => decide (k.done ≤ u.2))
      let m := 1 + Config.choose s.free % max 1 rest.length
      let next := (((rest.drop m).head?).map (·.2)).getD (bCount d)
      let done0 := k.done
      let put (s : State) (k : EngCmd) : State :=
        let k' := { k with got := [(0, bWritten d k.done)] }
        (s.setBobbin c k').clearWritten c k' done0
      match bobLoop (f k) next (rest.take m) { s with free := s.free + 1 } with
      | .ended s' st done a => put s' { k with ended := true, status := BitVec.ofNat 8 st, done := done, faddr := a }
      | .paused s' done => put s' { k with done := done, ended := decide (done = bCount d) }

/-! ## Slice rows (R242) -/

/-- Writes `w` bits of an element into slice rows at a lane; with MODE.DS = 1 a lane of the primary half takes its mirror
along; bits of bad parity end there (R125, R242, R251). -/
def Hart.sliceElem (h : Hart) (row w lane v : Nat) : Hart :=
  let one := laneSet 0 [lane]
  let m := if h.ds && decide (lane < 8192) then one ||| (one <<< 8192) else one
  { h with
    slice := h.slice.mapFinIdx (fun r p _ =>
      if row ≤ r && r < row + w then (if v.testBit (r - row) then p ||| m else p &&& ~~~m) else p)
    damaged := marksAfter h.damaged ((List.range w).map (fun k => 720 + row + k)) m }

/-- An element in slice rows. -/
def sliceAt (h : Hart) (row w lane : Nat) : Nat := rawAt lane ((h.slice.toList.drop row).take w)

/-- Where a slice row of a saved hart lies (R104). -/
def Hart.savedRow (h : Hart) (row : Nat) : Nat := h.ctxbase + 0x19_C000 + 2048 * row

/-- An element written into the slice of the hart that issued a command, on its core or in the saved image (R242, R244). -/
def State.sliceWrite (s : State) (c : CoreId) (k : EngCmd) (row w lane v : Nat) : State :=
  match s.cmdHart c k with
  | .core d => s.onHart d (fun h => h.sliceElem row w lane v)
  | .saved hs n =>
    match hs[n]? with
    | some h =>
      let one := laneSet 0 [lane]
      let m := if h.ds && decide (lane < 8192) then one ||| (one <<< 8192) else one
      (List.range w).foldl (fun s b =>
        s.putRows m [if v.testBit b then BitVec.allOnes 16384 else 0] (h.savedRow (row + b))) s
    | none => s
  | .gone => s

/-- The lane from which engine data of a lane come: under MODE.DS the primary one (R125). -/
def Hart.primary (h : Hart) (lane : Nat) : Nat := if h.ds then lane % 8192 else lane

/-- An element read from the slice of the hart that issued a command, on its core or in the saved image; nothing where its
data cannot be corrected: a lane row of bad parity, which scores its lane group, or a poisoned part (R125, R244, R245,
R256, R349, R350). -/
def State.sliceRead (s : State) (c : CoreId) (k : EngCmd) (row w lane : Nat) : State × Option Nat :=
  match s.cmdHart c k with
  | .core d =>
    let h := (s.getCore d).hart
    let l := h.primary lane
    if h.damaged.any (fun m => m.2 == l && decide (720 + row ≤ m.1) && decide (m.1 < 720 + row + w)) then
      (s.scoreLane d l 16, none)
    else (s, some (sliceAt h row w l))
  | .saved hs n =>
    match hs[n]? with
    | some h =>
      let l := h.primary lane
      if (s.poisonMarks (List.range w) (h.savedRow row) (laneSet 0 [l])).isEmpty then
        (s, some (rawAt l (s.getRows w (h.savedRow row))))
      else (s, none)
    | none => (s, some 0)
  | .gone => (s, some 0)

/-- The comparison of an element's copies before its bits leave the lanes under MODE.DS: a difference is scored on both lane
groups, and one that is found again fails (R125, R253, R256). Gives whether the bits stand. -/
def State.compareSlice (s : State) (c : CoreId) (k : EngCmd) (lane : Nat) : State × Bool :=
  match s.cmdHart c k with
  | .core d =>
    let x := s.getCore d
    let mine (l : Nat) : Bool := l % 8192 == lane % 8192
    match (if x.hart.ds then x.stitchErrs.find? (fun e => mine e.1) else none) with
    | none => (s, true)
    | some e =>
      let n := 8 * min e.2 2
      let s1 := (s.scoreLane d (lane % 8192) n).scoreLane d (lane % 8192 + 8192) n
      (s1.setCore d { s1.getCore d with stitchErrs := errsLeft x.stitchErrs mine 2 }, decide (e.2 < 2))
  | _ => (s, true)

/-! ## Layouts (R229, R234, R242) -/

/-- The cuts of a copy of `n` bytes at offset `i`, so that no cut crosses a 16-byte part of source or destination (R309,
R350): each with its offset and length. -/
def copyCuts (sa da : Nat) : Nat → Nat → Nat → List (Nat × Nat)
  | 0, _, _ => []
  | _, _, 0 => []
  | fuel + 1, i, n + 1 =>
    let m := min (n + 1) (min (16 - (sa + i) % 16) (16 - (da + i) % 16))
    (i, m) :: copyCuts sa da fuel (i + m) (n + 1 - m)

/-- The number whose bit `i` is bit `b` of element `i`. -/
def planeWord (vs : List Nat) (b : Nat) : Nat :=
  (vs.mapIdx (fun i v => if v.testBit b then 2 ^ i else 0)).foldl (· + ·) 0

/-- The `n` elements of `eb` bytes in a list of bytes, each `w` bits. -/
def elemsOf (bs : List Byte) (eb w n : Nat) : List Nat :=
  (List.range n).map (fun i => ofBytes ((bs.drop (i * eb)).take eb) % 2 ^ w)

/-- The elements of `eb` bytes from element `e` on, one access for each. -/
def readElems (c : CoreId) (k : EngCmd) (base : Word) (eb w : Nat) (f : State → List Nat → BobRes) :
    List Nat → List Nat → State → BobRes
  | [], acc, s => f s acc
  | e :: es, acc, s =>
    bobRead s c k (bPhys k.desc) (base + word (e * eb)) eb eb (fun s bs =>
      readElems c k base eb w f es (acc ++ [ofBytes bs % 2 ^ w]) s)

/-- Writes words one after the other from an address up. -/
def writeWords (c : CoreId) (k : EngCmd) : List Nat → Word → State → BobRes
  | [], _, s => .ok s
  | x :: xs, a, s =>
    match bobWrite s c k (bPhys k.desc) a (bytesOf 8 x) 8 with
    | .ok s' => writeWords c k xs (a + 8) s'
    | r => r

/-- Reads `n` words from an address up. -/
def readWords (c : CoreId) (k : EngCmd) (f : State → List Nat → BobRes) : Nat → Word → List Nat → State → BobRes
  | 0, _, acc, s => f s acc
  | n + 1, a, acc, s =>
    bobRead s c k (bPhys k.desc) a 8 8 (fun s bs => readWords c k f n (a + 8) (acc ++ [ofBytes bs]) s)

/-- COPY: A Bobbin command copies COUNT bytes from SADDR to DADDR. (R242) -/
def execCopy (c : CoreId) (ticket : Nat) (s : State) : Out :=
  .next (s.bobTurn c ticket 0 (fun _ => [])
    (fun d => (copyCuts (bSaddr d).toNat (bDaddr d).toNat (bCount d) 0 (bCount d)).map (fun x => (x.1 * 32 + x.2, x.1)))
    (fun k u s =>
      let d := k.desc
      bobRead s c k (bPhys d) (bSaddr d + word (u / 32)) (u % 32) 1 (fun s bs =>
        bobWrite s c k (bPhys d) (bDaddr d + word (u / 32)) bs 1)))

/-- TOSLICE: A Bobbin command moves elements from word layout into the lane-private slice. (R242) -/
def execToslice (c : CoreId) (ticket : Nat) (s : State) : Out :=
  .next (s.bobTurn c ticket 1 (fun d => [(bSaddr d, ebOf (bWidth d))]) (fun d => elemUnits (bCount d)) (fun k u s =>
    let d := k.desc
    let eb := ebOf (bWidth d)
    bobRead s c k (bPhys d) (bSaddr d + word (u * eb)) eb eb (fun s bs =>
      .ok (s.sliceWrite c k (bRow0 d) (bWidth d) (bLane0 d + u) (ofBytes bs)))))

/-- FROMSLICE: A Bobbin command moves elements from the slice to word layout; copies that differ twice, and data that cannot be
corrected, end it with status 5 (DEDUCED, notes/assumptions/34.md). (R125, R242, R253, R349, R350) -/
def execFromslice (c : CoreId) (ticket : Nat) (s : State) : Out :=
  .next (s.bobTurn c ticket 2 (fun d => [(bDaddr d, ebOf (bWidth d))]) (fun d => elemUnits (bCount d)) (fun k u s =>
    let d := k.desc
    let eb := ebOf (bWidth d)
    let a := bDaddr d + word (u * eb)
    let r := s.compareSlice c k (bLane0 d + u)
    if r.2 then
      match r.1.sliceRead c k (bRow0 d) (bWidth d) (bLane0 d + u) with
      | (s1, some v) => bobWrite s1 c k (bPhys d) a (bytesOf eb v) eb
      | (s1, none) => .bad s1 5 a
    else .bad r.1 5 a))

/-- PLANES: A Bobbin command converts word layout to bit-plane layout. (R242) -/
def execPlanes (c : CoreId) (ticket : Nat) (s : State) : Out :=
  .next (s.bobTurn c ticket 3 (fun d => [(bSaddr d, ebOf (bWidth d)), (bDaddr d, 8)]) (fun d => groupUnits (bCount d) 64)
    (fun k u s =>
      let d := k.desc
      let w := bWidth d
      readElems c k (bSaddr d) (ebOf w) w (fun s vs =>
        writeWords c k ((List.range w).map (planeWord vs)) (bDaddr d + word (8 * w * u)) s)
        ((List.range (min 64 (bCount d - 64 * u))).map (· + 64 * u)) [] s))

/-- UNPLANES: A Bobbin command converts bit-plane layout to word layout. (R242) -/
def execUnplanes (c : CoreId) (ticket : Nat) (s : State) : Out :=
  .next (s.bobTurn c ticket 4 (fun d => [(bSaddr d, 8), (bDaddr d, ebOf (bWidth d))]) (fun d => elemUnits (bCount d))
    (fun k u s =>
      let d := k.desc
      let w := bWidth d
      let eb := ebOf w
      readWords c k (fun s ws =>
        bobWrite s c k (bPhys d) (bDaddr d + word (u * eb)) (bytesOf eb (planeWord ws (u % 64))) eb)
        w (bSaddr d + word (8 * w * (u / 64))) [] s))

/-- The `n` elements of `w` bits that the bytes of an MX block hold (R130). -/
def mxElems (bs : List Byte) (w n : Nat) : List Nat := (List.range n).map (fun i => ofBytes bs / 2 ^ (w * i) % 2 ^ w)

/-- Reads the bytes from an address up in steps of 16 (R229). -/
def readBlock (c : CoreId) (k : EngCmd) (f : State → List Byte → BobRes) : Nat → Nat → Word → List Byte → State → BobRes
  | 0, _, _, acc, s => f s acc
  | fuel + 1, n, a, acc, s =>
    if n = 0 then f s acc
    else
      let m := min n (16 - a.toNat % 16)
      bobRead s c k (bPhys k.desc) a m 1 (fun s bs => readBlock c k f fuel (n - m) (a + word m) (acc ++ bs) s)

/-- MXSPLIT: A Bobbin command splits MX groups into slice element bits and scale bytes. (R242) -/
def execMxsplit (c : CoreId) (ticket : Nat) (s : State) : Out :=
  .next (s.bobTurn c ticket 5 (fun d => [(bSaddr d, 16)]) (fun d => groupUnits (bCount d) 32) (fun k u s =>
    let d := k.desc
    let w := bWidth d
    let size := mxBlockBytes w
    let gb := bSaddr d + word (u / 16 * (16 + 16 * size))
    bobRead s c k (bPhys d) (gb + word (u % 16)) 1 1 (fun s scale =>
      readBlock c k (fun s bs =>
        let vs := mxElems bs w (min 32 (bCount d - 32 * u))
        let s1 := (vs.mapIdx (fun i v => (i, v))).foldl
          (fun s x => s.sliceWrite c k (bRow0 d) w (bLane0 d + 32 * u + x.1) x.2) s
        bobWrite s1 c k (bPhys d) (bScales d + word u) scale 1)
        (size + 1) size (gb + word (16 + u % 16 * size)) [] s)))

/-- The payload of COPY_DONE and XCOPY_DONE (R245). -/
def EngCmd.payload (k : EngCmd) : Word × Word :=
  (word (k.ticket.toNat + k.status.toNat * 2 ^ 16 + k.done % 2 ^ 32 * 2 ^ 32), word (k.faddr.toNat % 2 ^ 57))

/-- The event queue that a command's record goes to has room: that of its hart, or the Drover holds the record for a saved one
(R105, R246). -/
def State.queueRoom (s : State) (c : CoreId) (k : EngCmd) : Bool :=
  match s.cmdHart c k with
  | .core d => decide ((s.getCore d).hart.evq.length < 256)
  | _ => true

/-- A command's completion record, posted at a GTS, goes to the hart that issued it, wherever that is (R105, R247). -/
def State.postDone (s : State) (c : CoreId) (k : EngCmd) (r : EvRec) : State :=
  match s.cmdHart c k with
  | .core d => s.postCore d r
  | .saved _ _ => s.postHart k.team k.hartid c r
  | .gone => s

/-- COPY_DONE: A Bobbin command's writes are performed at system scope and COPY_DONE is posted; while the queue is full the
command stays outstanding, with its record's GTS. (R245, R246) -/
def execCopyDone (c : CoreId) (ticket : Nat) (s : State) : Out :=
  .next (if s.asleep then s else
    (let k := s.getCore c
     match findCmd k.bobbin ticket (·.ended) with
     | some x =>
       let since := x.postedAt.getD s.gts
       if s.queueRoom c x then
         let s1 := s.setCore c { k with bobbin := dropCmd k.bobbin x }
         s1.postDone c x { mkRec s1 1 (coreSource c) x.payload.1 x.payload.2 with gts := since }
       else s.setBobbin c { x with postedAt := some since }
     | none => s))

end Sys2Proof.Machine
end

