-- ==== Sys2Proof/Machine/Xcopy.lean ====
section
/-! DEFINITION. Sys2Proof/Machine/Xcopy.lean: remote copies: the commands of this module's link engines and those of other modules
that it serves (R397-R399). The spec lays out the data flits; what else a flit says is laid out by notes/assumptions/45.md. -/

namespace Sys2Proof.Machine

/-! ## The flits of a command (R399) -/

/-- The number of a core in a flit (DESIGN CHOICE, notes/assumptions/45.md). -/
def coreNum (c : CoreId) : Nat := c.die * 2 ^ 16 + c.cluster * 2 ^ 8 + c.core

/-- The core of a number. -/
def numCore (n : Nat) : CoreId := ⟨n / 2 ^ 16, n / 2 ^ 8 % 2 ^ 8, n % 2 ^ 8⟩

/-- Bytes 0-15 of a flit's payload: an address and the ticket (R399), then what the flit is, an operand of it, and the issuing core
(DESIGN CHOICE, notes/assumptions/45.md). -/
def xcopyHead (a : Word) (ticket : BitVec 16) (what arg core : Nat) : List Byte :=
  bytesOf 8 (a.toNat % 2 ^ 57) ++ bytesOf 2 ticket.toNat ++ bytesOf 1 what ++ bytesOf 1 arg ++ bytesOf 4 core

/-- The payload of a data flit of a PUT: destination address, ticket, data (R399). -/
def putPayload (a : Word) (ticket : BitVec 16) (core : Nat) (data : List Byte) : List Byte := xcopyHead a ticket 0 0 core ++ data

/-- The payload of a data flit of a GET: destination address, ticket, data (R399). -/
def getPayload (a : Word) (ticket : BitVec 16) (core : Nat) (data : List Byte) : List Byte := xcopyHead a ticket 3 0 core ++ data

/-- The payload of the flit that opens a command: operation, remote address, bytes, local address, both contexts (R397, R398). -/
def openPayload (k : EngCmd) (core : Nat) : List Byte :=
  xcopyHead (xRaddr k.desc) k.ticket 1 (xOp k.desc) core ++ bytesOf 8 (xCount k.desc) ++
    bytesOf 8 ((xLaddr k.desc).toNat % 2 ^ 57) ++ bytesOf 2 k.ctx ++ bytesOf 2 (xRctx k.desc).toNat

/-- The payload of the flit by which the remote module ends a command, with status, failing address and bytes done (R398, R399). -/
def endPayload (a : Word) (ticket : BitVec 16) (status core done : Nat) : List Byte :=
  xcopyHead a ticket 2 status core ++ bytesOf 8 done

/-- The payload of the flit that acknowledges the bytes of a PUT performed so far (R399). -/
def ackPayload (ticket : BitVec 16) (core done : Nat) : List Byte := xcopyHead 0 ticket 5 0 core ++ bytesOf 8 done

/-- The payload of the flit by which a command that failed at its own end is given up at the remote module. -/
def abortPayload (ticket : BitVec 16) (core : Nat) : List Byte := xcopyHead 0 ticket 4 0 core

/-- The address, ticket, meaning, operand and core of a flit. -/
def flitAddr (f : Flit) : Word := sext57 (word (flitNum f 0 8 % 2 ^ 57))
def flitTicket (f : Flit) : BitVec 16 := BitVec.ofNat 16 (flitNum f 8 2)
def flitWhat (f : Flit) : Nat := flitNum f 10 1
def flitArg (f : Flit) : Nat := flitNum f 11 1
def flitCore (f : Flit) : Nat := flitNum f 12 4

/-- The data bytes of an XCOPY data flit. -/
def flitData (f : Flit) : List Byte := (f.payload.drop 16).take 224

/-- How far an address lies above another, both of 57 bits. -/
def above (a b : Word) : Nat := (a.toNat % 2 ^ 57 + 2 ^ 57 - b.toNat % 2 ^ 57) % 2 ^ 57

/-! ## Commands of this module (R398, R399) -/

/-- The fabric port that a command takes when it starts: its own, or the route table's for its node; none when that has no
entry (R397, R398). -/
def State.xcopyPort (s : State) (d : List Word) : Option Nat :=
  if xPort d = 15 then s.routeTo (xNode d) else some (xPort d)

/-- The event source of the link engine of a command's port; the host link engine's where there is no route (R347). -/
def xcopySource (k : EngCmd) : BitVec 16 :=
  match k.port with
  | some p => BitVec.ofNat 16 ((10 + p) * 0x1000)
  | none => 0xA000

/-- A remote-copy command of a core that has not ended, with its operation; in brown-out engines are parked at a flit boundary
(R386, R399). -/
def State.xcopyCmd (s : State) (c : CoreId) (ticket op : Nat) : Option EngCmd :=
  if s.power.state != 0 then none
  else findCmd (s.getCore c).xcopy ticket (fun x => !x.ended && xOp x.desc == op)

/-- A command of a core's link engines replaced. -/
def State.setXcopy (s : State) (c : CoreId) (k : EngCmd) : State :=
  let x := s.getCore c
  s.setCore c { x with xcopy := putCmd x.xcopy k }

/-- A flit for a port whose link is up waits while the replay buffer is full (R392). -/
def State.portFull (s : State) (p : Option Nat) : Bool :=
  match p with
  | some p => (s.link p).width != .down && !(s.link p).ready
  | none => false

/-- A flit for a node through a port, if there is one; no flit reaches the multicast node as a remote (R390, R394). -/
def State.sendPort (s : State) (p : Option Nat) (n : BitVec 12) (payload : List Byte) : State :=
  match p with
  | some p => if n = multicast then s else s.sendOn p n 2 payload
  | none => s

/-- A remote-copy command starts, in its order: it takes its lines and its port, and opens at the remote module (R244, R315, R398,
R399). -/
def State.xcopyStart (s : State) (c : CoreId) (k : EngCmd) : State :=
  let p := s.xcopyPort k.desc
  if !mayStart (s.getCore c).xcopy k || s.portFull p then s
  else
    let k1 := { k.start s with port := p, downSince := some s.gts }
    (({ s with starts := s.starts + 1 }.takeLines c k1 (xPhys k.desc) (xDest k.desc)).setXcopy c k1).sendPort p
      (xNode k.desc) (openPayload k (coreNum c))

/-- The command ends with a status and an address (R398, R399). -/
def EngCmd.stop (k : EngCmd) (status : Nat) (a : Word) : EngCmd :=
  { k with ended := true, status := BitVec.ofNat 8 status, faddr := a }

/-- The command ends with a failure at this end, and is given up at the other (R398, R399). -/
def State.xcopyFails (s : State) (c : CoreId) (k : EngCmd) (status : Nat) (a : Word) : State :=
  (s.setXcopy c (k.stop status a)).sendPort k.port (xNode k.desc) (abortPayload k.ticket (coreNum c))

/-- The bytes of a flit of a PUT, read in parts of 16 (R309, R399). -/
def xcopyRead (s : State) (c : CoreId) (k : EngCmd) (a : Word) : Nat → List Byte → (State → List Byte → BobRes) → BobRes
  | 0, acc, f => f s acc
  | n + 1, acc, f =>
    bobRead s c k (xPhys k.desc) a 16 16 (fun s bs => xcopyRead s c k (a + 16) n (acc ++ bs) f)

/-- XCOPY_PUT: A link engine starts a PUT command, then sends its next data flit, if its link can take it. (R399) -/
def execXcopyPut (c : CoreId) (ticket : Nat) (s : State) : Out :=
  .next (if s.asleep then s else
    (match s.xcopyCmd c ticket 0 with
     | none => s
     | some k =>
       let d := k.desc
       if !k.started then s.xcopyStart c k
       else
         match k.port with
         | none => s
         | some p =>
           if !(s.link p).ready || decide (xCount d ≤ k.sent) then s
           else
             let n := min 224 (xCount d - k.sent)
             match xcopyRead s c k (xLaddr d + word k.sent) (n / 16) [] (fun s bs =>
               .ok ((s.sendPort (some p) (xNode d)
                 (putPayload (xRaddr d + word k.sent) k.ticket (coreNum c) bs)).setXcopy c { k with sent := k.sent + n })) with
             | .ok s' => s'
             | .bad s' st a => s'.xcopyFails c k st a
             | .stall => s))

/-- A started command of this module that a flit belongs to, with its core. -/
def State.xcopyOf (s : State) (f : Flit) (op : Nat) : Option (CoreId × EngCmd) :=
  let c := numCore (flitCore f)
  ((s.getCore c).xcopy.find? (fun k => k.started && !k.ended && k.ticket == flitTicket f && decide (xOp k.desc = op))).map
    (fun k => (c, k))

/-- Writes parts of 16 bytes for a GET (R309, R399). -/
def writeParts (c : CoreId) (k : EngCmd) : Nat → List Byte → Word → State → BobRes
  | 0, _, _, s => .ok s
  | n + 1, bs, a, s =>
    match bobWrite s c k (xPhys k.desc) a (bs.take 16) 16 with
    | .ok s' => writeParts c k n (bs.drop 16) (a + 16) s'
    | r => r

/-- A data flit of a GET arrives: its parts within the destination are written, and their lines given up; with the last of them the
command is done (R315, R399). -/
def getArrives (s : State) (f : Flit) (c : CoreId) (k : EngCmd) : Option State :=
  let off := above (flitAddr f) (xLaddr k.desc)
  let data := (flitData f).take (xCount k.desc - off)
  match writeParts c k (data.length / 16) data (xLaddr k.desc + word off) s with
  | .ok s' =>
    let done := k.done + data.length
    some (s'.setXcopy c { k with ended := decide (xCount k.desc ≤ done), done := done, got := k.got ++ [(off, data.length)] })
  | .bad s' st a => some (s'.xcopyFails c k st a)
  | .stall => none

/-! ## Commands of other modules (R398, R399) -/

/-- The command of another module that a flit belongs to. -/
def State.remoteOf (s : State) (node : BitVec 12) (core : Nat) (ticket : BitVec 16) : Option Remote :=
  s.remotes.find? (fun r => r.node == node && decide (r.core = core) && r.ticket == ticket)

/-- The same command. -/
def Remote.same (r x : Remote) : Bool := r.node == x.node && decide (r.core = x.core) && r.ticket == x.ticket

/-- A remote command with what is done. -/
def State.setRemote (s : State) (r : Remote) : State := { s with remotes := s.remotes.map (fun x => if r.same x then r else x) }

/-- A remote command is over here. -/
def State.dropRemote (s : State) (r : Remote) : State := { s with remotes := s.remotes.filter (fun x => !r.same x) }

/-- A remote command ends with a status and an address, which its issuer is told (R398, R399). -/
def State.endRemote (s : State) (r : Remote) (status : Nat) (a : Word) : State :=
  (s.dropRemote r).sendPort (s.routeTo r.node) r.node (endPayload a r.ticket status r.core r.done)

/-- Resolves an address of a remote command in its context, with user rights, behind the lines that commands started before it own
(R294, R315, R398). -/
def State.remoteResolve (s : State) (r : Remote) (acc : Access) (a : Word) : Resolved :=
  if !canonical a || windowBase ≤ a.toNat then .fail .xlate s
  else
    match s.xlate (some r.stamp) [] 0 r.ctx true acc a with
    | .ok pa _ s' => (Resolved.ok (.phys pa) s').behind (some r.stamp) 16
    | .fail e s' => .fail e s'
    | .stall s' => .stall s'

/-- Writes parts of 16 bytes of a remote module's PUT (R309, R398). -/
def putParts (r : Remote) : Nat → List Byte → Word → State → BobRes
  | 0, _, _, s => .ok s
  | n + 1, bs, a, s =>
    match s.remoteResolve r .write a with
    | .ok p s' => putParts r n (bs.drop 16) (a + 16) ((s'.touchVec p).storeAt none p (bs.take 16))
    | .fail e s' => .bad s' (faultCode e).toNat a
    | .stall _ => .stall

/-- Reads parts of 16 bytes for a remote module's GET (R309, R350, R398). -/
def getParts (r : Remote) : Nat → List Byte → Word → State → (State → List Byte → BobRes) → BobRes
  | 0, acc, _, s, f => f s acc
  | n + 1, acc, a, s, f =>
    match s.remoteResolve r .read a with
    | .ok p s' =>
      if s'.poisonedAt p 16 then .bad s' 5 a else getParts r n (acc ++ s'.loadAt p 16) (a + 16) (s'.touchVec p) f
    | .fail e s' => .bad s' (faultCode e).toNat a
    | .stall _ => .stall

/-- A remote command takes exclusive ownership of its destination lines from its start (R315, R399). -/
def State.takeRemote (s : State) (r : Remote) : State :=
  if r.get then s
  else
    (pagePieces r.addr r.count).foldl (fun s x =>
      match s.ctxPlace r.ctx (r.addr + word x.1) with
      | some (.phys q) => s.recall none (linesOf q x.2)
      | _ => s) s

/-- The command that an opening flit asks for. -/
def remoteAsked (s : State) (f : Flit) : Remote :=
  { node := f.snode, core := flitCore f, ticket := flitTicket f, get := flitArg f == 1, ctx := flitNum f 34 2
    addr := flitAddr f, back := sext57 (word (flitNum f 24 8 % 2 ^ 57)), count := flitNum f 16 8
    since := s.gts, stamp := s.starts }

/-- A command of another module opens here, or is refused with status 6: the access table must hold the pair of its node and context
with the context that it names (R398). -/
def State.openRemote (s : State) (f : Flit) : State :=
  let r := remoteAsked s f
  if s.mgmt.access.contains (f.snode, BitVec.ofNat 16 (flitNum f 32 2), BitVec.ofNat 16 r.ctx) then
    { s with starts := s.starts + 1, remotes := s.remotes ++ [r] }.takeRemote r
  else s.endRemote r 6 0

/-- A data flit of a remote PUT arrives: its parts are written, and their lines given up; with the last of them, or one that fails,
the command ends (R309, R315, R398, R399). -/
def putArrives (s : State) (f : Flit) (r : Remote) : Option State :=
  let off := above (flitAddr f) r.addr
  let data := (flitData f).take (r.count - off)
  match putParts r (data.length / 16) data (r.addr + word off) s with
  | .ok s' =>
    let r1 := { r with done := r.done + data.length, got := r.got ++ [(off, data.length)] }
    some (if r.count ≤ r1.done then s'.endRemote r1 0 0
      else (s'.setRemote r1).sendPort (s'.routeTo r.node) r.node (ackPayload r.ticket r.core r1.done))
  | .bad s' st a => some (s'.endRemote r st a)
  | .stall => none

/-- The next data flit of a remote GET goes out (R309, R399). -/
def State.serveGet (s : State) (r : Remote) : State :=
  match s.routeTo r.node with
  | none => s
  | some p =>
    if !(s.link p).ready then s
    else
      let n := min 224 (r.count - r.done)
      let r1 := { r with done := r.done + n }
      match getParts r (n / 16) [] (r.addr + word r.done) s (fun s bs =>
        .ok ((if r.count ≤ r1.done then s.dropRemote r else s.setRemote r1).sendPort (some p) r.node
          (getPayload (r.back + word r.done) r.ticket r.core bs))) with
      | .ok s' => s'
      | .bad s' st a => s'.endRemote r st a
      | .stall => s

/-- XCOPY_GET: A link engine starts a GET command, whose data come in flits of the remote module; or it sends the next data flit of a
GET that another module has started. (R399) -/
def execXcopyGet (c : CoreId) (ticket : Nat) (s : State) : Out :=
  .next (if s.asleep then s else
    (match s.xcopyCmd c ticket 1 with
     | none => s
     | some k => if k.started then s else s.xcopyStart c k))

/-- A GET of another module's core goes on here (R399). -/
def State.remoteGet (s : State) (n : BitVec 12) (c : CoreId) (ticket : Nat) : State :=
  match s.remoteOf n (coreNum c) (BitVec.ofNat 16 ticket) with
  | some r => if !s.asleep && r.get && s.power.state == 0 then s.serveGet r else s
  | none => s

/-- What an XCOPY flit for this module does; none while it must wait for an owned line, a migration or a full replay buffer. -/
def State.xcopyFlit (s : State) (f : Flit) : Option State :=
  if flitWhat f = 2 then
    some (match s.xcopyOf f 0, s.xcopyOf f 1 with
      | some (c, k), _ => s.setXcopy c ({ k with done := flitNum f 16 8 }.stop (flitArg f) (flitAddr f))
      | none, some (c, k) => s.setXcopy c (k.stop (flitArg f) (flitAddr f))
      | none, none => s)
  else if flitWhat f = 5 then
    some (match s.xcopyOf f 0 with
      | some (c, k) => s.setXcopy c { k with done := flitNum f 16 8 }
      | none => s)
  else if flitWhat f = 3 then
    match s.xcopyOf f 1 with
    | some (c, k) => getArrives s f c k
    | none => some s
  else if s.portFull (s.routeTo f.snode) then none
  else if flitWhat f = 1 then some (s.openRemote f)
  else
    match s.remoteOf f.snode (flitCore f) (flitTicket f) with
    | some r => if flitWhat f = 4 then some (s.dropRemote r) else if r.get then some s else putArrives s f r
    | none => some s

/-- XCOPY_DATA_FLIT: An XCOPY flit arrives and its parts are written to the destination, or the command that it names opens or ends.
(R399) -/
def execXcopyDataFlit (f : Flit) (s : State) : Out :=
  .next (if s.asleep || f.kind ≠ 2 then s else
    (match s.takeFlit f with
     | none => s
     | some s1 => if s.mine f then (s1.xcopyFlit f).getD s else s1))

/-! ## The end of a command (R399) -/

/-- XCOPY_DONE: Every destination byte is performed and acknowledged, and XCOPY_DONE is posted; the record, stamped when it is
posted, reaches the core some time later, which a further turn of the event is (DESIGN CHOICE, notes/assumptions/35.md). The event
names the status and the address that the record carries. (R348, R399) -/
def execXcopyDone (c : CoreId) (ticket : Nat) (status : BitVec 8) (addr : Word) (s : State) : Out :=
  .next (if s.asleep then s else
    (let k := s.getCore c
     match findCmd k.xcopy ticket (fun x => x.ended && x.status == status && x.faddr == addr) with
     | some x =>
       match x.postedAt with
       | none => s.setXcopy c { x with postedAt := some s.gts }
       | some t =>
         let s1 := s.setCore c { k with xcopy := dropCmd k.xcopy x }
         s1.postDone c x { mkRec s1 4 (xcopySource x) x.payload.1 x.payload.2 with gts := t }
     | none => s))

/-- Since when no flit can have reached a node through a port, for what began at a GTS: the link is down, the fabric behind it does
not reach the node, or there is no port; a link whose peer is in standby is not down (R394, R399). -/
def State.pathDownSince (s : State) (port : Option Nat) (n : BitVec 12) (start : Nat) : Option Nat :=
  match port with
  | none => some start
  | some p =>
    let l := s.link p
    if l.width == .down then some (max start (l.downSince.getD start))
    else if l.standby then none
    else if n = multicast then some start
    else (assocFind l.cut n).map (max start)

/-- 100 ms have passed since a GTS, if there is one (R399). -/
def State.pathOver (s : State) (since : Option Nat) : Bool :=
  match since with
  | some t => decide (t + 100000000 ≤ s.gts)
  | none => false

/-- XCOPY_PATH_TIMEOUT: A path down or unreachable for 100 ms ends the XCOPY with status 7. (R399) -/
def execXcopyPathTimeout (c : CoreId) (ticket : Nat) (s : State) : Out :=
  .next (if s.asleep then s else
    (match findCmd (s.getCore c).xcopy ticket (fun k => k.started && !k.ended) with
     | some k =>
       if s.pathOver (s.pathDownSince k.port (xNode k.desc) (k.downSince.getD s.gts)) then s.setXcopy c (k.stop 7 0) else s
     | none => s))

/-- A command of another module's core ends here as well once no flit has reached that module for 100 ms (R399). -/
def State.remotePath (s : State) (n : BitVec 12) (c : CoreId) (ticket : Nat) : State :=
  match s.remoteOf n (coreNum c) (BitVec.ofNat 16 ticket) with
  | some r => if !s.asleep && s.pathOver (s.pathDownSince (s.routeTo n) n r.since) then s.dropRemote r else s
  | none => s

end Sys2Proof.Machine
end

