-- ==== Sys2Proof/Machine/Place.lean ====
section
/-! DEFINITION. Sys2Proof/Machine/Place.lean: teams: the service order, placement, saving, restoring, and pre-emption (R104, R105, R353, R354, R361, R366-R373). -/

namespace Sys2Proof.Machine

/-! ## Save areas (R354) -/

/-- A context save area, a register backing area, a tile save area. -/
def saveSize : Nat := 0x22_0000
def backSize : Nat := 0x23_0000
def tileSize : Nat := 0x2_0000

/-- The sizes of a team's areas: two for each hart, one for the team. -/
def areaSizes (n : Nat) : List Nat := (List.range n).flatMap (fun _ => [saveSize, backSize]) ++ [tileSize]

/-- The lowest place in a pool for an area, from a position on. -/
def firstFit (used : List (Nat × Nat)) (limit size : Nat) : Nat → Nat → Option Nat
  | 0, _ => none
  | fuel + 1, pos =>
    if limit < pos + size then none
    else
      match used.find? (fun u => decide (u.1 < pos + size) && decide (pos < u.1 + u.2)) with
      | none => some pos
      | some u => firstFit used limit size fuel (u.1 + u.2)

/-- Carves areas out of a pool, one after the other. -/
def carve (base limit : Nat) (used : List (Nat × Nat)) : List Nat → Option (List (Nat × Nat))
  | [] => some []
  | n :: ns =>
    match firstFit used limit n (used.length + 1) base with
    | none => none
    | some p => (carve base limit (used ++ [(p, n)]) ns).map (fun r => (p, n) :: r)

/-- POOL of a context descriptor. -/
def Context.base (x : Context) : Nat := field (dw x.desc 3) 16 36 * 2 ^ 16

/-- The areas for a team of `n` harts of a context, if they fit (R354). -/
def State.areasFor (s : State) (ctx n : Nat) : Option (List (Nat × Nat)) :=
  match s.ctxs.find? (fun x => decide (x.num = ctx)) with
  | some x => carve x.base (x.base + field (dw x.desc 4) 0 40) x.pool (areaSizes n)
  | none => none

/-! ## Cores and clusters (R257, R281, R367) -/

/-- A hart's threads. -/
def Hart.threads (h : Hart) : List Thread := h.a :: h.e :: h.mts.toList.map (·.thr)

/-- No posted reduction of a hart is left to perform. -/
def Hart.postsDone (h : Hart) : Bool := h.threads.all (fun t => t.posted.isEmpty)

/-- The free cores of a cluster: without a hart, and without posted reductions of the hart that was there last. -/
def State.freeCores (s : State) (d c : Nat) : List Nat :=
  (List.range 8).filter (fun k => let x := s.getCore ⟨d, c, k⟩; !x.resident && x.hart.postsDone)

/-- The cluster is kept for the teams that a swap brings, so that each is restored there as soon as it has parked (R280; DESIGN
CHOICE, notes/assumptions/39.md). -/
def State.reserved (s : State) (d c : Nat) : Bool :=
  (match (s.die d).swap with | some w => w.inn == some c | none => false) ||
    s.teams.any (fun t => t.2.state == .saved && t.2.target == some (d, c))

/-- Teams may stand on the cluster: VISIBLE, not leaving, not suspect (R278, R280, R281). -/
def State.usable (s : State) (d c : Nat) : Bool := (s.cluster d c).role == .visible && !s.shunned d c

/-- A team stands on cores. -/
def Team.onCores (t : Team) : Bool := t.state == .running || t.state == .parking

/-- The teams on a cluster. -/
def State.teamsOn (s : State) (d c : Nat) : List (Nat × Team) :=
  s.teams.filter (fun t => t.2.onCores && decide (t.2.die = d) && decide (t.2.cluster = c))

/-- The launch of a team. -/
def State.launchOf (s : State) (t : Team) : Option Launch := assocFind s.launches t.launch

/-- TSLOT and EXCL of a team. -/
def State.tslotOf (s : State) (t : Team) : Nat := match s.launchOf t with | some l => l.tslot | none => 0
def State.exclOf (s : State) (t : Team) : Bool := match s.launchOf t with | some l => l.excl | none => false

/-- The slots that a team takes up on a cluster: those it has in use, at least its TSLOT. -/
def State.slotsOf (s : State) (d c : Nat) (t : Nat × Team) : Nat :=
  max (s.tslotOf t.2)
    ((s.cluster d c).slots.toList.filter (fun x => x.state != .free && decide (x.team = t.1))).length

/-- Some teams leave room on a cluster for a team of a context, with slots and EXCL respected (R367, R371). -/
def State.roomWith (s : State) (d c : Nat) (ts : List (Nat × Team)) (tslot ctx : Nat) (excl : Bool) : Bool :=
  decide (ts.foldl (fun acc t => acc + s.slotsOf d c t) 0 + tslot ≤ 64) &&
    ts.all (fun t => decide (t.2.ctx = ctx) || !(excl || s.exclOf t.2))

/-- A cluster has room for a team of `n` harts (R367). -/
def State.fits (s : State) (d c n tslot ctx : Nat) (excl : Bool) : Bool :=
  s.usable d c && decide (n ≤ (s.freeCores d c).length) && s.roomWith d c (s.teamsOn d c) tslot ctx excl

/-- A cluster can take a team of `n` harts that no swap gives it (R280, R367). -/
def State.takes (s : State) (d c n tslot ctx : Nat) (excl : Bool) : Bool :=
  !s.reserved d c && s.fits d c n tslot ctx excl

/-- Every cluster of the package, in ascending order. -/
def allClusters : List (Nat × Nat) := (List.range 8).flatMap (fun d => (List.range 66).map (fun c => (d, c)))

/-- The coolest of some clusters, ties to the lower die and cluster (R367). -/
def State.coolest (s : State) : List (Nat × Nat) → Option (Nat × Nat)
  | [] => none
  | x :: r =>
    match s.coolest r with
    | none => some x
    | some y => if (s.cluster y.1 y.2).temp < (s.cluster x.1 x.2).temp then some y else some x

/-! ## Wishes for dispatches (R361, R367, R372) -/

/-- The launch wants a further team (R367). -/
def State.wants (s : State) (id : Nat) (l : Launch) : Bool :=
  l.more && (l.maxTeams == 0 ||
    decide ((s.teams.filter (fun t => decide (t.2.launch = id) && t.2.state != .released)).length < l.maxTeams))

/-- Where a launch's next team goes (R367). -/
def State.placeFor (s : State) (l : Launch) : Option (Nat × Nat) :=
  s.coolest (allClusters.filter (fun x => s.takes x.1 x.2 l.teamSize l.tslot l.ctx l.excl))

/-- A saved team fits on a cluster: cores, slots, and the slot numbers of its parked tasks free (R267, R372). -/
def State.canResume (s : State) (t : Team) (d c : Nat) : Bool :=
  (if t.target = some (d, c) then s.fits d c t.cores.length (s.tslotOf t) t.ctx (s.exclOf t)
    else s.takes d c t.cores.length (s.tslotOf t) t.ctx (s.exclOf t)) &&
    t.slots.all (fun x => (s.slot d c x.1).state == .free)

/-- The clusters where a saved team may resume: the one that its swap gives it while that is VISIBLE (R280), the coolest
for a hot-spot move (R373), else any. -/
def State.resumeOn (s : State) (t : Team) : List (Nat × Nat) :=
  let all := allClusters.filter (fun x => s.canResume t x.1 x.2)
  match t.target with
  | some g => if (s.cluster g.1 g.2).role == .visible then all.filter (· == g) else all
  | none => if t.hotMove then (s.coolest all).toList else all

/-- A dispatch of the Drover (R361). -/
inductive Dispatch
  | restore (team : Nat)
  | start (q : Nat)
  | place (launch : Nat)
  deriving DecidableEq, Repr

/-- The saved team of a queue that has been parked longest and can resume. -/
def State.nextResume (s : State) (q : Nat) : Option (Nat × Team) :=
  (s.teams.filter (fun t => t.2.state == .saved && decide (t.2.q = q) && !(s.resumeOn t.2).isEmpty)).foldl
    (fun best t =>
      match best with
      | none => some t
      | some b => if t.2.parkedAt < b.2.parkedAt then some t else some b) none

/-- The next dispatch of a queue and its cost (R361). -/
def State.readyOf (s : State) (q : Nat) : Option (Dispatch × Nat) :=
  if s.power.state != 0 then none
  else
    match s.nextResume q with
    | some t => some (.restore t.1, t.2.cores.length)
    | none =>
      match s.peek q with
      | .record _ _ => some (.start q, 1)
      | _ =>
        (s.launches.find? (fun l => decide (l.2.q = q) && s.wants l.1 l.2 && (s.placeFor l.2).isSome &&
          (s.areasFor l.2.ctx l.2.teamSize).isSome)).map (fun l => (.place l.1, l.2.teamSize))

/-- The queue of a level that was served last (R361). -/
def State.lastServed (s : State) (level : Nat) : Nat := s.served.toList.getD level 63

/-- The queues of a level have been served up to a queue; the other levels stand where they are (R361). -/
def State.serveUpTo (s : State) (level q : Nat) : State :=
  { s with served := if h : level < 8 then s.served.set level q else s.served }

/-- The round over the queues of a level from the queue after the one last served there (R361). -/
def State.round (level : Nat) (rd : List (Option (Dispatch × Nat))) : Nat → State → Option (Dispatch × State)
  | 0, _ => none
  | fuel + 1, s =>
    let q := (s.lastServed level + 1) % 64
    let s1 := s.serveUpTo level q
    match rd.getD q none with
    | none => State.round level rd fuel s1
    | some (d, cost) =>
      if (s.queue q).prio.toNat ≠ level then State.round level rd fuel s1
      else
        let n := (s.queue q).deficit + (s.queue q).quantum.toNat
        if cost ≤ n then some (d, s1.setQueue q (fun x => { x with deficit := n - cost }))
        else State.round level rd fuel (s1.setQueue q (fun x => { x with deficit := n }))

/-- The dispatch that the service order takes next, with the deficits as it leaves them: a queue with nothing ready has
none (R361). -/
def State.select (s : State) : Option (Dispatch × State) :=
  let rd := (List.range 64).map (fun q => s.readyOf q)
  let level := (List.range 64).foldl
    (fun acc q => if (rd.getD q none).isSome then max acc (s.queue q).prio.toNat else acc) 0
  let s0 := { s with queues := s.queues.mapFinIdx (fun q x _ =>
    if (rd.getD q none).isSome then x else { x with deficit := 0 }) }
  let q := s.lastServed level
  match rd.getD q none with
  | some (d, cost) =>
    if (s.queue q).prio.toNat = level ∧ cost ≤ (s.queue q).deficit then
      some (d, s0.setQueue q (fun x => { x with deficit := x.deficit - cost }))
    else s0.round level rd 640
  | none => s0.round level rd 640

/-! ## Placement (R353, R354, R366, R367) -/

/-- The logical core numbers in use in a context: those of teams that are placed, parked or saved, a failed one among them
(R367, R370). -/
def State.corelids (s : State) (ctx : Nat) : List Nat :=
  ((s.cores.filter (fun p => p.2.resident && decide (p.2.hart.ctx = ctx))).map (fun p => p.2.hart.corelid)) ++
    (s.teams.filter (fun t => (t.2.state == .saved || t.2.state == .failed) && decide (t.2.ctx = ctx))).flatMap
      (fun t => t.2.saved.map (·.corelid))

/-- The `n` lowest numbers that are not used. -/
def freshIds (used : List Nat) (n : Nat) : List Nat :=
  ((List.range (used.length + n)).filter (fun i => !used.contains i)).take n

/-- A hart as placed (R14, R27, R98, R218, R353, R367). -/
def newHart (tid ctx teamid n hartid corelid : Nat) (tvec : Word) (areas : List (Nat × Nat)) : Hart :=
  { team := tid, ctx := ctx, hartid := hartid, teamid := teamid, teamsize := n, corelid := corelid
    a := { tvec := tvec }, e := { tvec := tvec }
    ctxbase := (areas.getD (2 * hartid) (0, 0)).1
    area := (areas.getD (2 * hartid) (0, 0)).1
    backing := (areas.getD (2 * hartid + 1) (0, 0)).1
    tilesave := (areas.getD (2 * n) (0, 0)).1 }

/-- TVEC as a context descriptor gives it (R353). -/
def Context.tvec (x : Context) : Word := dw x.desc 5 &&& 0x81FF_FFFF_FFFF_FFFC#64

/-- Places a new team of a launch on a cluster, and hands out iterations (R354, R366, R367). -/
def State.placeTeam (s : State) (id : Nat) (l : Launch) (d c : Nat) (areas : List (Nat × Nat)) : State :=
  let n := l.teamSize
  let tid := s.nextId + 1
  let cores := (s.freeCores d c).take n
  let tvec := match s.ctxs.find? (fun x => decide (x.num = l.ctx)) with | some x => x.tvec | none => 0
  let lids := freshIds (s.corelids l.ctx) n
  let s1 := (cores.mapIdx (fun i k => (i, k))).foldl (fun s p =>
    let id : CoreId := ⟨d, c, p.2⟩
    s.setCore id { s.getCore id with
      resident := true, hart := newHart tid l.ctx l.nextTeam n p.1 (lids.getD p.1 0) tvec areas }) s
  let t : Team :=
    { launch := id, ctx := l.ctx, teamid := l.nextTeam, prio := (s.queue l.q).prio, q := l.q, die := d, cluster := c
      cores := cores, areas := areas, placeOrder := s.nextId }
  let s2 := { s1 with
    nextId := s.nextId + 1
    teams := s1.teams ++ [(tid, t)]
    ctxs := s1.ctxs.map (fun (x : Context) => if x.num = l.ctx then { x with pool := x.pool ++ areas } else x)
    launches := assocSet s1.launches id
      { l with placed := true, nextTeam := l.nextTeam + 1, readySince := some s.gts } }
  s2.handOut id (s2.farm id)

/-- TEAM_PLACE: The Drover places a new team of a live launch on the coolest suitable cluster. (R367) -/
def execTeamPlace (launch : Nat) (s : State) : Out :=
  .next
    (match s.select, assocFind s.launches launch with
     | some (.place id, s1), some l =>
       if id = launch then
         match s.placeFor l, s.areasFor l.ctx l.teamSize with
         | some (d, c), some areas => s1.placeTeam launch l d c areas
         | _, _ => s
       else s
     | _, _ => s)

/-! ## Saving (R20, R104, R105, R240, R322, R354, R370) -/

/-- A thread whose performed accesses have delivered their values; the fills that remain are withdrawn and re-issued at
restore (R20). -/
def Thread.settle (t : Thread) : Thread :=
  t.fills.foldl (fun t f =>
    match f.src with
    | .value ws => t.complete f ws
    | _ => t) t.endWait

/-- A thread has a sync update that is performed at its home and not yet at every mirror. -/
def Thread.syncOpen (t : Thread) : Bool :=
  t.fills.any (fun f =>
    match f.src with
    | .sync _ _ _ => true
    | _ => false) || t.syncWait.isSome

/-- The hart of a core can be saved: every sequencer has parked, no sync update is on its way, posted reductions are performed, and
the engine commands that its sequencers issued have started (R20, R101, R322, R345; the last is a DESIGN CHOICE,
notes/assumptions/30.md). -/
def Core.savable (k : Core) : Bool :=
  k.hart.allParked && k.hart.postsDone && k.hart.threads.all (fun t => !t.syncOpen) && k.bobbin.all (·.started) &&
    k.xcopy.all (·.started)

/-- A hart as its save leaves it: values delivered, prefetched elements discarded (R20, R240). -/
def Hart.settle (h : Hart) : Hart :=
  { h with
    a := h.a.settle, e := h.e.settle
    mts := h.mts.map (fun m => { m with thr := m.thr.settle })
    spools := h.spools.map (fun p => { p with buf := [] })
    park := none }

/-- Bytes filled up to a length with zeros. -/
def padTo (n : Nat) (bs : List Byte) : List Byte := (bs ++ List.replicate (n - bs.length) 0).take n

/-- The return-stack entries that lie in a scratchpad's spill areas: offset in the image and words; micro-thread `k` of `n` has the
range from entry k·1,024/n on (R22, R23, R104; notes/assumptions/28.md). -/
def Hart.spilled (h : Hart) : List (Nat × List Word) :=
  (0x2_C000, spilledRets h.a.rets) ::
    (if h.split = 0 then [(0x2_E000, spilledRets h.e.rets)]
     else (List.range h.split).map (fun k =>
       (0x2_E000 + 8 * (k * (1024 / h.split)), (((h.mts.toList.getD k {}).thr.rets).drop (16 / h.split)).reverse)))

/-- The row of p0: j < VL for the elements of E or of each micro-thread (R116). -/
def Hart.rowZero (h : Hart) : Plane :=
  h.laneThreads.foldl (fun acc w =>
    acc ||| mirrored h (laneSet (laneBase h w) (List.range (h.est w).vl))) 0

/-- A spool's part of the image: the copied descriptor, then P, the fault code and whether it is bound, in words of which the spec
does not give the places (R104, R240; DESIGN CHOICE, notes/assumptions/15.md). -/
def Spool.image (p : Spool) : List Byte :=
  padTo 64 (p.desc.flatMap (fun w => bytesOf 8 w.toNat)) ++ bytesOf 8 p.pos ++ bytesOf 8 p.code.toNat ++
    bytesOf 8 p.bound.toNat

/-- The parts of a saved image whose layout R104 fixes: offset and bytes. -/
def Hart.image (h : Hart) : List (Nat × List Byte) :=
  let nodes := (List.finRange 4).flatMap (fun t =>
    h.trees[t].flatMap (fun n => bytesOf 8 (n.word (BitVec.ofNat 2 t.val)).toNat))
  let events := (h.evq.foldl (fun acc i => insertRec i.record acc) []).flatMap recBytes
  [(0x0_2000, padTo 0x2000 nodes), (0x0_4000, padTo 0x2000 events), (0x0_6000, h.scales.toList.flatMap id),
    (0x0_8000, rowBytes h.seam)] ++
  h.spools.toList.mapIdx (fun n p => (0x0_8800 + 128 * n, p.image)) ++
  (List.range (max 1 h.split)).map (fun k => (0x0_9000 + 2048 * k + 34 * 48, List.replicate (2048 - 34 * 48) 0)) ++
  [(0x1_3800, List.replicate 0x800 0), (0x1_4000, memRead h.spad 0 0x1_8000)] ++
  h.spilled.map (fun x => (x.1, x.2.flatMap (fun w => bytesOf 8 w.toNat))) ++
  (h.levels.toList.drop 16).mapIdx (fun j p => (0x3_0000 + 2048 * j, rowBytes p)) ++
  (List.range 640).map (fun r => (0x3_4000 + 2048 * r, rowBytes (h.poolRow r))) ++
  h.preds.toList.mapIdx (fun p x => (0x17_4000 + 2048 * p, rowBytes (if p = 0 then h.rowZero else x))) ++
  (h.levels.toList.take 16).mapIdx (fun j p => (0x19_4000 + 2048 * j, rowBytes p)) ++
  h.slice.toList.mapIdx (fun r p => (0x19_C000 + 2048 * r, rowBytes p))

/-- A saved image stored at an address: bytes that the layout leaves open are free (notes/assumptions/15.md). -/
def State.writeImage (s : State) (base size : Nat) (parts : List (Nat × List Byte)) : State :=
  let s1 := { s with free := s.free + 1 }.physStore base ((List.range size).map (Config.savedByte s.free))
  parts.foldl (fun s p => s.physStore (base + p.1) p.2) s1

/-- The states of a slot as the save area numbers them, in the order of R269. -/
def tileStates : List TileState := [.free, .waiting, .ready, .running, .hold, .drain, .parked]

/-- The number of a slot's state. -/
def TileState.code (x : TileState) : Nat := tileStates.findIdx (· == x)

/-- The slot state of a tile save area: 64 bytes with state, generation, the number of parts, and for each part its core and the
windows committed and released, in places that the spec does not give (R354; DESIGN CHOICE, notes/assumptions/15.md). -/
def TileSlot.stateImage (t : TileSlot) : List Byte :=
  padTo 64 (bytesOf 8 (t.state.code + t.gen * 2 ^ 8 + t.parts.length * 2 ^ 24) ++
    t.parts.flatMap (fun p => bytesOf 4 (p.core + p.committed * 2 ^ 3 + p.released * 2 ^ 17)))

/-- A slot of the tile save area (R354). -/
def TileSlot.image (t : TileSlot) : List (Nat × List Byte) :=
  [(0, padTo 128 (t.record.flatMap (fun w => bytesOf 8 w.toNat))), (128, padTo 512 t.snapA), (640, padTo 512 t.snapB),
    (1152, t.stateImage), (1216, List.replicate 832 0)]

/-- A slot reloaded from the tile save area (R269, R354). -/
def TileSlot.reload (t : TileSlot) (s : State) (at' : Nat) : TileSlot :=
  let head := physWord s (at' + 1152)
  { t with
    record := (List.range 16).map (fun i => physWord s (at' + 8 * i))
    snapA := if t.snapA.isEmpty then [] else memRead s.mem (at' + 128) 512
    snapB := if t.snapB.isEmpty then [] else memRead s.mem (at' + 640) 512
    state := tileStates.getD (field head 0 8) .free
    gen := field head 8 16
    parts := t.parts.mapIdx (fun q p =>
      let x := ofBytes (memRead s.mem (at' + 1160 + 4 * q) 4)
      { p with core := x % 8, committed := x / 2 ^ 3 % 2 ^ 14, released := x / 2 ^ 17 }) }

/-- The slots of a team on its cluster. -/
def State.teamSlots (s : State) (tid : Nat) (t : Team) : List (Nat × TileSlot) :=
  ((s.cluster t.die t.cluster).slots.toList.mapIdx (fun n x => (n, x))).filter
    (fun x => x.2.state != .free && decide (x.2.team = tid))

/-- Saves a team: its harts leave their cores, which are then at a remap point, its tile slots leave the scheduler (R104, R255,
R269, R354, R370). -/
def State.saveTeam (s : State) (tid : Nat) (t : Team) : State :=
  let harts := t.ids.map (fun c => (s.getCore c).hart.settle)
  let slots := s.teamSlots tid t
  let s1 := harts.foldl (fun s h => s.writeImage h.ctxbase 0x21_C000 h.image) s
  let base := (t.areas.getLastD (0, 0)).1
  let s2 := slots.foldl (fun s x => s.writeImage (base + 2048 * x.1) 2048 x.2.image) s1
  let s3 := (t.ids.foldl (fun s c => (s.setCore c { s.getCore c with resident := false, hart := {} }).remapCore c)
    s2).dropSlots t.die t.cluster tid
  let swap := (s3.die t.die).swap
  let target := match swap with
    | some w => if w.out = t.cluster then w.inn.map (fun n => (t.die, n)) else none
    | none => none
  let t' := { t with
    state := if t.failing then .failed else .saved
    saved := harts, slots := slots, parkedAt := s.gts, target := target
    swapMove := (s.cluster t.die t.cluster).leaving }
  { s3 with teams := assocSet s3.teams tid t' }

/-- CONTEXT_SAVE: Once every sequencer of a team has parked, its context is saved at CTXBASE. (R104) -/
def execContextSave (team : Nat) (s : State) : Out :=
  .next
    (match assocFind s.teams team with
     | some t =>
       if t.state = TeamState.parking && (s.power.state == 0 || t.atEntry && s.power.state == 1) && t.ids.all (fun c => (s.getCore c).savable) &&
           (s.teamSlots team t).all (fun x => !x.2.placed) then
         s.saveTeam team t
       else s
     | none => s)

/-! ## Restoring (R20, R29, R105, R269, R372, R401) -/

/-- A thread that resumes where it parked (R105). -/
def Thread.resume (t : Thread) : Thread := { t.endWait with run := if t.run = .parked then .running else t.run, cut := none }

/-- A hart's sequencers resume (R105, R388). -/
def Hart.resume (h : Hart) : Hart :=
  { h with
    a := h.a.resume, e := h.e.resume
    mts := h.mts.map (fun m => { m with thr := m.thr.resume })
    park := none }

/-- A node as its word gives it (R197). -/
def nodeOf (w : Word) : PgNode :=
  { uflags := BitVec.ofNat 6 (field w 58 6), dlp := BitVec.ofNat 16 (field w 38 16), token := BitVec.ofNat 20 (field w 18 20)
    depth := field w 10 8, parent := BitVec.ofNat 10 (field w 0 10) }

/-- An event record as its 32 bytes give it (R247). -/
def recOf (bs : List Byte) : EvRec :=
  let n (o k : Nat) : Nat := ofBytes ((bs.drop o).take k)
  { typ := BitVec.ofNat 8 (n 0 1), flags := BitVec.ofNat 8 (n 1 1), source := BitVec.ofNat 16 (n 2 2)
    seq := BitVec.ofNat 32 (n 4 4), gts := n 8 8, p0 := word (n 16 8), p1 := word (n 24 8) }

/-- A register's bits as its pool rows hold them, in some lanes. -/
def VReg.refresh (v : VReg) (h : Hart) (lanes : Plane) : VReg :=
  if v.inPool && v.rows.length == v.planes.length then
    { v with planes := (v.rows.zip v.planes).map (fun x => mergePlane x.2 (h.poolRow x.1) lanes) }
  else v

/-- A lane side with the bits of its registers and pending destinations as the pool rows hold them. -/
def EState.refresh (x : EState) (h : Hart) (lanes : Plane) : EState :=
  let rows (rs : List Nat) (ps : List Plane) : List Plane :=
    (rs.zip ps).map (fun y => mergePlane y.2 (h.poolRow y.1) lanes)
  { x with
    vregs := x.vregs.map (fun v => v.refresh h lanes)
    pending := x.pending.map (fun p =>
      if p.rows.length = p.planes.length + p.perRow.length then
        { p with planes := rows p.rows p.planes, perRow := rows (p.rows.drop p.planes.length) p.perRow }
      else p) }

/-- A return stack with its spilled entries as a spill area holds them, `hw` entries being in the hardware (R22, R23). -/
def reloadRets (s : State) (rets : List Word) (hw at' : Nat) : List Word :=
  rets.take hw ++ ((List.range (rets.length - hw)).map (fun k => physWord s (at' + 8 * k))).reverse

/-- A saved hart reloaded: each part whose layout R104 fixes as its save area holds it; what is poisoned there of a lane row
enters the lanes with bad parity (R105, R350). -/
def Hart.reload (h : Hart) (s : State) : Hart :=
  let b := h.ctxbase
  let ws := (List.range 1024).map (fun i => physWord s (b + 0x0_2000 + 8 * i))
  let recs := ((List.range 256).map (fun i => recOf (memRead s.mem (b + 0x0_4000 + 32 * i) 32))).takeWhile (·.typ != 0)
  let h1 : Hart := { h with
    trees := Vector.ofFn (fun t => (ws.filter (fun w => bit w 56 && field w 54 2 == t.val)).map nodeOf)
    evq := recs.map (fun r => { record := r, arrived := s.gts, settled := r.flags.getLsbD 0 })
    scales := Vector.ofFn (fun e => memRead s.mem (b + 0x0_6000 + 512 * e.val) 512)
    seam := s.rowAt (b + 0x0_8000)
    spools := h.spools.mapFinIdx (fun n p _ =>
      let a := b + 0x0_8800 + 128 * n
      { p with
        desc := (List.range p.desc.length).map (fun i => physWord s (a + 8 * i))
        pos := (physWord s (a + 64)).toNat, code := (physWord s (a + 72)).setWidth 4, bound := bit (physWord s (a + 80)) 0 })
    spad := cellsOf 0 (memRead s.mem (b + 0x1_4000) 0x1_8000)
    pool := ((List.range 640).map (fun r => (r, s.rowAt (b + 0x3_4000 + 2048 * r)))).filter (fun x => x.2 != 0)
    preds := h.preds.mapFinIdx (fun p x _ => if p = 0 then x else s.rowAt (b + 0x17_4000 + 2048 * p))
    levels := Vector.ofFn (fun j =>
      s.rowAt (if j.val < 16 then b + 0x19_4000 + 2048 * j.val else b + 0x3_0000 + 2048 * (j.val - 16)))
    slice := Vector.ofFn (fun r => s.rowAt (h.savedRow r.val))
    damaged := h.damaged ++ s.poisonMarks (List.range 976) (b + 0x3_4000) (BitVec.allOnes 16384)
    a := { h.a with rets := reloadRets s h.a.rets 16 (b + 0x2_C000) } }
  if h.split = 0 then
    { h1 with
      e := { h1.e with rets := reloadRets s h1.e.rets 16 (b + 0x2_E000) }
      ex := h1.ex.refresh h1 (BitVec.allOnes 16384) }
  else
    { h1 with mts := h1.mts.mapFinIdx (fun k m _ =>
        if k < h.split then
          { thr := { m.thr with
              rets := reloadRets s m.thr.rets (16 / h.split) (b + 0x2_E000 + 8 * (k * (1024 / h.split))) }
            ex := m.ex.refresh h1 (microLanes h k) }
        else m) }

/-- The requests held at a hart's scratchpad are issued again, from the team's new cores, with their time restarted
(R29, R221). -/
def TagReq.moved (r : TagReq) (old : List Nat) (new : List CoreId) (now : Nat) : TagReq :=
  { r with
    since := now
    core := match (List.range old.length).find? (fun i => old[i]? == some r.core.core) with
      | some i => new.getD i r.core
      | none => r.core }

/-- Records held for a saved hart enter its queue in queue order, marked HELD (R105, R348). -/
def Hart.takeHeld (h : Hart) (now : Nat) : Hart :=
  (h.evHeld.foldl (fun acc r => insertRec r acc) []).foldl
    (fun h r => h.post now { r with flags := r.flags ||| 2 }) { h with evHeld := [] }

/-- A parked task of a restored team (R269). -/
def TileSlot.restored (t : TileSlot) (core : CoreId) : TileSlot :=
  { t with state := if t.state = .parked then .ready else t.state, core := core }

/-- The groups whose BWRED the harts of a team wait for (R401). -/
def bellGroups (hs : List Hart) : List Nat :=
  (hs.flatMap (fun h => h.allFills.filterMap (fun f =>
    match f.src with
    | .bell g _ _ _ _ _ => some g
    | _ => none))).eraseDups

/-- Iterations go on for a team's harts: those of their hand-outs, new hand-outs, else release (R366). -/
def State.goOn (s : State) (tid : Nat) : State :=
  match assocFind s.teams tid with
  | some t =>
    if s.power.state != 0 then s else
    match assocFind s.launches t.launch with
    | some l =>
      let s1 := t.ids.foldl (fun s c => s.nextIter l c) s
      (s1.handOut t.launch (s1.farm t.launch)).releaseTeam tid
    | none => s
  | none => s

/-- Restores a saved team on a cluster: its harts and its parked tasks are reloaded from their areas (R105, R269). -/
def State.restoreTeam (s : State) (tid : Nat) (t : Team) (d c : Nat) : State :=
  let cores := (s.freeCores d c).take t.cores.length
  let ids : List CoreId := cores.map (fun k => ⟨d, c, k⟩)
  let s1 := (ids.zip t.saved).foldl (fun s p =>
    let h := { (p.2.reload s).resume with spadWait := p.2.spadWait.map (fun (r : TagReq) => r.moved t.cores ids s.gts) }.takeHeld s.gts
    s.setCore p.1 { s.getCore p.1 with resident := true, hart := h }) s
  let s2 := t.slots.foldl
    (fun s x => s.setSlot d c x.1 (fun _ =>
      (x.2.reload s ((t.areas.getLastD (0, 0)).1 + 2048 * x.1)).restored (ids.getD x.2.hart x.2.core))) s1
  let t' := { t with
    state := .running, die := d, cluster := c, cores := cores, saved := [], slots := []
    hotMove := false, target := none, swapMove := false, atEntry := false
    moves := if t.hotMove && !t.swapMove then t.moves ++ [s.gts] else t.moves
    lastMove := if t.hotMove || t.swapMove then some s.gts else t.lastMove }
  let s3 := { s2 with teams := assocSet s2.teams tid t' }
  let s4 := (bellGroups t.saved).foldl (fun s g => match s.group g with | some x => s.bwRepost x s.gts | none => s) s3
  s4.goOn tid

/-- TEAM_RESTORE: The Drover restores a saved team on free cores, re-issuing withdrawn fills and appending held events. (R105) -/
def execTeamRestore (team die cluster : Nat) (s : State) : Out :=
  .next
    (match assocFind s.teams team with
     | some t =>
       if t.atEntry && s.power.state == 1 then
         if t.state = TeamState.saved && t.target = some (die, cluster) && s.canResume t die cluster then
           (s.restoreTeam team t die cluster).askTeam team (some 500) false
         else s
       else
         match s.select with
         | some (.restore id, s1) =>
           if id = team && (s.resumeOn t).contains (die, cluster) then s1.restoreTeam team t die cluster else s
         | _ => s
     | none => s)

/-! ## Pre-emption (R101, R370, R371, R373) -/

/-- The order in which victims are taken: lowest priority, then most recently placed (R371). -/
def victimBefore (a b : Nat × Team) : Bool :=
  decide (a.2.prio.toNat < b.2.prio.toNat) || (a.2.prio == b.2.prio && decide (b.2.placeOrder < a.2.placeOrder))

/-- A team put into a list in victim order. -/
def insertVictim (t : Nat × Team) : List (Nat × Team) → List (Nat × Team)
  | [] => [t]
  | x :: xs => if victimBefore t x then t :: x :: xs else x :: insertVictim t xs

/-- Takes victims until the cluster qualifies for a launch; none when it never does (R371). -/
def State.takeVictims (s : State) (l : Launch) (d c : Nat) : List (Nat × Team) → List (Nat × Team) → Option (List (Nat × Team))
  | [], got => if qualifies got then some got else none
  | v :: vs, got => if qualifies got then some got else s.takeVictims l d c vs (got ++ [v])
where
  /-- The cluster would take the launch's team once the victims have left; a team that parks already is no victim. -/
  qualifies (got : List (Nat × Team)) : Bool :=
    let stay := (s.teamsOn d c).filter (fun t => !got.any (fun g => g.1 == t.1))
    decide (l.teamSize ≤ (s.freeCores d c).length + got.foldl (fun acc g => acc + g.2.cores.length) 0) &&
      s.roomWith d c stay l.tslot l.ctx l.excl

/-- The victims on a cluster, if it qualifies. -/
def State.victimsOn (s : State) (l : Launch) (x : Nat × Nat) : Option (List (Nat × Team)) :=
  let level := (s.queue l.q).prio.toNat
  let vs := ((s.teamsOn x.1 x.2).filter (fun t => t.2.state == .running && decide (t.2.prio.toNat < level))).foldl
    (fun acc t => insertVictim t acc) []
  if s.usable x.1 x.2 && !s.reserved x.1 x.2 then s.takeVictims l x.1 x.2 vs [] else none

/-- The victims of the cluster that needs fewest, ties to the coolest, the lower die and cluster (R371). -/
def State.victims (s : State) (l : Launch) : List (Nat × Team) :=
  let all := allClusters.filterMap (fun x => (s.victimsOn l x).map (fun v => (x, v)))
  let least := all.foldl (fun acc p => min acc p.2.length) 9
  match s.coolest ((all.filter (fun p => p.2.length == least)).map (·.1)) with
  | some x => (s.victimsOn l x).getD []
  | none => []

/-- VICTIM_SELECTION: After 50 µs unplaced, the Drover picks lower-priority victims on the cluster needing fewest and requests their pre-emption. (R371) -/
def execVictimSelection (launch : Nat) (s : State) : Out :=
  .next
    (match assocFind s.launches launch with
     | some l =>
       match l.readySince with
       | some t =>
         if s.power.state == 0 && s.wants launch l && (s.placeFor l).isNone && decide (t + 50000 ≤ s.gts) then
           (s.victims l).foldl (fun s v => s.askTeam v.1 none false)
             { s with launches := assocSet s.launches launch { l with readySince := some s.gts } }
         else s
       | none => s
     | none => s)

/-- A periodic event may take place again (its period in ns). -/
def State.due (s : State) (k : Fin 8) (period : Nat) : Bool := decide (s.timers[k] + period ≤ s.gts)

/-- The state with a periodic event's time noted. -/
def State.mark (s : State) (k : Fin 8) : State := { s with timers := s.timers.set k s.gts }

/-- Every cluster's temperature is read (R373). -/
def State.readTemps (s : State) : State :=
  { s with
    free := s.free + 1
    dies := s.dies.mapFinIdx (fun d x _ =>
      { x with clusters := x.clusters.mapFinIdx (fun c k _ => { k with temp := Config.temperature s.free d c }) }) }

/-- The hot-spot threshold at reset in degrees (R373). -/
def hotLimit : Int := 105

/-- A team on a hot cluster may be moved (R373). -/
def State.mayMove (s : State) (d c : Nat) (t : Team) : Bool :=
  t.state == .running &&
    (match t.lastMove with | some m => decide (m + 50000000 ≤ s.gts) | none => true) &&
    decide ((t.moves.filter (fun m => decide (s.gts < m + 1000000000))).length < 4) &&
    allClusters.any (fun x =>
      decide ((s.cluster x.1 x.2).temp + 8 ≤ (s.cluster d c).temp) &&
        s.takes x.1 x.2 t.cores.length (s.tslotOf t) t.ctx (s.exclOf t))

/-- A hot cluster sheds its first team that may be moved, unless one of its teams is on the way; noted is the cluster from which
none can be moved, a hot one that runs no teams among them (R373, R384). -/
def State.shed (s : State) (x : Nat × Nat) : State :=
  if hotLimit < (s.cluster x.1 x.2).temp && (s.cluster x.1 x.2).role == .visible then
    let ts := s.teamsOn x.1 x.2
    if ts.any (fun t => t.2.hotMove) then s
    else
      match ts.foldl (fun (best : Option (Nat × Team)) t =>
        if s.mayMove x.1 x.2 t.2 then
          match best with
          | none => some t
          | some b => if t.2.teamid < b.2.teamid then some t else some b
        else best) none with
      | some t => (s.setCluster x.1 x.2 (fun k => { k with stuckHot := false })).askTeam t.1 none true
      | none => s.setCluster x.1 x.2 (fun k => { k with stuckHot := true })
  else s.setCluster x.1 x.2 (fun k => { k with stuckHot := decide (hotLimit < k.temp) })

/-- HOT_SPOT_CHECK: Every 10 ms the Drover reads cluster temperatures and moves teams away from hot clusters. (R373) -/
def execHotSpotCheck (s : State) : Out :=
  .next
    (if s.due 0 10000000 && s.power.state == 0 then allClusters.foldl State.shed (s.mark 0).readTemps else s)

end Sys2Proof.Machine
end

