-- ==== Sys2Proof/Machine/Drover.lean ====
section
/-! DEFINITION. Sys2Proof/Machine/Drover.lean: the Drover's commands and contexts (R323, R324, R353-R369), host accesses (R395, R396) and the management controller's settings (R376, R398, R400). -/

namespace Sys2Proof.Machine

/-! ## Command records (R360, R362) -/

/-- OP of a record. -/
def cOp (r : List Word) : Nat := field (dw r 0) 0 8

/-- CW of a record. -/
def cCw (r : List Word) : Bool := bit (dw r 0) 16

/-- TAG of a record. -/
def cTag (r : List Word) : Word := dw r 1

/-- The bits above the lowest `n` of a word are 0. -/
def lowOnly (w : Word) (n : Nat) : Bool := decide (w.toNat < 2 ^ n)

/-- The fields that the table of R362 gives a record's OP are the only nonzero ones of w2-w6. -/
def cFields (r : List Word) : Bool :=
  let z (l : List Nat) : Bool := l.all (fun i => dw r i == 0)
  match cOp r with
  | 1 => lowOnly (dw r 2) 57 && z [3, 4, 5, 6]
  | 2 => lowOnly (dw r 2) 57 && lowOnly (dw r 3) 57 && lowOnly (dw r 4) 40 && z [5, 6]
  | 3 => lowOnly (dw r 2) 57 && lowOnly (dw r 3) 32 && z [4, 5, 6]
  | 4 => lowOnly (dw r 2) 57 && lowOnly (dw r 3) 32 && z [5, 6]
  | 5 => z [2, 3, 4, 5, 6]
  | 6 => z [3, 4, 5, 6]
  | _ => false

/-- A record that R360 does not refuse: OP assigned, reserved bits 0 (against R9: DEDUCED, notes/assumptions/70.md), CADDR
aligned when a completion word is asked for. -/
def recordOk (r : List Word) : Bool :=
  field (dw r 0) 8 8 == 0 && field (dw r 0) 17 15 == 0 && lowOnly (dw r 7) 57 && cFields r &&
    !(cCw r && field (dw r 7) 0 3 != 0)

/-- A command completes with a status: its completion word is stored if it asks for one. A store that waits for a migration or
an engine's line is made later, and the command has not completed before that (R298, R315, R360). An address that cannot be
written takes no word (DESIGN CHOICE, notes/assumptions/53.md). -/
def State.complete (s : State) (c : Cmd) (status : Nat) : State :=
  let s1 := { s with cmds := s.cmds.filter (fun x => decide (x.order ≠ c.order)) }.stopMaking (.command c.order)
  if cCw c.record then
    let a := addr57 (dw c.record 7 &&& ~~~7#64)
    match drvWrite c.ctx (cut16 a 8) (bytesOf 8 (field (dw c.record 0) 32 32 + status * 2 ^ 32)) s1 with
    | .ok s2 => s2
    | .fail s2 => s2
    | .stall => { s1 with cmds := s1.cmds ++ [{ c with started := true, ended := some status }] }
  else s1

/-- The stores of a queue that are due are made: completion words of ended commands and its header word (R298, R357, R360). -/
def State.settleQueue (s : State) (q : Nat) : State :=
  ((s.cmds.filter (fun c => decide (c.q = q))).foldl (fun s c =>
    match c.ended with
    | some st => s.complete c st
    | none => s) s).settleHeader q

/-- An event of a queue: nothing takes place while the package sleeps; what is due is stored first (R357, R360, R386). -/
def State.onQueue (s : State) (q : Nat) (act : State → State) : State := if s.asleep then s else act (s.settleQueue q)

/-- A context by number. -/
def State.context (s : State) (n : Nat) : Option Context := s.ctxs.find? (fun x => decide (x.num = n))

/-- The status with which a command consumed while its context is failed or poisoned completes (R355). -/
def State.markStatus (s : State) (ctx : Nat) : Option Nat :=
  match s.context ctx with
  | some x => if x.failed then some 5 else if x.poisoned then some 8 else none
  | none => none

/-- HEAD advances past the record read, and the header is stored; a store that fails sets FLT and is due again, one that
waits for a migration is due (R357, R359). -/
def State.advanceHead (s : State) (q : Nat) : State :=
  (s.setQueue q (fun x =>
    { x with head := x.head + 1, headerDue := true, dueBase := x.base, dueCtx := x.ctx })).settleHeader q

/-- Consumes the record at HEAD when the service order selects its queue and the record is one that the event is about;
a slot that cannot be read sets FLT (R359, R361). The body takes the state and the command. -/
def State.consumeRecord (s : State) (q : Nat) (mine : List Word → Bool)
    (body : State → Cmd → Option State) : State :=
  match s.peek q with
  | .fault s1 => s1.setQueue q (fun x => { x with flt := true })
  | .none => s
  | .record r _ =>
    if mine r then
      match s.select with
      | some (.start p, s1) =>
        if p = q then
          match s1.peek q with
          | .record r s2 =>
            let s3 := { s2.advanceHead q with orders := s.orders + 1 }
            (body s3 { order := s.orders, q := q, ctx := (s.queue q).ctx.toNat, record := r }).getD s
          | _ => s
        else s
      | _ => s
    else s

/-- A valid record of an operation. -/
def isCmd (op : Nat) (r : List Word) : Bool := recordOk r && cOp r == op

/-- Consumes a valid record of an operation; one of a failed or poisoned context completes at once (R355). -/
def State.consumeOp (s : State) (q op : Nat) (body : State → Cmd → Option State) : State :=
  s.consumeRecord q (isCmd op) (fun s c =>
    match s.markStatus c.ctx with
    | some st => some (s.complete c st)
    | none => body s c)

/-- A command that lasts: it joins the list of commands. -/
def State.addCmd (s : State) (c : Cmd) : State := { s with cmds := s.cmds ++ [c] }

/-- A command of a queue with an operation, not ended. -/
def Cmd.pends (c : Cmd) (q op : Nat) : Bool := decide (c.q = q) && cOp c.record == op && c.ended.isNone

/-- The oldest command of a queue with an operation that has not ended. -/
def State.pendingCmd (s : State) (q op : Nat) : Option Cmd := s.cmds.find? (fun c => c.pends q op)

/-- Every command of a queue consumed before a command has completed (R362). -/
def State.earlierDone (s : State) (c : Cmd) : Bool :=
  s.cmds.all (fun x => !(decide (x.q = c.q) && decide (x.order < c.order))) &&
    s.launches.all (fun l => !(decide (l.2.q = c.q) && decide (l.2.order < c.order) && l.2.state != .complete))

/-- Records a launch that has been consumed. -/
def State.addLaunch (s : State) (c : Cmd) (nest : List Word) (st : LaunchState) : State :=
  { s with
    nextId := s.nextId + 1
    launches := s.launches ++
      [(s.nextId, { order := c.order, q := c.q, ctx := c.ctx, record := c.record, nest := nest, state := st })] }

/-- INVALID_RECORD: A consumed record with an unassigned OP, nonzero reserved field or misaligned CADDR completes with
status 3. (R360) -/
def execInvalidRecord (q : Nat) (s : State) : Out :=
  .next (s.onQueue q (fun s => s.consumeRecord q (fun r => !recordOk r) (fun s c =>
    some ((if cOp c.record = 1 then s.addLaunch c [] .complete else s).complete c 3))))

/-! ## Regions (R323, R324) -/

/-- An entry of a region list (R323): the region it declares, or none when a field breaks the rules. -/
def regionOfEntry (ctx : Nat) (e : List Word) : Option Region :=
  let base := addr57 (dw e 0)
  let len := field (dw e 1) 0 41
  let last := base + word (len - 1)
  let scope := field (dw e 2) 8 3
  if field (dw e 0) 57 7 != 0 || field (dw e 1) 41 23 != 0 || field (dw e 2) 11 21 != 0 || field (dw e 2) 4 4 != 0 ||
      field (dw e 3) 38 26 != 0 || base.toNat % 8 != 0 || len % 8 != 0 || len == 0 || decide (2 ^ 40 < len) ||
      !(scope == 3 || scope == 4) || !canonical last || decide (last.toNat < base.toNat) || bit base 63 != bit last 63 ||
      decide (windowBase ≤ last.toNat) then none
  else
    let floor := BitVec.ofNat 32 (field (dw e 3) 0 32)
    some
      { ctx := ctx, num := field (dw e 3) 32 6, base := base, length := len, timeout := field (dw e 2) 32 32
        scope := scope, depth := field (dw e 2) 0 4, floor := floor, applied := Vector.replicate 8 floor }

/-- Two regions of a context collide: the same number, or ranges that overlap (R324). -/
def regionsCollide (a b : Region) : Bool :=
  decide (a.num = b.num) ||
    (decide (a.base.toNat < b.base.toNat + b.length) && decide (b.base.toNat < a.base.toNat + a.length))

/-- The regions of a list of entries, if none is refused. -/
def regionList (ctx : Nat) : List (List Word) → Option (List Region)
  | [] => some []
  | e :: es =>
    match regionOfEntry ctx e, regionList ctx es with
    | some r, some rs => if rs.any (fun x => regionsCollide r x) then none else some (r :: rs)
    | _, _ => none

/-- Declares a context's regions, unless they are; none when the declaration is refused (R324, R353). -/
def State.declare (s : State) (x : Context) : Option State :=
  if x.declared then some s
  else
    let n := field (dw x.desc 2) 0 7
    let at' := field (dw x.desc 2) 8 44 * 256
    if 64 < n then none
    else if poisoned s at' (32 * n) || (decide (0 < n) && !physOk s at') then none
    else
      let bs := memRead s.mem at' (32 * n)
      match regionList x.num ((List.range n).map (fun i => wordsOf (bs.drop (32 * i)) 4)) with
      | none => none
      | some rs =>
        if 64 < s.regions.length + rs.length then none
        else some { s with
          regions := s.regions ++ rs
          ctxs := s.ctxs.map (fun (y : Context) => if y.num = x.num then { y with declared := true } else y) }

/-! ## The loop-nest record (R363, R364) -/

/-- The reserved bits of a loop-nest record are 0 (R364, against R9: DEDUCED, notes/assumptions/70.md). -/
def nestReserved (r : List Word) : Bool :=
  field (dw r 0) 30 34 == 0 && field (dw r 0) 24 3 == 0 && field (dw r 0) 3 3 == 0 && lowOnly (dw r 1) 48 &&
    lowOnly (dw r 2) 57 && lowOnly (dw r 3) 57 && lowOnly (dw r 16) 36 && lowOnly (dw r 17) 36 &&
    lowOnly (dw r 19) 14 && field (dw r 19) 6 2 == 0 && field (dw r 20) 9 55 == 0 && field (dw r 20) 4 4 == 0 &&
    nestVers 21 && nestVers 23 && nestVers 25 && dw r 29 == 0 && dw r 30 == 0 && dw r 31 == 0
where
  /-- The reserved bits of a version field, laid out as in R260. -/
  nestVers (n : Nat) : Bool := lowOnly (dw r n) 57 && field (dw r (n + 1)) 32 31 == 0

/-- ORDER's slots name each dimension once, and the higher slots are 0. -/
def nestOrder (r : List Word) : Bool :=
  let n := field (dw r 0) 0 3
  let slots := (List.range 6).map (fun j => field (dw r 0) (6 + 3 * j) 3)
  decide (n ≤ 5) && (List.range (n + 1)).all (fun d => (slots.take (n + 1)).contains d) &&
    (slots.drop (n + 1)).all (fun x => x == 0)

/-- The registers that the enabled preloads of a sequencer name (R364). -/
def nestRegs (r : List Word) (pre : Word) (arg : Nat) : List Nat :=
  (if 32 ≤ arg then [arg % 32] else []) ++
    (List.range (field (dw r 0) 0 3 + 1)).filterMap (fun k => if bit pre (6 * k + 5) then some (field pre (6 * k) 5) else none)

/-- A loop-nest record is valid (R364). -/
def nestOk (s : State) (ctx : Nat) (r : List Word) : Bool :=
  let e := nestRegs r (dw r 16) (field (dw r 19) 0 6)
  let a := nestRegs r (dw r 17) (field (dw r 19) 8 6)
  let inside (n : Nat) : Bool := let v := tVers r n; !v.1 || (v.2.1.toNat % 8 == 0 && (s.regionOf ctx v.2.1).isSome)
  nestReserved r && nestOrder r && field (dw r 1) 0 32 != 0 && dw r 3 != 0 && field (dw r 2) 0 2 == 0 &&
    field (dw r 3) 0 2 == 0 && decide (e.eraseDups.length = e.length) && decide (a.eraseDups.length = a.length) &&
    decide (field (dw r 20) 0 4 ≤ 8) && inside 21 && inside 23 && inside 25

/-! ## Launches (R362-R368) -/

/-- LAUNCH: The Drover consumes a LAUNCH record, declares regions, validates the loop-nest record and waits for
preconditions. (R362) -/
def execLaunch (q : Nat) (s : State) : Out :=
  .next
    (s.onQueue q fun s => s.consumeRecord q (isCmd 1) (fun s c =>
      let stop (s : State) (st : Nat) : State := (s.addLaunch c [] .complete).complete c st
      match s.markStatus c.ctx, s.context c.ctx with
      | some st, _ => some (stop s st)
      | none, none => some (stop s 4)
      | none, some x =>
        if field (dw c.record 2) 0 8 ≠ 0 then some (stop s 3)
        else
          match s.declare x with
          | none => some (stop s 7)
          | some s1 =>
            match drvRead c.ctx (cut16 (addr57 (dw c.record 2)) 256) [] s1 with
            | .fail s2 => some (stop s2 4)
            | .stall => none
            | .ok bs s2 =>
              let nest := wordsOf bs 32
              if nestOk s2 c.ctx nest then some (s2.addLaunch c nest .waiting) else some (stop s2 3)))

/-- A launch ends with a status: its completion word is stored (R368). -/
def State.endLaunch (s : State) (id : Nat) (l : Launch) (status : Nat) : State :=
  ({ s with launches := assocSet s.launches id { l with state := .complete } }.stopMaking (.launch id)).complete
    { order := l.order, q := l.q, ctx := l.ctx, record := l.record } status

/-- The launch that produces a precondition, the most recent LAUNCH command with the tag that was consumed before, valid or
not, has not yet placed a team (R365). -/
def State.producerOpen (s : State) (l : Launch) : Bool :=
  let tag := dw l.nest 28
  if tag = 0 then false
  else
    match (s.launches.filter (fun x => decide (x.2.ctx = l.ctx) && cTag x.2.record == tag &&
        decide (x.2.order < l.order))).getLast? with
    | some p => !p.2.placed && p.2.state != .complete && !p.2.cancelled
    | none => false

/-- The status of a launch that completes: one that completes in a poisoned context has status 8, and 5 when the context
is failed too (R355). -/
def State.endStatus (s : State) (l : Launch) (status : Nat) : Nat :=
  match s.context l.ctx with
  | some x => if x.poisoned then (if x.failed then 5 else 8) else status
  | none => status

/-- A team of the launch is still there. -/
def State.teamsLeft (s : State) (id : Nat) : Bool :=
  s.teams.any (fun t => decide (t.2.launch = id) && t.2.state != .released && t.2.state != .failed)

/-- A posted reduction of a team of the launch is not performed (R304, R368). -/
def State.postsLeft (s : State) (id : Nat) : Bool :=
  s.cores.any (fun p => p.2.hart.threads.any (fun t => !t.posted.isEmpty) &&
    (match assocFind s.teams p.2.hart.team with | some t => decide (t.launch = id) | none => false))

/-- An engine command that a hart of the launch issued has not started (R310, R368). -/
def State.commandsLeft (s : State) (id : Nat) : Bool :=
  s.cores.any (fun p => (p.2.bobbin ++ p.2.xcopy).any (fun x => !x.started &&
    (match assocFind s.teams x.team with | some t => decide (t.launch = id) | none => false)))

/-- The launch completes if every iteration has ended and every team is released: with status 5 in a failed launch, 8 (or 5)
in a poisoned context, 1 when cancelled, else with its completion version, and with status 2 where that lies below the floor
(R331, R339, against the run of R419 and R420: DEDUCED, notes/assumptions/72.md) (R355, R365, R368, R369). -/
def State.tryComplete (s : State) (id : Nat) (l : Launch) : State :=
  let ended := (l.state == .live && !l.more) || (l.state == .waiting && l.cancelled)
  if ended && !s.teamsLeft id && !s.postsLeft id && !s.commandsLeft id then
    let poisoned := match s.context l.ctx with | some x => x.poisoned | none => false
    let v := tVers l.nest 25
    if s.madeBy (.launch id) = some .made then s.endLaunch id l 0
    else if l.failed then s.endLaunch id l 5
    else if poisoned then s.endLaunch id l (s.endStatus l 8)
    else if l.cancelled then s.endLaunch id l 1
    else if !v.1 then s.endLaunch id l 0
    else
      match s.regionOf l.ctx v.2.1 with
      | none => s.endLaunch id l 2
      | some r =>
        match makeVersion s (.launch id) l.ctx r v.2.1 v.2.2 (dw l.nest 27) with
        | .done s' => s'.endLaunch id l 0
        | .dup => s.endLaunch id l 6
        | .gone => s.endLaunch id l 2
        | .wait s' => s'
  else s

/-- LAUNCH_LIVE: A launch's preconditions and producer wait are met and its walker starts enumerating; preconditions that
have been met are not looked at again while it waits for its producer. (R365) -/
def execLaunchLive (launch : Nat) (s : State) : Out :=
  .next (if s.asleep then s else
    (match assocFind s.launches launch with
     | some l =>
       if l.state = LaunchState.waiting && !l.cancelled then
         let pre (n : Nat) : Option Bool := if l.met then some true else s.preState l.ctx (tVers l.nest n)
         match pre 21, pre 23 with
         | some false, _ => s.endLaunch launch l (s.endStatus l 2)
         | _, some false => s.endLaunch launch l (s.endStatus l 2)
         | some true, some true =>
           if s.producerOpen l then { s with launches := assocSet s.launches launch { l with met := true } }
           else
             let l1 := { l with state := .live, met := true, readySince := some s.gts }
             let s1 := { s with launches := assocSet s.launches launch l1 }
             if l.total = 0 then s1.tryComplete launch l1 else s1
         | _, _ => s
       else s
     | none => s))

/-- LAUNCH_COMPLETE: When every iteration has ended and every team is released, the launch performs its accesses, creates
its completion version and stores its completion word. (R368) -/
def execLaunchComplete (launch : Nat) (s : State) : Out :=
  .next (if s.asleep then s else
    (match assocFind s.launches launch with
     | some l => s.tryComplete launch l
     | none => s))

/-! ## The other commands (R362, R369) -/

/-- Copies pieces that each lie in one 16-byte part of source and destination; a failure gives status 4. The answer has the
state, the status and how many of the `n` bytes are copied (R362). -/
def drvCopy (before : Option Nat) (ctx : Nat) (src dst : Word) (n : Nat) :
    List (Nat × Nat) → State → Option (State × Nat × Nat)
  | [], s => some (s, 0, n)
  | (i, m) :: r, s =>
    match drvReadBy before ctx [(src + word i, m)] [] s with
    | .stall => none
    | .fail s1 => some (s1, 4, i)
    | .ok bs s1 =>
      match drvWriteBy before ctx [(dst + word i, m)] bs s1 with
      | .ok s2 => drvCopy before ctx src dst n r s2
      | .fail s2 => some (s2, 4, i)
      | .stall => none

/-- The 16-byte parts that lie whole in `n` bytes written from an address on have lost their poison (R309, R350). -/
def State.clearCopied (s : State) (ctx : Nat) (dst : Word) (n : Nat) : State :=
  if s.poison.isEmpty then s
  else
    s.clearWhole ((pagePieces dst n).filterMap (fun x =>
      match s.ctxPlace ctx (dst + word x.1) with
      | some (.phys pa) => some (pa, x.2)
      | _ => none))

/-- Performs a COPY that has started and completes it (R362). -/
def State.runCopy (s : State) (c : Cmd) : State :=
  let src := addr57 (dw c.record 2)
  let dst := addr57 (dw c.record 3)
  let n := field (dw c.record 4) 0 40
  match drvCopy (some c.stamp) c.ctx src dst n (copyCuts src.toNat dst.toNat n 0 n) s with
  | some (s', st, m) => (s'.clearCopied c.ctx dst m).complete c st
  | none => s

/-- The next record of a queue is one of an operation that the service order would start. -/
def State.startsNext (s : State) (q op : Nat) : Bool :=
  match s.peek q with
  | .record r _ =>
    isCmd op r && (match s.select with
      | some (.start p, _) => decide (p = q)
      | _ => false)
  | _ => false

/-- DROVER_COPY: The Drover starts the next COPY of a queue, which from then on owns its destination lines, or performs and
completes its oldest one in progress; which of the two is open; parked engines perform none. (R315, R362, R386) -/
def execDroverCopy (q : Nat) (s : State) : Out :=
  .next (s.onQueue q (fun s =>
    let start := s.consumeOp q 2 (fun s c =>
      some ({ s with starts := s.starts + 1 }.addCmd { c with started := true, stamp := s.starts }))
    match (if s.power.engPark then none else s.pendingCmd q 2) with
    | none => start
    | some c =>
      if s.startsNext q 2 then
        if Config.choose s.free % 2 = 0 then { start with free := s.free + 1 }
        else { s with free := s.free + 1 }.runCopy c
      else s.runCopy c))

/-- A command that names a versioned word joins the commands that wait, or is invalid when the word is none (R362). -/
def State.takeVersioned (s : State) (c : Cmd) : State :=
  let a := addr57 (dw c.record 2)
  if a.toNat % 8 ≠ 0 || (s.regionOf c.ctx a).isNone then s.complete c 3 else s.addCmd c

/-- WAITVER: Starts a WAITVER, which holds its queue, or completes the one that does: once its version is live, or with
status 2 below the floor. (R362) -/
def execWaitver (q : Nat) (s : State) : Out :=
  .next (s.onQueue q (fun s =>
    match s.pendingCmd q 3 with
    | some c =>
      let a := addr57 (dw c.record 2)
      let v : BitVec 32 := (dw c.record 3).setWidth 32
      match s.regionOf c.ctx a with
      | none => s.complete c 3
      | some r =>
        if verGone (r.floorAt a) (r.word a) v then s.complete c 2
        else if ((r.word a).find v).isSome then s.complete c 0
        else s
    | none => s.consumeOp q 3 (fun s c => some (s.takeVersioned c))))

/-- MAKEVER: Starts a MAKEVER, or creates the version of the one whose earlier commands have completed. (R362) -/
def execMakever (q : Nat) (s : State) : Out :=
  .next (s.onQueue q (fun s =>
    let start := s.consumeOp q 4 (fun s c => some (s.takeVersioned c))
    match s.cmds.find? (fun c => c.pends q 4 && s.earlierDone c) with
    | some c =>
      let a := addr57 (dw c.record 2)
      match s.regionOf c.ctx a with
      | none => s.complete c 3
      | some r =>
        match makeVersion s (.command c.order) c.ctx r a ((dw c.record 3).setWidth 32) (dw c.record 4) with
        | .done s' => s'.complete c 0
        | .dup => s.complete c 6
        | .gone => s.complete c 2
        | .wait s' => s'.consumeOp q 4 (fun s c => some (s.takeVersioned c))
    | none => start))

/-- DROVER_FENCE: Starts a FENCE, which holds its queue, or completes the one that does once every earlier command has
completed. (R362) -/
def execDroverFence (q : Nat) (s : State) : Out :=
  .next (s.onQueue q (fun s =>
    match s.pendingCmd q 5 with
    | some c => if s.earlierDone c then s.complete c 0 else s
    | none => s.consumeOp q 5 (fun s c => some (s.addCmd c))))

/-- A command or launch that a CANCEL names: of its context, with its TAG, consumed before it (R369). -/
def cancels (c : Cmd) (order ctx : Nat) (r : List Word) : Bool :=
  decide (order < c.order) && decide (ctx = c.ctx) && cTag r == dw c.record 2

/-- The records that a CANCEL names and that are published at the head of another queue, as commands that have not started:
each is consumed and completes with status 1. Those that lie deeper in a ring are no commands yet (R359, R369; DEDUCED,
notes/assumptions/61.md). -/
def State.withdrawHeads (c : Cmd) (q : Nat) : Nat → State → State
  | 0, s => s
  | fuel + 1, s =>
    match s.peek q with
    | .record r s1 =>
      if (s.queue q).ctx.toNat = c.ctx && recordOk r && cTag r == dw c.record 2 then
        let x : Cmd := { order := s.orders, q := q, ctx := c.ctx, record := r }
        let s2 := { s1.advanceHead q with orders := s.orders + 1 }
        State.withdrawHeads c q fuel ((if cOp r = 1 then s2.addLaunch x [] .complete else s2).complete x 1)
      else s
    | _ => s

/-- CANCEL's effect on the commands and launches that it names and that have been consumed (R369). -/
def State.withdrawOwn (s : State) (c : Cmd) : State :=
  let gone := s.cmds.filter (fun x => cancels c x.order x.ctx x.record && !x.started && cOp x.record != 6 &&
    s.madeBy (.command x.order) != some .made)
  let s1 := gone.foldl (fun s x => s.complete x 1) s
  let mine := s1.launches.filter (fun l => cancels c l.2.order l.2.ctx l.2.record && l.2.state != .complete)
  let s2 := { s1 with launches := s1.launches.map (fun (l : Nat × Launch) =>
    if mine.any (fun m => m.1 == l.1) then (l.1, { l.2 with cancelled := true }) else l) }
  let s3 := mine.foldl (fun s l =>
    (s.teams.filter (fun t => decide (t.2.launch = l.1))).foldl (fun s t => s.releaseTeam t.1) s) s2
  mine.foldl (fun s l =>
    match assocFind s.launches l.1 with
    | some x => if x.state = LaunchState.waiting then s.tryComplete l.1 x else s
    | none => s) s3

/-- CANCEL's effect on the commands and launches that it names (R369). -/
def State.withdraw (s : State) (c : Cmd) : State :=
  ((List.range 64).filter (fun q => decide (q ≠ c.q))).foldl
    (fun s q => s.withdrawHeads c q ((s.queue q).tail - (s.queue q).head).toNat) (s.withdrawOwn c)

/-- Every command that a CANCEL names has reached its end. -/
def State.cancelled (s : State) (c : Cmd) : Bool :=
  s.cmds.all (fun x => !cancels c x.order x.ctx x.record) &&
    s.launches.all (fun l => !(cancels c l.2.order l.2.ctx l.2.record && l.2.state != .complete))

/-- CANCEL: Withdraws every command of the same context with the named TAG, or completes a CANCEL whose commands have
reached their end. (R369) -/
def execCancel (q : Nat) (s : State) : Out :=
  .next (s.onQueue q (fun s =>
    match s.cmds.find? (fun c => c.pends q 6 && s.cancelled c) with
    | some c => s.complete c 0
    | none => s.consumeRecord q (isCmd 6) (fun s c =>
        let s1 := s.withdraw c
        if s1.cancelled c then some (s1.complete c 0) else some (s1.addCmd { c with started := true }))))

/-! ## Contexts (R341, R353, R355) -/

/-- The sync registers of a grant hold 0 everywhere (R341). -/
def State.clearGrant (s : State) (desc : List Word) : State :=
  let lo := field (dw desc 1) 0 12
  let hi := lo + field (dw desc 1) 16 13
  let out (p : Nat) : Bool := decide (p < lo) || decide (hi ≤ p)
  { s with
    sync := s.sync.filter (fun x => out x.1)
    mirrors := s.mirrors.map (fun l => l.filter (fun x => out x.1))
    syncMsgs := s.syncMsgs.map (fun l => l.filter (fun m => out m.reg)) }

/-- CTXNUM of a descriptor. -/
def ctxNum (desc : List Word) : Nat := field (dw desc 1) 32 16

/-- A context has work: commands, launches or teams that are not over. -/
def State.ctxBusy (s : State) (n : Nat) : Bool :=
  s.cmds.any (fun c => decide (c.ctx = n)) ||
    s.launches.any (fun l => decide (l.2.ctx = n) && l.2.state != .complete) ||
    s.teams.any (fun t => decide (t.2.ctx = n) && t.2.state != .released && t.2.state != .failed)

/-- CONTEXT_REGISTRATION: The host driver registers a context descriptor through the management controller, and its sync-
register grant is allocated and zeroed; a grant that passes register 4,095 is accepted for the registers that exist (DESIGN
CHOICE, notes/assumptions/23.md). (R353) -/
def execContextRegistration (desc : List Word) (s : State) : Out :=
  .next
    (if (s.context (ctxNum desc)).isSome || s.mgmt.bootFailed then s
     else State.clearGrant { s with ctxs := s.ctxs ++ [({ num := ctxNum desc, desc := desc } : Context)] } desc)

/-- CONTEXT_DESTRUCTION: The host destroys a context, which clears its poisoned and failed marks, discards its regions and
versions, and releases its sync-register grant. (R355) -/
def execContextDestruction (num : Nat) (s : State) : Out :=
  .next
    (match s.context num with
     | none => s
     | some x =>
       if s.ctxBusy num then s
       else
         { s with
           ctxs := s.ctxs.filter (fun (y : Context) => decide (y.num ≠ num))
           regions := s.regions.filter (fun (r : Region) => decide (r.ctx ≠ num))
           making := s.making.filter (fun m => decide (m.ask.ctx ≠ num))
           teams := s.teams.filter (fun t => decide (t.2.ctx ≠ num))
           launches := s.launches.filter (fun l => decide (l.2.ctx ≠ num)) }.clearGrant x.desc |>.wakeVers)

/-! ## Host accesses and the management controller (R291, R376, R395, R396, R398, R400) -/

/-- Device memory that the host reaches through CXL.mem: HBM4 and LPDDR-6 (R375, R395). -/
def hostMapped (pa n : Nat) : Bool := decide (pa + n ≤ 0x05_00_0000_0000)

/-- L2 gives up its copies of lines, pinned ones too (R396). -/
def State.dropL2 (s : State) (lines : List Nat) : State :=
  { s with dies := s.dies.map (fun d => { d with
      l2 := d.l2.filter (fun l => !lines.contains l.1), pins := d.pins.filter (fun p => !lines.contains p.1)
      opPins := d.opPins.filter (fun p => !lines.contains p.line) }) }

/-- CXL_HOST_ACCESS: A host access to device memory through CXL.mem back-invalidates copies before it is performed; one that
meets a line which an engine owns waits, and is offered again (R315). (R396) -/
def execCxlHostAccess (write : Bool) (pa n : Nat) (data : List Byte) (s : State) : Out :=
  .next
    (if !hostMapped pa n || s.asleep || s.mgmt.bootFailed || (linesOf pa n).any (fun l => s.owned none (.phys (64 * l))) then s
     else
       let s1 := (s.recall none (linesOf pa n)).dropL2 (linesOf pa n)
       if write then s1.physStore pa (padTo n data)
       else { s1 with hostRead := if poisoned s1 pa n then [] else memRead s1.mem pa n })

/-- The adapter keeps a line of host memory shared (R395). -/
def State.shareHost (s : State) (line : Nat) : State :=
  { s with hostLines := s.hostLines.map (fun l => if l.1 = line then (line, false) else l) }

/-- HOST_SNOOP: A CXL.cache snoop from the host reaches the host adapter and recalls or invalidates a host-memory line that
the device holds. (R395) -/
def execHostSnoop (line : Nat) (invalidate : Bool) (s : State) : Out :=
  .next
    (if s.mgmt.bootFailed || !s.hostLines.any (fun l => decide (l.1 = line)) then s
     else if invalidate then { s.recall none [line] with hostLines := s.hostLines.filter (fun l => decide (l.1 ≠ line)) }
     else (s.shareHost line).shareLine none line)

/-- The 64 KiB numbers of a frame (notes/assumptions/40.md). -/
def unitsIn (frame size : Nat) : List Nat := (List.range (size / 0x1_0000)).map (fun i => frame / 0x1_0000 + i)

/-- MANAGEMENT_CONFIGURATION: The host driver sets, through the management controller, the route table, the access table, a
reduction group or the migration engine's free frames. (R398) -/
def execManagementConfiguration (cfg : MgmtCfg) (s : State) : Out :=
  .next
    (let m := s.mgmt
     if m.bootFailed then s else
     match cfg with
     | .route node port =>
       { s with mgmt := { m with routes := match port with
         | some p => if p < 4 && node != multicast then assocSet m.routes node p else m.routes
         | none => assocDel m.routes node } }
     | .access node ctx rctx present =>
       let l := m.access.filter (fun x => decide (x ≠ (node, ctx, rctx)))
       { s with mgmt := { m with access := if present then l ++ [(node, ctx, rctx)] else l } }
     | .group num members root =>
       if 1024 ≤ num then s
       else
         let l := m.groups.filter (fun (g : Group) => decide (g.num ≠ num))
         let x : Group := { num := num, members := members, root := root }
         { s with mgmt := { m with groups := l ++ [x] } }
     | .node port node => if node = multicast then s else s.setLink port (fun l => { l with node := node })
     | .freeFrame frame =>
       { s with mig := { s.mig with
           free := s.mig.free ++ (unitsIn (frame / 0x20_0000 * 0x20_0000) 0x20_0000).filter (fun u => !s.mig.free.contains u) } })

end Sys2Proof.Machine
end

