-- ==== Sys2Proof/Machine/Hash.lean ====
section
/-! DEFINITION. Sys2Proof/Machine/Hash.lean: SHA-256 and the signature check RSASSA-PSS of PKCS #1 v2.2, which R408
names (notes/assumptions/33.md). -/

namespace Sys2Proof.Machine

/-! ## SHA-256 -/

/-- The number has no divisor other than 1 and itself. -/
def isPrime (n : Nat) : Bool := decide (2 ≤ n) && (List.range n).all (fun d => decide (d < 2) || n % d != 0)

/-- The first 64 primes: all those up to 311. -/
def primes : List Nat := (List.range 312).filter isPrime

/-- The greatest number below `acc + 2 ^ bits` whose `k`-th power is at most `n`, found bit by bit from `acc` on. -/
def rootFrom (k n : Nat) : Nat → Nat → Nat
  | 0, acc => acc
  | bits + 1, acc => rootFrom k n bits (if (acc + 2 ^ bits) ^ k ≤ n then acc + 2 ^ bits else acc)

/-- The first 32 bits of the fraction of the `k`-th root of a number. -/
def rootFraction (k p : Nat) : BitVec 32 := BitVec.ofNat 32 (rootFrom k (p * 2 ^ (32 * k)) 37 0)

/-- The constants of the rounds: from the cube roots of the primes. -/
def roundConstants : List (BitVec 32) := primes.map (rootFraction 3)

/-- The eight words that a hash starts with: from the square roots of the first eight primes. -/
def firstHash : List (BitVec 32) := (primes.take 8).map (rootFraction 2)

/-- The exclusive or of a word rotated right by each of some amounts. -/
def turns (w : BitVec 32) (amounts : List Nat) : BitVec 32 := amounts.foldl (fun acc n => acc ^^^ w.rotateRight n) 0

/-- The schedule of a block: its words, oldest first, each further one from the words 16, 15, 7 and 2 places before it. -/
def schedule : Nat → List (BitVec 32) → List (BitVec 32)
  | 0, _ => []
  | n + 1, ws =>
    let back (i : Nat) : BitVec 32 := ws.getD (16 - i) 0
    let next := back 16 + (turns (back 15) [7, 18] ^^^ (back 15 >>> 3)) + back 7 + (turns (back 2) [17, 19] ^^^ (back 2 >>> 10))
    back 16 :: schedule n (ws.drop 1 ++ [next])

/-- The two words that a round puts first and fifth, from the hash words and the sum of its constant and its schedule word. -/
def roundWords (h : List (BitVec 32)) (kw : BitVec 32) : BitVec 32 × BitVec 32 :=
  let at' (i : Nat) : BitVec 32 := h.getD i 0
  let chosen := at' 6 ^^^ (at' 4 &&& (at' 5 ^^^ at' 6))
  let most := (at' 0 &&& at' 1) ||| (at' 2 &&& (at' 0 ||| at' 1))
  let t := at' 7 + kw + chosen + turns (at' 4) [6, 11, 25]
  (t + most + turns (at' 0) [2, 13, 22], at' 3 + t)

/-- The hash words after a round: each moves one place on. -/
def round256 (h : List (BitVec 32)) (kw : BitVec 32) : List (BitVec 32) :=
  let x := roundWords h kw
  x.1 :: h.take 3 ++ x.2 :: (h.drop 4).take 3

/-- The number a list of bytes is, the first the most significant. -/
def ofBytesBE (bs : List Byte) : Nat := bs.foldl (fun n b => 256 * n + b.toNat) 0

/-- The `n` bytes of a number, the most significant first. -/
def bytesBE (n x : Nat) : List Byte := (bytesOf n x).reverse

/-- The hash after each of `n` further blocks of 64 bytes. -/
def hashBlocks : Nat → List Byte → List (BitVec 32) → List (BitVec 32)
  | 0, _, h => h
  | n + 1, bs, h =>
    let block := (List.range 16).map (fun i => BitVec.ofNat 32 (ofBytesBE ((bs.drop (4 * i)).take 4)))
    let mixed := (List.zipWith (· + ·) roundConstants (schedule 64 block)).foldl round256 h
    hashBlocks n (bs.drop 64) (List.zipWith (· + ·) h mixed)

/-- SHA-256 of bytes: they are followed by a one bit, zeros and their length in bits, up to whole blocks. -/
def sha256 (bs : List Byte) : List Byte :=
  let blocks := (bs.length + 72) / 64
  let tail := 0x80 :: List.replicate (64 * blocks - 9 - bs.length) 0 ++ bytesBE 8 (8 * bs.length)
  (hashBlocks blocks (bs ++ tail) firstHash).flatMap (fun w => bytesBE 4 w.toNat)

/-! ## RSASSA-PSS with SHA-256, a salt of 32 bytes and exponent 65,537 -/

/-- `n` squarings modulo a number. -/
def squares (m : Nat) : Nat → Nat → Nat
  | 0, x => x
  | n + 1, x => squares m n (x * x % m)

/-- The mask of 351 bytes that a seed of 32 bytes generates. -/
def mgf1 (seed : List Byte) : List Byte :=
  ((List.range 11).flatMap (fun i => sha256 (seed ++ bytesBE 4 i))).take 351

/-- A signature of an image is valid under a modulus of 3,072 bits. -/
def pssOk (modulus img sig : List Byte) : Bool :=
  let n := ofBytesBE modulus
  let s := ofBytesBE sig
  let em := bytesBE 384 (squares n 16 s * s % n)
  let hash := (em.drop 351).take 32
  let db := List.zipWith (fun (x y : Byte) => x ^^^ y) (em.take 351) (mgf1 hash)
  let db1 := (db.headD 0 &&& 0x7F) :: db.drop 1
  modulus.length == 384 && sig.length == 384 && decide (s < n) && em.getLastD 0 == 0xBC &&
    decide ((em.headD 0).toNat < 0x80) && db1.take 319 == List.replicate 318 0 ++ [1] &&
    sha256 (List.replicate 8 0 ++ sha256 img ++ db1.drop 319) == hash

end Sys2Proof.Machine
end

