-- ==== Sys2Proof/Machine/Power.lean ====
section
/-! DEFINITION. Sys2Proof/Machine/Power.lean: the power controller: leases, crook, slow loop, thermal control (R381-R384, R404-R407), cold boot and attestation (R278, R408), and brown-out from its deadlines to its end (R386-R389). -/

namespace Sys2Proof.Machine

/-! ## Records for every hart (R284, R388) -/

/-- A record is posted to every hart of every context: placed ones at once, saved ones through the Drover (R105). -/
def State.postAll (s : State) (r : EvRec) : State :=
  let f (k : Core) : Core := if k.resident then { k with hart := k.hart.post s.gts r } else k
  { s with
    core := f s.core
    others := s.others.map (fun p => (p.1, f p.2))
    teams := s.teams.map (fun (t : Nat × Team) =>
      if t.2.state = TeamState.saved then
        (t.1, { t.2 with saved := t.2.saved.map (fun (h : Hart) => { h with evHeld := h.evHeld ++ [r] }) })
      else t) }

/-! ## The cap in force (R404-R407) -/

/-- The cap in force in watts (R405). -/
def Power.cap (p : Power) : Nat :=
  if p.leaseValid then p.leaseCap.toNat
  else if p.leaseExp then min p.leaseCap.toNat p.failsafe.toNat
  else p.failsafe.toNat

/-- A valid lease sets the cap in force and its expiry (R404, R405). -/
def Power.take (p : Power) (now : Nat) (f : Flit) : Power :=
  let seq := BitVec.ofNat 32 (flitNum f 0 4)
  let dur := flitNum f 6 4
  if f.snode ≠ p.src || dur = 0 || (p.leaseSeen && decide ((seq - p.leaseSeq).toInt ≤ 0)) then p
  else
    { p with
      leaseValid := true, leaseExp := false, leaseSeen := true, leaseSeq := seq
      leaseCap := BitVec.ofNat 16 (max 300 (min 2000 (flitNum f 4 2))), leaseEnd := now + dur * 1000 }

/-- LEASE: A lease flit arrives and, if valid, sets the cap in force and its expiry. (R404) -/
def execLease (f : Flit) (s : State) : Out :=
  .next (if s.asleep then s else
    (if f.kind ≠ 5 then s
     else
       match s.takeFlit f with
       | some s1 => if s.mine f then { s1 with power := s1.power.take s.gts f } else s1
       | none => s))

/-- LEASE_EXPIRY: A lease expires without renewal and the cap falls to the lower of its cap and FAILSAFE. (R405) -/
def execLeaseExpiry (s : State) : Out :=
  .next
    (if s.power.leaseValid && decide (s.power.leaseEnd ≤ s.gts) && !s.asleep then
       { s with power := { s.power with leaseValid := false, leaseExp := true } }
     else s)

/-! ## The crook (R383) -/

/-- CROOK_ASSERT: CROOK_N or a regulator current alarm cuts every cluster's LIM to 0x1111. (R383) -/
def execCrookAssert (s : State) : Out :=
  .next { s with power := { s.power with crookOn := true, crookEnd := none, crookCount := 4 } }

/-- CROOK_DEASSERT: The crook's assertion ends, starting the 100 µs release wait. (R383) -/
def execCrookDeassert (s : State) : Out :=
  .next
    (if s.power.crookOn then { s with power := { s.power with crookOn := false, crookEnd := some s.gts } } else s)

/-- CROOK_RELEASE: 100 µs after the last assertion the controller releases the crook and starts its ramp. (R383) -/
def execCrookRelease (s : State) : Out :=
  .next
    (match s.power.crookEnd with
     | some t =>
       if !s.power.crookOn && decide (t + 100000 ≤ s.gts) then { s with power := { s.power with crookEnd := none } }.mark 6
       else s
     | none => s)

/-- The crook holds: it is asserted, or not yet released (R383). -/
def Power.held (p : Power) : Bool := p.crookOn || p.crookEnd.isSome

/-- CROOK_RAMP_STEP: Every 10 µs during the ramp the crook's count rises by one. (R383) -/
def execCrookRampStep (s : State) : Out :=
  .next
    (if !s.power.held && decide (s.power.crookCount < 16) && s.due 6 10000 then
       { s with power := { s.power with crookCount := s.power.crookCount + 1 } }.mark 6
     else s)

/-! ## The slow loop and thermal control (R382, R384) -/

/-- POWER_SAMPLE: Every 10 µs the power controller samples module power. (R382) -/
def execPowerSample (watts : Nat) (s : State) : Out :=
  .next
    (if s.due 1 10000 && decide (s.power.sampleCount < 100) then
       { s with power := { s.power with
           sampleSum := s.power.sampleSum + watts, sampleCount := s.power.sampleCount + 1 } }.mark 1
     else s)

/-- GVL and the cap count after a period whose 100 samples sum to `sum` (R382, R383). -/
def powerLaw (cap sum gvl count : Nat) (held : Bool) : Nat × Nat :=
  if 100 * cap < sum then
    if 4096 < gvl then (if held then gvl else gvl - 1024, count)
    else (gvl, if 4 < count then count - 1 else count)
  else if sum < 95 * cap then
    if count < 16 then (gvl, count + 1)
    else (if gvl < 16384 && !held then gvl + 1024 else gvl, count)
  else (gvl, count)

/-- A die takes a new GVL; a change posts POWER_GRANT to every core of the die that holds a hart (R382). -/
def State.grant (s : State) (die new : Nat) : State :=
  let old := (s.die die).gvl
  if old = new then s
  else
    let s1 := s.setDie die (fun d => { d with gvl := new })
    let r := mkRec s 10 0x8002 (word (new % 2 ^ 15 + old % 2 ^ 15 * 2 ^ 16 + s.power.capCount % 2 ^ 16 * 2 ^ 32))
      (word s.power.cap)
    (s1.cores.filter (fun p => p.2.resident && decide (p.1.die = die))).foldl (fun s p => s.postCore p.1 r) s1

/-- POWER_LOOP: Every 1 ms the controller compares average power with the cap and trims GVL or the cap count. (R382) -/
def execPowerLoop (s : State) : Out :=
  .next
    (if s.power.sampleCount = 100 then
       let n := powerLaw s.power.cap s.power.sampleSum (s.die 0).gvl s.power.capCount s.power.held
       (List.range 8).foldl (fun s d => s.grant d n.1)
         { s with power := { s.power with sampleSum := 0, sampleCount := 0, capCount := n.2 } }
     else s)

/-- A cluster's thermal count after an adjustment (R384). -/
def Cluster.adjust (k : Cluster) : Cluster :=
  { k with thermal :=
      if hotLimit < k.temp && k.stuckHot then max 4 (k.thermal - 1)
      else if k.temp ≤ hotLimit - 5 then min 16 (k.thermal + 1)
      else k.thermal }

/-- THERMAL_ADJUST: Every 10 ms each cluster's thermal count is lowered or raised. (R384) -/
def execThermalAdjust (s : State) : Out :=
  .next
    (if s.due 2 10000000 then
       let ds := s.dies.map (fun (d : Die) => { d with clusters := d.clusters.map Cluster.adjust })
       { s with dies := ds }.mark 2
     else s)

/-! ## Cold boot, measured boot and attestation (R278, R388, R389, R408) -/

/-- The boot log, its running digest, and whether an image failed its check, after the images that remain (R408). -/
def bootRun : List (List Byte × List Byte) → List (List Byte) → List Byte → List (List Byte) × List Byte × Bool
  | [], log, d => (log, d, false)
  | (img, sig) :: r, log, d =>
    if sha256 Config.bootKey.1 == Config.bootKey.2 && pssOk Config.bootKey.1 img sig then
      bootRun r (log ++ [sha256 img]) (sha256 (d ++ sha256 img))
    else (log, d, true)

/-- The clusters of a die at the `n`-th cold boot: those whose test fails are RETIRED, 64 and 65 become the paddock and the
reserve, or the one of them left the paddock (R278). -/
def bootClusters (n die : Nat) (ks : Vector Cluster 66) : Vector Cluster 66 :=
  let bad (c : Nat) : Bool := Config.bootFails n die c
  let pad := if bad 64 then 65 else 64
  let role (c : Nat) : Role :=
    if bad c then .retired else if c < 64 then .visible else if c = pad then .paddock else .reserve
  ks.mapFinIdx (fun c k _ => { k with role := role c })

/-- Cold boot: the machine as at reset but for the agenda, the input pins, what the fabric can reach, host memory, what
the boot tests find, and the firmware measured (R278, R385, R388, R408). GTS counts from here (R346). -/
def State.coldBoot (s : State) (lost : Bool) : State :=
  let b := bootRun Config.bootImages [] Config.firstDigest
  let r := State.reset
  let dies := r.dies.mapFinIdx (fun d x _ => { x with clusters := bootClusters s.free d x.clusters })
  let s1 := { r with
    agenda := s.agenda, free := s.free + 1, auto := s.auto
    mem := s.mem.filter (fun c => isHost c.1)
    poison := s.poison.filter (fun p => isHost (16 * p))
    dies := dies
    links := r.links.mapFinIdx (fun p l _ => { l with cut := (s.link p).cut.map (fun (x : BitVec 12 × Nat) => (x.1, 0)) })
    power := { r.power with
      lost := lost, brn := s.power.brn, crookOn := s.power.crookOn, crookCount := if s.power.crookOn then 4 else 16 }
    mgmt := { r.mgmt with
      bootLog := b.1, digest := b.2.1, bootFailed := b.2.2
      dieFailed := (List.range 8).filter (fun d =>
        decide (((dies.toList.getD d {}).clusters.toList.filter (fun (k : Cluster) => k.role != Role.retired)).length < 2)) } }
  s1.checkHold

/-- COLD_BOOT: Cold boot tests every cluster, assigns roles and resets device state. (R278) -/
def execColdBoot (s : State) : Out :=
  .next (s.coldBoot false)

/-- SUPPLY_LOSS: Loss of supply in STATE 2 ends in a cold boot with LOST set. (R389) -/
def execSupplyLoss (s : State) : Out :=
  .next (s.coldBoot (s.power.state == 2))

/-- What the mailbox offers without a nonce: whether an image failed its check, the number of log entries, the boot log (R408; the
layout is a DESIGN CHOICE, notes/assumptions/63.md). -/
def Mgmt.mailbox (m : Mgmt) : List Byte := bytesOf 1 m.bootFailed.toNat ++ bytesOf 4 m.bootLog.length ++ m.bootLog.flatten

/-- ATTESTATION_REQUEST: The host obtains the boot log and a signed report with its nonce through the mailbox. (R408) -/
def execAttestationRequest (nonce : List Byte) (s : State) : Out :=
  .next
    (if nonce.length = 32 then
       let body := s.mgmt.digest ++ nonce
       let s1 := { s with mgmt := { s.mgmt with report := body ++ Config.sign body } }
       { s1 with hostRead := s1.mgmt.mailbox ++ s1.mgmt.report }
     else s)

/-! ## Brown-out (R386, R388) -/

/-- ENGINE_PARK_DEADLINE: At 1.5 ms into entry every engine still busy parks its descriptor. (R386) -/
def execEngineParkDeadline (s : State) : Out :=
  .next
    (if s.power.state = 1 && decide (s.power.entryGts + 1500000 ≤ s.gts) then
       { s with power := { s.power with engPark := true } }
     else s)

/-- Every command of Bobbin, COPY command and migration has ended, or the engines have parked; posted reductions and sync updates,
accesses of the parked streams, are performed at every die (R322, R342, R386). -/
def State.drained (s : State) : Bool :=
  s.cores.all (fun p => p.2.hart.postsDone) && s.syncMsgs.toList.all (·.isEmpty) &&
    (s.power.engPark ||
      (s.mig.run.isNone && s.cmds.all (fun c => cOp c.record != 2 || c.ended.isSome) &&
        s.cores.all (fun p => p.2.bobbin.all (·.ended))))

/-- Every sequencer and tile task has parked, and the swaps that were under way have moved the teams noted at entry
(R282, R386). -/
def State.stilled (s : State) : Bool :=
  s.cores.all (fun p => !p.2.resident || p.2.hart.allParked) &&
    s.dies.toList.all (fun d => d.clusters.toList.all (fun k => k.slots.toList.all (fun t => !t.placed))) &&
    s.teams.all (fun t => !t.2.atEntry || !(t.2.state == .parking || (t.2.state == .saved && t.2.target.isSome)))

/-- A core whose caches are invalidated and whose spools are parked (R240, R386). -/
def Core.retain (k : Core) : Core :=
  { k with
    icache := [], l1 := [], tlb := []
    hart := { k.hart with spools := k.hart.spools.map (fun (p : Spool) => { p with buf := [] }) } }

/-- BROWNOUT_HELD: Once streams are drained and caches written back, rails go to retention, DRAM self-refreshes and STATE becomes 2. (R386) -/
def execBrownoutHeld (s : State) : Out :=
  .next
    (if s.power.state = 1 && s.stilled && s.drained then
       { s with
         core := s.core.retain
         others := s.others.map (fun p => (p.1, p.2.retain))
         dies := s.dies.map (fun (d : Die) => { d with clusters := d.clusters.map (fun (k : Cluster) => { k with tlb := [] }) })
         links := s.links.map (Link.rest true)
         power := { s.power with state := 2 } }
     else s)

/-- BROWNOUT_EXIT: In STATE 2 with the hold gone, exit begins, checking retention and raising the rails. (R388) -/
def execBrownoutExit (s : State) : Out :=
  .next
    (if s.power.state = 2 && !s.power.brn && !s.power.hold then
       if Config.retentionFails s.power.entryGts then s.coldBoot true
       else { s with power := { s.power with state := 3 } }
     else s)

/-- A team resumes on its cores after a brown-out: its sequencers at their boundaries with every wait and held request
timed afresh, its tile tasks READY. A team that failed, or that a swap moves, stays PARKING (R29, R282, R388). -/
def State.resumeTeam (s : State) (tid : Nat) (t : Team) : State :=
  if t.state = TeamState.parking && !t.failing && !(s.cluster t.die t.cluster).leaving then
    let s1 := t.ids.foldl (fun s c =>
      let k := s.getCore c
      let h := k.hart.resume
      s.setCore c { k with hart := { h with
        spadWait := h.spadWait.map (fun (r : TagReq) => { r with since := s.gts }) } }) s
    let s2 := s1.setCluster t.die t.cluster (fun k => { k with slots := k.slots.map (fun x =>
      if x.state = .parked && x.team = tid then { x with state := .ready } else x) })
    { s2 with teams := assocSet s2.teams tid { t with state := .running, hotMove := false, atEntry := false } }
  else { s with teams := assocSet s.teams tid { t with atEntry := false } }

/-- BROWNOUT_RESUME: Engines and sequencers resume, BROWNOUT_RESUME is posted to every hart and STATE becomes 0. (R388) -/
def execBrownoutResume (s : State) : Out :=
  .next
    (if s.power.state = 3 then
       let s1 := s.teams.foldl (fun s t => s.resumeTeam t.1 t.2)
         { s with power := { s.power with engPark := false, state := 0 }, links := s.links.map (Link.rest false) }
       let s2 := s1.postAll (mkRec s1 9 0x8002 (word s.power.entryGts) (word s.gts))
       (s.teams.foldl (fun s t => s.goOn t.1) s2).checkHold
     else s)

end Sys2Proof.Machine
end

