-- ==== Sys2Proof/Machine/Die.lean ====
section
/-! DEFINITION. Sys2Proof/Machine/Die.lean: the management controller's scores and sparing (R255, R285, R351, R352), banks of L2 (R287-R293), tests and swaps of clusters (R279-R284), UCIe (R380), and page migration (R375-R379). -/

namespace Sys2Proof.Machine

/-! ## Suspicion scores (R255, R285, R351, R352, R380) -/

/-- SCORE_HALVING: Every hour of GTS all suspicion scores halve. (R352) -/
def execScoreHalving (s : State) : Out :=
  .next s.halved

/-- REMAP: At a remap point failed rows and suspect lane groups are replaced by spares. (R255) -/
def execRemap (c : CoreId) (s : State) : Out :=
  .next (if (s.getCore c).resident then s else s.remapCore c)

/-- BANK_SPARE: At a quiet point a suspect L2 bank is replaced by a spare. (R285) -/
def execBankSpare (die bank : Nat) (s : State) : Out :=
  .next
    (let u : ScoreUnit := .bank die bank
     let d := s.die die
     if !s.suspect u then s
     else if d.bankSpares < 2 then
       let map := match (List.range 32).find? (fun l => assocGet l d.bankMap l == bank) with
         | some l => assocSet d.bankMap l (32 + d.bankSpares)
         | none => d.bankMap
       (s.setDie die (fun d => { d with bankMap := map, bankSpares := d.bankSpares + 1 })).markReplaced u
     else (s.report u).markReplaced u)

/-- UCIE_LANE_REPAIR: A failing UCIe lane is repaired onto a redundant lane, and the repair is scored. (R380) -/
def execUcieLaneRepair (segment lane : Nat) (s : State) : Out :=
  .next
    (if s.mgmt.laneRepairs.contains (segment, lane) then s
     else ((s.repairLane segment lane).score (.ucie segment lane) 1).report (.ucie segment lane))

/-- UCIE_SEGMENT_FAILURE: A UCIe ring segment fails and its traffic is rerouted. (R380) -/
def execUcieSegmentFailure (segment : Nat) (s : State) : Out :=
  .next
    (if s.mgmt.segDown.contains segment then s
     else { s with mgmt := { s.mgmt with segDown := s.mgmt.segDown ++ [segment] } })

/-! ## Banks of L2 (R287, R288, R292, R293) -/

/-- HOT_COUNTER_HALVING: After 2^20 class-2 accesses of a die its hot-row frequency counters halve. (R293) -/
def execHotCounterHalving (die : Nat) (s : State) : Out :=
  .next
    (s.setDie die (fun d =>
      if 2 ^ 20 ≤ d.hotCount then
        { d with hot := d.hot.map (fun (x : Nat × Nat) => (x.1, x.2 / 2)), hotCount := d.hotCount - 2 ^ 20 }
      else d))

/-- The chip scratchpad addresses of a logical bank: base and size (R292). -/
def scratchBase (die bank : Nat) : Nat := 0xF_E000_0000_0000 + die * 0x1_0000_0000 + bank * 0x80_0000

/-- Memory without the words of a SCRATCH bank, which reads as zero (R288). -/
def State.clearBank (s : State) (die bank : Nat) : State :=
  let a := scratchBase die bank
  let out (x : Nat) : Bool := decide (x < a) || decide (a + 0x60_0000 ≤ x)
  { s with mem := s.mem.filter (fun c => out c.1), poison := s.poison.filter (fun p => out (16 * p)) }

/-- Lines that L2 no longer holds in the bank that R290 gives them are dropped: the lines of a bank that leaves CACHE, and those
that move between CACHE banks (R288). -/
def Die.rehash (d : Die) : Die := { d with l2 := d.l2.filter (fun x => d.dataBank x.1 == some x.2) }

/-- Hot rows beyond what the HOT banks hold are pinned no longer, the least recently used first, and lie in L2 as other lines do
(R288; which HOT bank holds a line is open: DESIGN CHOICE, notes/assumptions/12.md). -/
def Die.fitPins (d : Die) (n : Nat) : Die :=
  let out := d.pins.take (d.pins.length - bankLines * (d.banksOf 3).length)
  out.foldl (fun d p =>
    match d.dataBank p.1 with
    | some b => d.l2Take p.1 b n
    | none => d) { d with pins := d.pins.drop out.length }

/-- One bank takes its new role: the contents of a bank that is or was SCRATCH are zero (R288). -/
def State.changeRole (s : State) (die bank : Nat) (r : BitVec 3) : State :=
  let old := (s.die die).roles.toList.getD bank 0
  let s1 := if old = 1 || r = 1 then s.clearBank die bank else s
  { s1.setDie die (fun d =>
      if h : bank < 32 then (({ d with roles := d.roles.set bank r }).rehash).fitPins (Config.choose s.free) else d) with
    free := s1.free + 1 }

/-- The banks whose roles change, in ascending order, up to the first that holds a tile-operand line still in use; what waits
for room for a version tries again (R266, R288, R331). -/
def State.changeRoles (s : State) (die : Nat) : List (Nat × BitVec 3) → State
  | [] => s.setDie die (fun d => { d with bankBusy := false, newRoles := [] })
  | x :: r =>
    if (s.die die).opPins.any (fun p => decide (p.bank = x.1)) then s.setDie die (fun d => { d with newRoles := x :: r })
    else (s.changeRole die x.1 x.2).wakeVers.changeRoles die r

/-- BANK_ROLE_CHANGE: A BANKROLE write's role change proceeds bank by bank and clears BUSY when it ends. (R288) -/
def execBankRoleChange (die : Nat) (s : State) : Out :=
  .next (if (s.die die).bankBusy then s.changeRoles die (s.die die).newRoles else s)

/-! ## Tests and swaps of clusters (R279-R284) -/

/-- The next VISIBLE cluster of a die that is not leaving, after a number, wrapping from 65 to 0 (R281). -/
def State.nextVisible (s : State) (die after : Nat) : Option Nat :=
  ((List.range 66).map (fun k => (after + 1 + k) % 66)).find? (fun c =>
    (s.cluster die c).role == .visible && !(s.cluster die c).leaving)

/-- The cluster of a die in the PADDOCK role. -/
def State.paddock (s : State) (die : Nat) : Option Nat :=
  (List.range 66).find? (fun c => (s.cluster die c).role == .paddock)

/-- A cluster enters the PADDOCK role: it is cleared, and its test begins (R279, R282). -/
def State.beginTest (s : State) (die c : Nat) : State :=
  let s1 := s.setCluster die c (fun k => { ({} : Cluster) with role := .paddock, temp := k.temp, thermal := k.thermal })
  let s2 := (List.range 8).foldl (fun s k => s.setCore ⟨die, c, k⟩ { s.getCore ⟨die, c, k⟩ with
    resident := false, hart := {}, icache := [], l1 := [], tlb := [], opBuf := [], carry := 0, compare := 0 }) s1
  s2.setDie die (fun d => { d with paddockReady := false, testBegan := s.gts, testFaults := [] })

/-- A swap begins: the paddock, if there is one to take over, becomes VISIBLE with the outgoing cluster's PATTERN; the
outgoing cluster is leaving; its teams are asked to park (R280, R283). -/
def State.beginSwap (s : State) (die out : Nat) (inn : Option Nat) (failed : Nat) : State :=
  let pat := (s.cluster die out).pattern
  let s1 := match inn with
    | some p => s.setCluster die p (fun k => { k with role := .visible, leaving := false, pattern := pat })
    | none => s
  let s2 := (s1.setCluster die out (fun k => { k with leaving := true })).setDie die (fun d =>
    { d with swap := some { out := out, inn := inn, failed := failed }, paddockReady := false })
  (s2.teamsOn die out).foldl (fun s t => s.askTeam t.1 none false) s2

/-- The suspect cluster of a die that is swapped first: the highest score, then the lowest number (R281, R282). -/
def State.suspectCluster (s : State) (die : Nat) : Option Nat :=
  (List.range 66).foldl (fun (best : Option Nat) c =>
    if (s.cluster die c).role == .visible && !(s.cluster die c).leaving && s.clusterSuspect die c then
      match best with
      | none => some c
      | some b => if s.clusterScore die b < s.clusterScore die c then some c else some b
    else best) none

/-- A swap may begin on a die: the paddock is ready and none is under way (R281, R282). -/
def State.maySwap (s : State) (die : Nat) : Bool :=
  (s.die die).paddockReady && (s.die die).swap.isNone && s.power.state == 0

/-- TIMED_ROTATION: 60 s after the last swap, the next visible cluster is swapped with the ready paddock. (R281) -/
def execTimedRotation (die : Nat) (s : State) : Out :=
  .next
    (let d := s.die die
     let due := match d.lastSwapEnd with | some t => decide (t + 60000000000 ≤ s.gts) | none => true
     if due && s.maySwap die && (s.suspectCluster die).isNone then
       match s.nextVisible die d.rotPtr, s.paddock die with
       | some out, some p => (s.beginSwap die out (some p) 0).setDie die (fun d => { d with rotPtr := out })
       | _, _ => s
     else s)

/-- SUSPICION_SWAP: A cluster whose score reaches 64 is swapped with the paddock once it is ready. (R281) -/
def execSuspicionSwap (die : Nat) (s : State) : Out :=
  .next
    (if s.maySwap die then
       match s.suspectCluster die, s.paddock die with
       | some out, some p =>
         let units : List ScoreUnit := .cluster die out :: (List.range 8).map (fun k => .core ⟨die, out, k⟩)
         (units.filter s.suspect).foldl State.markReplaced (s.beginSwap die out (some p) 0)
       | _, _ => s
     else s)

/-- The visible count has fallen: TOPO_CHANGE to every hart (R284). -/
def State.topoChange (s : State) (die failed : Nat) : State :=
  s.postAll (mkRec s 5 0x8000
    (word (s.clCount % 2 ^ 10 + die % 16 * 2 ^ 16 + (s.die die).visible % 256 * 2 ^ 24 + failed % 128 * 2 ^ 32)) (word s.gts))

/-- Nothing of the harts that were on a cluster is left to perform there: posted reductions and engine commands (R244, R304). -/
def State.clusterIdle (s : State) (d c : Nat) : Bool :=
  (List.range 8).all (fun k =>
    let x := s.getCore ⟨d, c, k⟩
    x.hart.postsDone && x.bobbin.isEmpty && x.xcopy.isEmpty)

/-- SWAP_END: When the last team has left the outgoing cluster, it becomes the paddock. (R280) -/
def execSwapEnd (die : Nat) (s : State) : Out :=
  .next
    (match (s.die die).swap with
     | some w =>
       if (s.teamsOn die w.out).isEmpty && s.clusterIdle die w.out && s.power.state == 0 then
         let s1 := (s.beginTest die w.out).setDie die (fun d => { d with swap := none, lastSwapEnd := some s.gts })
         if w.inn.isNone then s1.topoChange die w.failed else s1
       else s
     | none => s)

/-- A cluster whose test failed is retired: the reserve becomes the paddock, or a swap without a paddock begins; a die
with fewer than two working clusters reports itself failed (R283). -/
def State.retire (s : State) (die c : Nat) : State :=
  let s1 := s.setCluster die c (fun k => { k with role := .retired })
  let working := ((s1.die die).clusters.toList.filter (fun (k : Cluster) => k.role != Role.retired)).length
  let m := s1.mgmt
  let s2 := if working < 2 && !m.dieFailed.contains die then
      { s1 with mgmt := { m with dieFailed := m.dieFailed ++ [die] } } else s1
  match (List.range 66).find? (fun c => (s2.cluster die c).role == .reserve) with
  | some r => s2.beginTest die r
  | none =>
    match s2.nextVisible die (s2.die die).rotPtr with
    | some out => s2.beginSwap die out none c
    | none => s2

/-- A lane group or a row that a test has found faulty is remapped to a spare, or its core is scored for want of one; with it,
whether a spare was left (R255, R279). -/
def State.remapFault (s : State) (f : CoreId × Nat × Option Nat) : State × Bool :=
  let k := s.getCore f.1
  match f.2.2 with
  | none =>
    if (List.range 256).all (fun l => k.physGroup l != f.2.1) then (s, true)
    else (s.retireGroup f.1 f.2.1, decide (k.spareGroups < 2))
  | some r =>
    (s.retireRow f.1 (f.2.1, r), decide ((k.spareRows.filter (fun y => decide (y.1 = f.2.1))).length < 16))

/-- The faults of a test are remapped; with it, whether no spare was missing (R279). -/
def State.remapFaults (s : State) : List (CoreId × Nat × Option Nat) → State × Bool
  | [] => (s, true)
  | f :: fs =>
    let r := s.remapFault f
    let q := r.1.remapFaults fs
    (q.1, r.2 && q.2)

/-- TEST_RESULT: The paddock test ends with a verdict, reported as TEST_RESULT; a failure retires the cluster. (R279) -/
def execTestResult (die : Nat) (verdict : BitVec 2) (s : State) : Out :=
  .next
    (match s.paddock die with
     | some c =>
       if (s.die die).paddockReady || s.power.state != 0 then s
       else
         let mended := if verdict = 1 then s.remapFaults (s.die die).testFaults else (s, false)
         let pass := mended.2
         let s1 := mended.1.postHost (mkRec s 11 0x8000 (word (die % 16 * 2 ^ 16 + c * 2 ^ 32 + (if pass then 2 ^ 40 else 0)))
           (word (s.die die).testBegan))
         if pass then s1.setDie die (fun d => { d with paddockReady := true, testFaults := [] }) else s1.retire die c
     | none => s)

/-! ## Page migration (R375-R379) -/

/-- The leaves recorded that map a part of a range of frames (R376). -/
def State.leavesOn (s : State) (frame size : Nat) : List (Nat × Nat × Nat) :=
  s.mig.rmap.filter (fun r => decide (r.2.1 < frame + size) && decide (frame < r.2.1 + r.2.2))

/-- A size of page that may move. -/
def bigPage : Nat := 0x20_0000

/-- The frame that a leaf entry names. -/
def leafFrame (e : Word) : Nat := field e 8 44 * 256

/-- The leaf of a 2 MiB frame that may move of itself: the one recorded, still valid and naming the frame (R376). -/
def State.autoLeaf (s : State) (frame : Nat) : Option Nat :=
  match s.leavesOn frame bigPage with
  | [(leaf, f, size)] =>
    let e := physWord s leaf
    if f = frame && size = bigPage && bit e 0 && !bit e 56 && leafFrame e = frame then some leaf else none
  | _ => none

/-- The free frames of a tier for a page size (R376). -/
def State.freeFrames (s : State) (tier size : Nat) : List Nat :=
  (s.mig.free.filter (fun u => decide (tierOf (0x1_0000 * u) = tier) && decide (0x1_0000 * u % size = 0) &&
    (unitsIn (0x1_0000 * u) size).all (fun v => s.mig.free.contains v))).map (fun u => 0x1_0000 * u)

/-- The count of a frame (R376). -/
def State.frameCount (s : State) (frame : Nat) : Nat := assocGet 0 s.mig.counts (frame / bigPage)

/-- The frames of a tier that may move of themselves. -/
def State.autoFrames (s : State) (tier : Nat) : List Nat :=
  ((s.mig.rmap.map (fun r => r.2.1)).eraseDups).filter (fun f =>
    decide (f < 0x500_0000_0000) && decide (tierOf f = tier) && (s.autoLeaf f).isSome)

/-- The element of a list that comes first in an order. -/
def bestOf (before : Nat → Nat → Bool) : List Nat → Option Nat
  | [] => none
  | x :: r =>
    match bestOf before r with
    | none => some x
    | some y => if before y x then some y else some x

/-- A request that the engine makes itself. -/
def autoReq (frame : Nat) (tier : BitVec 2) : MigReq :=
  { va := 0, ctx := 0, tier := tier, notify := false, core := ⟨0, 0, 0⟩, team := 0, hart := 0, user := false
    auto := some frame }

/-- The engine's own request for a frame is in its queue, or its migration in progress. -/
def State.autoPending (s : State) (r : MigReq) : Bool :=
  s.mig.reqs.any (fun x => x.auto == r.auto) || (match s.mig.run with | some m => m.req.auto == r.auto | none => false)

/-- MIGRATION_SCAN: Every 1 ms the migration engine promotes hot LPDDR-6 frames and demotes cold HBM4 frames. (R376) -/
def execMigrationScan (s : State) : Out :=
  .next
    (if s.due 3 1000000 && s.power.state == 0 then
       let s1 := s.mark 3
       let cold := bestOf (fun a b => decide (s.frameCount a < s.frameCount b)) (s.autoFrames 0)
       let least := match cold with | some f => s.frameCount f | none => 0
       match bestOf (fun a b => decide (s.frameCount b < s.frameCount a)) (s.autoFrames 1) with
       | some hot =>
         if s.frameCount hot < 2 * least then s1
         else
           let reqs : List MigReq := match s.freeFrames 0 bigPage, cold with
             | _ :: _, _ => [autoReq hot 0]
             | [], some f => [autoReq f 1, autoReq hot 0]
             | [], none => []
           { s1 with mig := { s1.mig with reqs := s1.mig.reqs ++ reqs.filter (fun r => !s.autoPending r) } }
       | none => s1
     else s)

/-- FRAME_COUNTER_HALVING: Every 1 ms all frame access counters halve. (R376) -/
def execFrameCounterHalving (s : State) : Out :=
  .next
    (if s.due 4 1000000 then
       { s with mig := { s.mig with counts := s.mig.counts.map (fun (x : Nat × Nat) => (x.1, x.2 / 2)) } }.mark 4
     else s)

/-- The page of a request: leaf, entry, size; none where it is not migratable (R376, R378). -/
def State.pageOf (s : State) (r : MigReq) : Option (Nat × Word × Nat) :=
  match r.auto with
  | some f => (s.autoLeaf f).map (fun l => (l, physWord s l, bigPage))
  | none =>
    match leafOf s r.ctx r.va with
    | .none => none
    | .leaf a e size =>
      let f := leafFrame e
      if bigPage < size || decide (0x500_0000_0000 ≤ f) || decide (1 < (s.leavesOn f size).length) || (r.user && !bit e 4)
      then none else some (a, e, size)

/-- No cached translation through a leaf remains in the package (R377). -/
def State.dropLeaf (s : State) (leaf : Nat) : State :=
  let keep (t : TlbEntry) : Bool := decide (t.leaf ≠ leaf)
  { s with
    core := tlbDrop keep s.core
    others := s.others.map (fun p => (p.1, tlbDrop keep p.2))
    dies := s.dies.map (fun (d : Die) => { d with
      clusters := d.clusters.map (fun (k : Cluster) => { k with tlb := k.tlb.filter keep }) }) }

/-- The hot rows of a range of frames are unpinned (R293). -/
def State.unpinHot (s : State) (frame size : Nat) : State :=
  { s with dies := s.dies.map (fun (d : Die) => { d with
      pins := d.pins.filter (fun p => decide (64 * p.1 < frame) || decide (frame + size ≤ 64 * p.1)) }) }

/-- A tile-operand line of a range of frames is pinned (R266). -/
def State.opPinned (s : State) (frame size : Nat) : Bool :=
  s.dies.toList.any (fun d => d.opPins.any (fun p => decide (frame ≤ 64 * p.line) && decide (64 * p.line < frame + size)))

/-- Stores a leaf. -/
def State.storeLeaf (s : State) (leaf : Nat) (e : Word) : State := s.storeAt none (.phys leaf) (bytesOf 8 e.toNat)

/-- MIGRATION: The engine starts the next migration: sets MIG, removes translations, waits for accesses and copies the page; a page
with pinned tile-operand lines waits for them (R266). (R377) -/
def execMigration (s : State) : Out :=
  .next
    (match s.mig.reqs with
     | r :: rest =>
       if s.mig.run.isSome || s.power.state != 0 then s
       else
         let s1 := { s with mig := { s.mig with reqs := rest } }
         match s.pageOf r with
         | none => s1.migDone r 2 (s1.tierNow r)
         | some (leaf, e, size) =>
           let f := leafFrame e
           if s.opPinned f size then s
           else if tierOf f = r.tier.toNat then s1.migDone r 1 (tierOf f)
           else
             let free := s.freeFrames r.tier.toNat size
             if free.isEmpty then s1.migDone r 4 (tierOf f)
             else
               let dst := free.getD (Config.pickFrame free % free.length) 0
               let s2 := ((s1.storeLeaf leaf (e ||| 1#64 <<< 56)).dropLeaf leaf).unpinHot f size
               { s2 with mig := { s2.mig with
                   free := s2.mig.free.filter (fun u => !(unitsIn dst size).contains u)
                   run := some { leaf := leaf, size := size, src := f, dst := dst, req := r } } }
     | [] => s)

/-- Memory with a range of bytes copied to another range. -/
def memCopy (m : List Host.Cell) (src dst n : Nat) : List Host.Cell :=
  m.filter (fun c => decide (c.1 < dst)) ++
    ((m.filter (fun c => decide (src ≤ c.1) && decide (c.1 < src + n))).map (fun (c : Host.Cell) => (c.1 - src + dst, c.2))) ++
    m.filter (fun c => decide (dst + n ≤ c.1))

/-- A page copied with its poison (R350, R377); no cache keeps a line of either frame (R321). -/
def State.copyPage (s : State) (src dst n : Nat) : State :=
  let inside (a b : Nat) : Bool := decide (b ≤ a) && decide (a < b + n)
  let keep (l : Nat) : Bool := !inside (64 * l) src && !inside (64 * l) dst
  let drop (k : Core) : Core :=
    { k with l1 := k.l1.filter (fun x => keep x.1), icache := k.icache.filter (fun x => keep x.1) }
  { s with
    mem := memCopy s.mem src dst n
    poison := s.poison.filter (fun p => !inside (16 * p) dst) ++
      (s.poison.filter (fun p => inside (16 * p) src)).map (fun p => p - src / 16 + dst / 16)
    core := drop s.core
    others := s.others.map (fun p => (p.1, drop p.2))
    dies := s.dies.map (fun (d : Die) => { d with l2 := d.l2.filter (fun x => keep x.1) }) }

/-- MIGRATE_DONE: A page copy ends, the leaf is rewritten and MIGRATE_DONE is posted when requested. (R379) -/
def execMigrateDone (s : State) : Out :=
  .next (if s.asleep then s else
    (match s.mig.run with
     | some m =>
       if s.power.engPark then s
       else
         let e := physWord s m.leaf
         let e1 := (e &&& ~~~(0x0100_0000_0000_0000#64 ||| 0x000F_FFFF_FFFF_FF00#64)) ||| word (m.dst / 256 * 256)
         let s1 := (s.copyPage m.src m.dst m.size).storeLeaf m.leaf e1
         let s2 := { s1 with mig := { s1.mig with
           run := none
           free := s1.mig.free ++ unitsIn m.src m.size
           rmap := s1.mig.rmap.map (fun (x : Nat × Nat × Nat) =>
             if x.1 = m.leaf && x.2.1 = m.src then (x.1, m.dst, x.2.2) else x) } }
         (List.range 64).foldl (fun s q => s.settleQueue q) (s2.migDone m.req 0 (tierOf m.dst))
     | none => s))

end Sys2Proof.Machine
end

