-- ==== Sys2Proof/Machine/Record.lean ====
section
/-! DEFINITION. Sys2Proof/Machine/Record.lean: the frame of the vector instructions that record VSTART and VRSTATE: rows
and sub-strips, where they stop, the pending destination, and resumption (R137, R163, R169, R175, R176, R238). -/

namespace Sys2Proof.Machine

/-! ## Stopping and completing (R176, R224, R238) -/

/-- A plane with ones in the lanes of a thread's elements below a bound, mirrors included. -/
def belowLanes (s : State) (n : Nat) : Plane := mirrored s.hart (laneSet (laneBase s.hart s.who) (List.range n))

/-- The planes that keep a register, as they stand when the instruction executes: a source that the prefix marks last used
reads as freed, so that a resumed run keeps what an uninterrupted one keeps (R49, R119, R175, R176; DEDUCED,
notes/assumptions/27.md). -/
def keptNow (s : State) (va : Option (BitVec 5)) (r : BitVec 5) (wd : Nat) (sd : Bool) : List Plane :=
  keptPlanes ((freeLast s.est va none).vreg r) wd sd

/-- Planes of an interrupted run in the lanes of elements below a bound, which it has processed, and `now` in the others
(R176). -/
def resumePlanes (s : State) (done now : List Plane) (sd : Bool) (bound : Nat) : List Plane :=
  let old := planesAt done now.length sd
  now.mapIdx (fun b p => mergePlane p (old.getD b 0) (belowLanes s bound))

/-- The pending destination of the instruction that resumes at VSTART = `start` (R176). -/
def resumed (s : State) (start : Nat) : Option Pending := if start = 0 then none else s.est.pending

/-- The planes that an instruction's results are written into: those of its pending destination below `bound`, elsewhere
those that keep the register, the old bits also below `start` where no pending destination is left (DESIGN CHOICE,
notes/assumptions/68.md); 0 for a write spool (R119, R176, R237). -/
def destPlanes (s : State) (i : VIn) (va : Option (BitVec 5)) (vd : BitVec 5) (wd : Nat) (sd : Bool)
    (start bound : Nat) : List Plane :=
  let now := if i.dst.isSome then List.replicate wd 0 else keptNow s va vd wd sd
  match (resumed s start).filter (fun p => p.vd == vd) with
  | some p => resumePlanes s p.planes now sd bound
  | none => now

/-- As `destPlanes`, for the per-row register of a reduction (R169, R176). -/
def rowPlanes (s : State) (va : Option (BitVec 5)) (vrow : BitVec 5) (wd : Nat) (sd : Bool) (start : Nat) : List Plane :=
  let now := keptNow s va vrow wd sd
  match resumed s start with
  | some p => if p.perRow.isEmpty then now else resumePlanes s p.perRow now sd start
  | none => now

/-- The pool rows of an instruction's `n` fresh planes: those of its pending destination when it resumes, else free ones
(R113, R176). -/
def destRows (s : State) (start n : Nat) : List Nat :=
  match (resumed s start).filter (fun p => decide (p.rows.length = n)) with
  | some p => p.rows
  | none => { s.est with pending := none }.freshRows n

/-- `n` free rows of the pool beside some rows. -/
def EState.freshBeside (x : EState) (rows : List Nat) (n : Nat) : List Nat :=
  lowRows (rows.foldl (fun a r => a ||| (1 <<< r)) (usedRows x)) 640 0 n

/-- The values that a write spool appends for results of a width (R237). -/
def spoolVals (s : State) (n wd : Nat) (sd : Bool) (res : List (Nat × Nat)) : List (Nat × Nat) :=
  res.map (fun e => (e.1, truncTo (s.hart.spool n).width (intVal wd sd e.2)))

/-- The state in which an instruction stands interrupted at VSTART = `at'`: its fresh rows are its pending destination,
and the streams stand at that element (R176, R238). -/
def interrupted (s : State) (i : VIn) (start at' : Nat) (vd : BitVec 5) (planes perRow : List Plane)
    (vrstate : Word) (flags : BitVec 4) : State :=
  let x := s.est
  let ps := planes ++ perRow
  let rows := destRows s start ps.length
  let s1 := s.setEst
    { x with
      vstart := BitVec.ofNat 15 at', vrstate := vrstate, fstat := x.fstat ||| flags
      pending := if ps.isEmpty then none else some { vd := vd, planes := planes, perRow := perRow, rows := rows } }
  (s1.setHart (s1.hart.writeRows (partLanes s1.hart s1.who) rows ps)).passed (srcSpools [i.a, i.b] ++ i.dst.toList) start
    (at' - start)

/-- The state once the instruction has written everything: prefix used up, streams at the end of the strip, no pending
destination, VSTART and VRSTATE 0 (R49, R176, R237). -/
def completed (s : State) (i : VIn) (start : Nat) (flags : BitVec 4) : State :=
  let x := s.est
  let s1 := s.setEst
    { x with
      fstat := x.fstat ||| flags, pfx := { x.pfx with pend := false }, vstart := 0, vrstate := 0, pending := none }
  s1.consume (srcSpools [i.a, i.b] ++ i.dst.toList) (x.vl - start)

/-- Commits the planes of a register destination in its rows, or nothing for a write spool, and makes the prefix's copy in
rows of its own; sources marked last used are freed (R49, R113, R249). -/
def commitDest (s : State) (i : VIn) (va : Option (BitVec 5)) (vd : BitVec 5) (ps : List Plane) (sd : Bool)
    (rows copy : List Nat) : State :=
  let s1 := s.setEst { freeLast s.est va none with pending := none }
  let s2 := if i.dst.isSome then s1 else s1.commitReg vd ps sd rows
  copyDst s2 i vd ps ps.length sd copy

/-- A forced pre-emption lands on the instruction: it stops at an element where it may stop, is parked, and has not executed
(R103, R175). -/
def forcedStop (s : State) : Res := .go (s.setThr { s.thr with run := .parked, cut := none })

/-! ## Rows and sub-strips (R136, R163, R175) -/

/-- A row begins at an element (R163). -/
def rowBegin (s : State) (en : Bool) (j : Nat) : Bool := j == 0 || (en && seamAt s j)

/-- The first element of the row that holds an element. -/
def rowStart (s : State) (en : Bool) : Nat → Nat
  | 0 => 0
  | j + 1 => if rowBegin s en (j + 1) then j + 1 else rowStart s en j

/-- The parts of rows within [lo, hi), ascending (R163). -/
def segments (s : State) (en : Bool) (lo hi : Nat) : List (Nat × Nat) :=
  let cuts := ((List.range (hi - lo)).map (· + lo)).filter (fun j => j == lo || rowBegin s en j)
  cuts.zip (cuts.drop 1 ++ [hi])

/-- What an instruction computes, with its running state in the layout of VRSTATE: the state a row starts with, the
step over active elements of one row in one sub-strip (`more`: the row goes on after it), the row's result, given whether
it has an active element, and the widths of its two destinations (R135, R137, R138, R169, R175); `bound` gives the elements
of vd that are written and processed at a running state and an element, `reads` the element of va that the `k`-th
active element `j` reads, and `writes` the elements of vd that are written for some active ones. -/
structure RecOp where
  init : Word
  seg : Word → Nat → List Nat → Bool → Word × BitVec 4 × List (Nat × Nat)
  row : Bool → Word → Nat → Nat × BitVec 4 := fun _ _ _ => (0, 0)
  rowW : Nat := 0
  rowSd : Bool := false
  width : Nat := 0
  sd : Bool := false
  rows : Bool := true
  bound : Word → Nat → Nat := fun _ n => n
  reads : Nat → Nat → Nat := fun _ j => j
  writes : List Nat → List Nat := fun js => js

/-- What has been computed so far: running state, flags, elements of vd, elements of the per-row register. -/
structure RecAcc where
  st : Word
  flags : BitVec 4 := 0
  outs : List (Nat × Nat) := []
  perRow : List (Nat × Nat) := []

/-- One part of a row: a row starts from `init` at its first element, and the state it ends with stays until then (R138, R175;
DEDUCED, notes/assumptions/59.md). -/
def recSeg (s : State) (i : VIn) (o : RecOp) (en : Bool) (c : Nat) (acc : RecAcc) (seg : Nat × Nat) : RecAcc :=
  let vl := s.est.vl
  let ends := decide (seg.2 = vl) || rowBegin s en seg.2
  let st := if rowBegin s en seg.1 then o.init else acc.st
  let r := o.seg st c (i.act.filter (fun j => decide (seg.1 ≤ j) && decide (j < seg.2))) (!ends)
  let first := rowStart s en (seg.2 - 1)
  let w := o.row (i.act.any (fun j => decide (first ≤ j) && decide (j < seg.2))) r.1 first
  { st := r.1
    flags := acc.flags ||| r.2.1 ||| (if en && ends then w.2 else 0)
    outs := acc.outs ++ r.2.2
    perRow := acc.perRow ++ (if en && ends then [(seg.2 - 1, w.1)] else []) }

/-- One sub-strip (R136). -/
def recSub (s : State) (i : VIn) (o : RecOp) (en : Bool) (acc : RecAcc) (c : Nat) : RecAcc :=
  (segments s en (1024 * c) (min s.est.vl (1024 * c + 1024))).foldl (recSeg s i o en c) acc

/-- How a run over sub-strips ends: all done, a position of a write spool fails in sub-strip `c`, or a migration makes
it wait. -/
inductive RecEnd
  | done (s : State) (acc : RecAcc)
  | bad (s : State) (acc : RecAcc) (c n : Nat) (e : SpEl)
  | stall

/-- Runs sub-strips in order; the positions of a write spool are translated before the sub-strip counts (R175, R238). -/
def recLoop (s : State) (i : VIn) (o : RecOp) (en : Bool) (start : Nat) : List Nat → RecAcc → RecEnd
  | [], acc => .done s acc
  | c :: cs, acc =>
    let acc' := recSub s i o en { acc with outs := [] } c
    let next := { acc' with outs := acc.outs ++ acc'.outs }
    match i.dst with
    | none => recLoop s i o en start cs next
    | some n =>
      match checkWrites s s.loc n start (acc'.outs.map (·.1)) with
      | .ok s' => recLoop s' i o en start cs next
      | .bad _ e s' => .bad s' acc c n e
      | .stall _ _ => .stall

/-- The sub-strips from `start` up to a bound. -/
def subStrips (start last : Nat) : List Nat := (List.range last).filter (fun c => decide (start / 1024 ≤ c))

/-- Why a recording instruction stops before its end: an element's fault or poison in a spool, a check of the lanes, or a
forced pre-emption (R175). -/
inductive RecStop
  | spool (n : Nat) (e : SpEl)
  | lanes (c : Cause) (j : Nat)
  | force

/-- Traps at VSTART, or parks (R97, R103, R238, R251). -/
def RecStop.res (s : State) (at' : Nat) : RecStop → Res
  | .spool n e => spoolTrap s n at' e
  | .lanes c j => .trap s c (word j)
  | .force => forcedStop s

/-- The sub-strip at which a source's faulted element or a forced pre-emption stops an instruction (R103, R137, R175). -/
def firstStop (start vl : Nat) (fault : Option (Nat × Nat × SpEl)) (cut : Option Nat) : Option (Nat × RecStop) :=
  let f := fault.map (fun x => (x.1 / 1024, RecStop.spool x.2.1 x.2.2))
  match (cut.map (fun n => max (start / 1024) (n / 1024))).filter (fun c => decide (1024 * c < vl)) with
  | none => f
  | some c =>
    match f with
    | some x => if x.1 ≤ c then some x else some (c, .force)
    | none => some (c, .force)

/-- The running state with which an instruction stops before sub-strip `c`: that of the row in progress, which is the state a row
starts with where the row before ends there (R137, R138, R175; DEDUCED, notes/assumptions/59.md). -/
def stopState (s : State) (o : RecOp) (en : Bool) (c : Nat) (acc : RecAcc) : Word :=
  if rowBegin s en (1024 * c) then o.init else acc.st

/-- The state after the elements below sub-strip `c` have been processed, at which the instruction stops (R175, R176). -/
def recStopped (s : State) (i : VIn) (o : RecOp) (va : BitVec 5) (vd : Option (BitVec 5)) (en : Bool) (start c : Nat)
    (acc : RecAcc) : State :=
  let vrow := BitVec.ofNat 5 (s.est.seamctl.toNat / 2)
  let s1 := match i.dst with
    | some n => appendWrites s s.loc n start (spoolVals s n o.width o.sd acc.outs)
    | none => s
  let ps := match vd with
    | some r =>
      writeElems s.hart i.base
        (destPlanes s i (some va) r o.width o.sd start (o.bound (if start = 0 then o.init else s.est.vrstate) start)) acc.outs
    | none => []
  let rs := if en && o.rowW != 0 then
      writeElems s.hart i.base (rowPlanes s (some va) vrow o.rowW o.rowSd start) acc.perRow
    else []
  interrupted s1 i start (1024 * c) (vd.getD vrow) ps rs (stopState s o en c acc) acc.flags

/-- The state after the last sub-strip: write spools appended, destinations committed, what the instruction holds given up
(R49, R169, R176). -/
def recDone (s : State) (i : VIn) (o : RecOp) (va : BitVec 5) (vd : Option (BitVec 5)) (en : Bool) (start : Nat)
    (acc : RecAcc) : State :=
  let vrow := BitVec.ofNat 5 (s.est.seamctl.toNat / 2)
  let perRow := en && o.rowW != 0 && s.est.vl != 0
  let ps := match vd with
    | some r =>
      writeElems s.hart i.base
        (destPlanes s i (some va) r o.width o.sd start (o.bound (if start = 0 then o.init else s.est.vrstate) start)) acc.outs
    | none => []
  let rp := if perRow then
      writeElems s.hart i.base (rowPlanes s (some va) vrow o.rowW o.rowSd start) acc.perRow
    else []
  let rows := destRows s start (ps.length + rp.length)
  let copy := s.est.freshBeside rows ps.length
  let s1 := match i.dst with
    | some n => appendWrites s s.loc n start (spoolVals s n o.width o.sd acc.outs)
    | none => s
  let s2 := match vd with
    | some r => commitDest s1 i (some va) r ps o.sd (rows.take ps.length) copy
    | none => s1.setEst { freeLast s1.est (some va) none with pending := none }
  completed (if perRow then s2.commitReg vrow rp o.rowSd (rows.drop ps.length) else s2) i start acc.flags

/-- The run of a recording instruction over its sub-strips up to the one at which it must stop; a check of the lanes may
stop it earlier (R175, R251). Gives where and why it stops, if it does, with what it has computed. -/
def recRun (s : State) (i : VIn) (o : RecOp) (en checked : Bool) (u : LaneUse) (start : Nat)
    (stop : Option (Nat × RecStop)) : Option (State × RecAcc × Option (Nat × RecStop)) :=
  let last := match stop with
    | some x => max (start / 1024) x.1
    | none => (s.est.vl + 1023) / 1024
  let begin' : RecAcc := { st := if start = 0 then o.init else s.est.vrstate }
  let r : Option (State × RecAcc × Nat × Option RecStop) :=
    match recLoop s i o en start (subStrips start last) begin' with
    | .stall => none
    | .bad s1 acc c n e => some (s1, acc, c, some (.spool n e))
    | .done s1 acc => some (s1, acc, last, stop.map (·.2))
  match r with
  | none => none
  | some (s1, acc, c, why) =>
    let own (j : Nat) : Bool := decide (start ≤ j) && decide (j < 1024 * c)
    let read := ((u.act.mapIdx (fun k j => (k, j))).filter (fun x => own x.2)).map (fun x => o.reads x.1 x.2)
    match laneCheck s1 checked { u with src := read, act := u.act.filter own } with
    | (none, s2) => some (s2, acc, why.map (fun w => (c, w)))
    | (some (e, j), s2) =>
      let c' := max (start / 1024) (j / 1024)
      match recLoop s2 i o en start (subStrips start c') begin' with
      | .done s3 acc' => some (s3, acc', some (c', .lanes e j))
      | _ => none

/-- The elements at which a per-row register takes a result: the last of each row (R169). -/
def rowEnds (s : State) (en : Bool) : List Nat :=
  (List.range s.est.vl).filter (fun j => decide (j + 1 = s.est.vl) || rowBegin s en (j + 1))

/-- What the lanes of a recording instruction read: as any instruction does, and the bits that a per-row register keeps (R169,
R249). -/
def recUse (w : BitVec 32) (s : State) (p : BitVec 6) (va : BitVec 5) (vd : Option (BitVec 5)) (o : RecOp) (en : Bool)
    (act : List Nat) : LaneUse :=
  let u := laneUse s { word := w, pm := p, out := some (o.writes act) } (some va) none vd false act
  let vrow := BitVec.ofNat 5 (s.est.seamctl.toNat / 2)
  { u with
    act := act
    kept := u.kept ++ (if en && o.rowW != 0 && s.est.vl != 0 then [(vrow, o.rowW, rowEnds s en)] else []) }

/-- A reduction, scan, compaction or expansion (R165-R176). `dests` are its scalar destinations; `done` adds to the
state what the instruction writes besides its vector destinations, given the final running state and whether the row
that holds element VL - 1 has an active element. `checked`: the lanes check its results (R248). -/
def record (w : BitVec 32) (srcs : List (BitVec 5)) (va : BitVec 5) (vd : Option (BitVec 5)) (p : BitVec 6)
    (checked : Bool) (dests : List (BitVec 5)) (op : State → VIn → RecOp)
    (done : State → RecOp → Word → Bool → State × BitVec 4) (s : State) : Out :=
  issue w (srcs.map (fun r => (r, 0))) s (fun s =>
    if s.thr.pendingReg dests || (!dests.isEmpty && !s.thr.fillRoom) then .stall s
    else
      let start := s.est.vstart.toNat / 1024 * 1024
      withSrc s start (some va) (fun a => withDst s vd (fun dst =>
        let i : VIn := { a := a, dst := dst, act := actives s p, base := laneBase s.hart s.who }
        let o := op s i
        let en := o.rows && s.est.seamctl.getLsbD 0
        let vl := s.est.vl
        let u := recUse w s p va vd o en i.act
        let stop := firstStop start vl (firstFault [a] (i.act.filter (fun j => decide (start ≤ j)))) s.thr.cut
        match recRun s i o en checked u start stop with
        | none => .stall s
        | some (s1, acc, some (c, why)) => why.res (recStopped s1 i o va vd en start c acc) (1024 * c)
        | some (s1, acc, none) =>
          let some' := decide (vl ≠ 0) && i.act.any (fun j => decide (rowStart s1 en (vl - 1) ≤ j))
          let d := done (recDone s1 i o va vd en start acc) o acc.st some'
          .adv (d.1.setEst { d.1.est with fstat := d.1.est.fstat ||| d.2 }))))

end Sys2Proof.Machine
end

