-- ==== Sys2Proof/Machine/VInt.lean ====
section
/-! DEFINITION. Sys2Proof/Machine/VInt.lean: vector integer arithmetic, slides, indices and compares (R146-R156, R174, R192). -/

namespace Sys2Proof.Machine

/-- The integer value of side A at an element (R146). -/
def valA (x : EState) (i : VIn) (j : Nat) : Int := intVal x.wa x.sa (i.rawA x.wa x.sa j)

/-- The integer value of side B at an element (R146). -/
def valB (x : EState) (i : VIn) (j : Nat) : Int := intVal x.wb x.sb (i.rawB x.wb x.sb j)

/-- The scalar in the B role (R151). -/
def valS (x : EState) (g : Word) : Int := intVal x.wb x.sb g.toNat

/-- The old destination as D of an accumulating form (R146, R147). -/
def valD (s : State) (i : VIn) (vd : BitVec 5) (j : Nat) : Int :=
  intVal s.est.wd s.est.sd (rawD s i vd s.est.wd s.est.sd j)

/-- A bitwise operation on infinite two's complement, of which 33 bits carry every value of 17 bits and its sign (R147). -/
def bitwise (op : Nat → Nat → Nat) (a b : Int) : Int := (op (truncTo 33 a) (truncTo 33 b) : Nat)

/-- The complement of an integer (R153). -/
def compl (a : Int) : Int := -a - 1

/-- The amount of VSHL and VSHR (R149). -/
def shiftB (x : EState) (i : VIn) (j : Nat) : Nat := i.rawB (min x.wb 5) false j

/-- The result of VSHR: an amount of WD or more leaves the sign alone (R149). -/
def shiftRight (wd n : Nat) (a : Int) : Int := if wd ≤ n then (if a < 0 then -1 else 0) else a / (2 ^ n : Nat)

/-- The frame of R146 with an exact operation: the mask, then the result modulo 2^WD. -/
def vexact (w : BitVec 32) (srcs : List (BitVec 5)) (va vb : Option (BitVec 5)) (vd : BitVec 5) (acc : Bool)
    (kind : LaneKind) (mask : State → List Nat) (f : State → VIn → Nat → Int) (s : State) : Out :=
  vmap w srcs va vb vd acc kind mask EState.wd EState.sd (fun s i j => (truncTo s.est.wd (f s i j), 0)) s

/-- A VINT instruction over A and B (R147). -/
def vint (w : BitVec 32) (d a b : BitVec 5) (p : BitVec 6) (s : State) (op : Int → Int → Int) : Out :=
  vexact w [] (some a) (some b) d false { pm := p } (fun s => actives s p) (fun s i j => op (valA s.est i j) (valB s.est i j)) s

/-- An accumulating VINT instruction over D, A and B (R147). -/
def vintD (w : BitVec 32) (d a b : BitVec 5) (p : BitVec 6) (s : State) (op : Int → Int → Int → Int) : Out :=
  vexact w [] (some a) (some b) d true { pm := p } (fun s => actives s p)
    (fun s i j => op (valD s i d j) (valA s.est i j) (valB s.est i j)) s

/-- A VINTS instruction over A and the scalar (R151). -/
def vints (w : BitVec 32) (d a b : BitVec 5) (p : BitVec 6) (s : State) (op : Int → Int → Int) : Out :=
  vexact w [b] (some a) none d false { pm := p } (fun s => actives s p)
    (fun s i j => op (valA s.est i j) (valS s.est (s.thr.reg b))) s

/-- A VUN instruction over A (R153). -/
def vun (w : BitVec 32) (d a : BitVec 5) (p : BitVec 6) (s : State) (op : EState → Int → Int) : Out :=
  vexact w [] (some a) none d false { pm := p } (fun s => actives s p) (fun s i j => op s.est (valA s.est i j)) s

/-- The range of WD bits with sign SD (R153, R189). -/
def clampD (wd : Nat) (sd : Bool) (a : Int) : Int :=
  if sd then max (-(2 ^ (wd - 1) : Nat)) (min a ((2 ^ (wd - 1) : Nat) - 1)) else max 0 (min a ((2 ^ wd : Nat) - 1))

/-- The fixed mixing function (R192). -/
def mix (key c : Word) : Word :=
  let x := key + (c + 1) * 0xC2B1_5E9D_4F37_A6D3#64
  let y := (x ^^^ (x >>> 32)) * 0xA4E8_13F7_9B62_C0D5#64
  let z := (y ^^^ (y >>> 29)) * 0x8F3A_6C21_E5D4_B7A9#64
  z ^^^ (z >>> 35)

/-- The sum of VHAD at an element, over the active elements of its group (R154). -/
def hadamard (x : EState) (i : VIn) (k j : Nat) : Int :=
  let g := 2 ^ k
  (List.range g).foldl (fun acc n =>
    if i.act.contains (j / g * g + n) then
      let v := valA x i (j / g * g + n)
      if popc (word (j % g &&& n)) % 2 = 0 then acc + v else acc - v
    else acc) 0

/-- VADD: Adds va and vb element-wise into vd under the mask. (R147) -/
def execVadd (d a b : BitVec 5) (p : BitVec 6) (s : State) : Out :=
  vint (wV 24 d a b p 0) d a b p s (fun x y => x + y)

/-- VSUB: Subtracts vb from va element-wise into vd. (R147) -/
def execVsub (d a b : BitVec 5) (p : BitVec 6) (s : State) : Out :=
  vint (wV 24 d a b p 1) d a b p s (fun x y => x - y)

/-- VMUL: Multiplies va and vb element-wise into vd. (R147) -/
def execVmul (d a b : BitVec 5) (p : BitVec 6) (s : State) : Out :=
  vint (wV 24 d a b p 2) d a b p s (fun x y => x * y)

/-- VMIN: Writes the lesser of va and vb into vd. (R147) -/
def execVmin (d a b : BitVec 5) (p : BitVec 6) (s : State) : Out :=
  vint (wV 24 d a b p 6) d a b p s (fun x y => min x y)

/-- VMAX: Writes the greater of va and vb into vd. (R147) -/
def execVmax (d a b : BitVec 5) (p : BitVec 6) (s : State) : Out :=
  vint (wV 24 d a b p 7) d a b p s (fun x y => max x y)

/-- VAND: Writes va AND vb into vd. (R147) -/
def execVand (d a b : BitVec 5) (p : BitVec 6) (s : State) : Out :=
  vint (wV 24 d a b p 8) d a b p s (fun x y => bitwise Nat.land x y)

/-- VOR: Writes va OR vb into vd. (R147) -/
def execVor (d a b : BitVec 5) (p : BitVec 6) (s : State) : Out :=
  vint (wV 24 d a b p 9) d a b p s (fun x y => bitwise Nat.lor x y)

/-- VXOR: Writes va XOR vb into vd. (R147) -/
def execVxor (d a b : BitVec 5) (p : BitVec 6) (s : State) : Out :=
  vint (wV 24 d a b p 10) d a b p s (fun x y => bitwise Nat.xor x y)

/-- VANDN: Writes va AND NOT vb into vd. (R147) -/
def execVandn (d a b : BitVec 5) (p : BitVec 6) (s : State) : Out :=
  vint (wV 24 d a b p 11) d a b p s (fun x y => bitwise Nat.land x (compl y))

/-- VMAC: Adds the product of va and vb to vd. (R147) -/
def execVmac (d a b : BitVec 5) (p : BitVec 6) (s : State) : Out :=
  vintD (wV 24 d a b p 3) d a b p s (fun z x y => z + x * y)

/-- VMSB: Subtracts the product of va and vb from vd. (R147) -/
def execVmsb (d a b : BitVec 5) (p : BitVec 6) (s : State) : Out :=
  vintD (wV 24 d a b p 4) d a b p s (fun z x y => z - x * y)

/-- VSSA: Adds va times the ternary weight in vb to vd. (R148) -/
def execVssa (d a b : BitVec 5) (p : BitVec 6) (s : State) : Out :=
  vexact (wV 24 d a b p 5) [] (some a) (some b) d true { pm := p } (fun s => actives s p)
    (fun s i j => valD s i d j + ternVal (rawAt (i.base + j) (planesAt i.b.planes 2 false)) * valA s.est i j) s

/-- VSHL: Shifts va left by the amount in vb into vd. (R149) -/
def execVshl (d a b : BitVec 5) (p : BitVec 6) (s : State) : Out :=
  vexact (wV 24 d a b p 12) [] (some a) (some b) d false { pm := p } (fun s => actives s p)
    (fun s i j => valA s.est i j * (2 ^ shiftB s.est i j : Nat)) s

/-- VSHR: Shifts va right by the amount in vb into vd. (R149) -/
def execVshr (d a b : BitVec 5) (p : BitVec 6) (s : State) : Out :=
  vexact (wV 24 d a b p 13) [] (some a) (some b) d false { pm := p } (fun s => actives s p)
    (fun s i j => shiftRight s.est.wd (shiftB s.est i j) (valA s.est i j)) s

/-- VMULH: Writes the part of the exact product of va and vb above the WD result bits into vd. (R147) -/
def execVmulh (d a b : BitVec 5) (p : BitVec 6) (s : State) : Out :=
  vexact (wV 24 d a b p 14) [] (some a) (some b) d false { pm := p } (fun s => actives s p)
    (fun s i j => valA s.est i j * valB s.est i j / (2 ^ s.est.wd : Nat)) s

/-- VSEL: Selects va or vb per element by the predicate into vd. (R150) -/
def execVsel (d a b : BitVec 5) (p : BitVec 6) (s : State) : Out :=
  vexact (wV 24 d a b p 15) [] (some a) (some b) d false { pm := p } (fun s => topJs s.hart s.est (laneBase s.hart s.who))
    (fun s i j => if predAt s.hart s.est i.base p j then valA s.est i j else valB s.est i j) s

/-- VADDS: Adds the scalar gb to va into vd. (R151) -/
def execVadds (d a b : BitVec 5) (p : BitVec 6) (s : State) : Out :=
  vints (wV 25 d a b p 0) d a b p s (fun x y => x + y)

/-- VSUBS: Subtracts the scalar gb from va into vd. (R151) -/
def execVsubs (d a b : BitVec 5) (p : BitVec 6) (s : State) : Out :=
  vints (wV 25 d a b p 1) d a b p s (fun x y => x - y)

/-- VRSUBS: Subtracts va from the scalar gb into vd. (R151) -/
def execVrsubs (d a b : BitVec 5) (p : BitVec 6) (s : State) : Out :=
  vints (wV 25 d a b p 2) d a b p s (fun x y => y - x)

/-- VMULS: Multiplies va by the scalar gb into vd. (R151) -/
def execVmuls (d a b : BitVec 5) (p : BitVec 6) (s : State) : Out :=
  vints (wV 25 d a b p 3) d a b p s (fun x y => x * y)

/-- VMINS: Writes the lesser of va and the scalar gb into vd. (R151) -/
def execVmins (d a b : BitVec 5) (p : BitVec 6) (s : State) : Out :=
  vints (wV 25 d a b p 5) d a b p s (fun x y => min x y)

/-- VMAXS: Writes the greater of va and the scalar gb into vd. (R151) -/
def execVmaxs (d a b : BitVec 5) (p : BitVec 6) (s : State) : Out :=
  vints (wV 25 d a b p 6) d a b p s (fun x y => max x y)

/-- VANDS: Writes va AND the scalar gb into vd. (R151) -/
def execVands (d a b : BitVec 5) (p : BitVec 6) (s : State) : Out :=
  vints (wV 25 d a b p 7) d a b p s (fun x y => bitwise Nat.land x y)

/-- VORS: Writes va OR the scalar gb into vd. (R151) -/
def execVors (d a b : BitVec 5) (p : BitVec 6) (s : State) : Out :=
  vints (wV 25 d a b p 8) d a b p s (fun x y => bitwise Nat.lor x y)

/-- VXORS: Writes va XOR the scalar gb into vd. (R151) -/
def execVxors (d a b : BitVec 5) (p : BitVec 6) (s : State) : Out :=
  vints (wV 25 d a b p 9) d a b p s (fun x y => bitwise Nat.xor x y)

/-- VMACS: Adds va times the scalar gb to vd. (R151) -/
def execVmacs (d a b : BitVec 5) (p : BitVec 6) (s : State) : Out :=
  vexact (wV 25 d a b p 4) [b] (some a) none d true { pm := p } (fun s => actives s p)
    (fun s i j => valD s i d j + valA s.est i j * valS s.est (s.thr.reg b)) s

/-- VSHLS: Shifts va left by gb[5:0] into vd. (R151) -/
def execVshls (d a b : BitVec 5) (p : BitVec 6) (s : State) : Out :=
  vexact (wV 25 d a b p 10) [b] (some a) none d false { pm := p } (fun s => actives s p)
    (fun s i j => valA s.est i j * (2 ^ shamt (s.thr.reg b) : Nat)) s

/-- VSHRS: Shifts va right by gb[5:0] into vd. (R151) -/
def execVshrs (d a b : BitVec 5) (p : BitVec 6) (s : State) : Out :=
  vexact (wV 25 d a b p 11) [b] (some a) none d false { pm := p } (fun s => actives s p)
    (fun s i j => shiftRight s.est.wd (shamt (s.thr.reg b)) (valA s.est i j)) s

/-- VBCAST: Writes the scalar gb into every active element of vd. (R151) -/
def execVbcast (d b : BitVec 5) (p : BitVec 6) (s : State) : Out :=
  vexact (wV 25 d 0 b p 12) [b] none none d false { pm := p } (fun s => actives s p) (fun s _ _ => valS s.est (s.thr.reg b)) s

/-- VRAND: Writes counter-based random bits Mix(key, counter) into vd. (R152) -/
def execVrand (d a b : BitVec 5) (p : BitVec 6) (s : State) : Out :=
  vmap (wV 25 d a b p 13) [b] (some a) none d false { pm := p } (fun s => actives s p) EState.wd EState.sd
    (fun s i j => ((mix (s.thr.reg b) (word (i.rawA s.est.wa false j))).toNat / 2 ^ (64 - s.est.wd), 0)) s

/-- VSLUP: the active elements from the amount on are written, the active ones below it keep their value (R174). -/
def slideUp (w : BitVec 32) (d a b : BitVec 5) (p : BitVec 6) (s : State) : Out :=
  issue w [(b, 0)] s (fun s =>
    let n := (s.thr.reg b).toNat
    let out := (actives s p).filter (fun j => decide (n ≤ j))
    vreadAll s { word := w, pm := p, src := some (out.map (· - n)), out := some out } (some a) none (some d) false (actives s p) (fun s i =>
      let x := s.est
      vwrite s i (some a) none d x.wd x.sd
        ((i.act.filter (fun j => decide (n ≤ j))).map (fun j => (j, truncTo x.wd (valA x i (j - n))))) 0))

/-- VSLUP: Slides va up by the amount in gb into vd. (R174) -/
def execVslup (d a b : BitVec 5) (p : BitVec 6) (s : State) : Out :=
  slideUp (wV 25 d a b p 14) d a b p s

/-- VSLDN: Slides va down by the amount in gb into vd. (R174) -/
def execVsldn (d a b : BitVec 5) (p : BitVec 6) (s : State) : Out :=
  vexact (wV 25 d a b p 15) [b] (some a) none d false
    { pm := p, src := some (((actives s p).map (· + (s.thr.reg b).toNat)).filter (fun j => decide (j < s.est.vl))) }
    (fun s => actives s p)
    (fun s i j => if j + (s.thr.reg b).toNat < s.est.vl then valA s.est i (j + (s.thr.reg b).toNat) else 0) s

/-- VMOV: Copies va into vd at the destination width. (R153) -/
def execVmov (d a : BitVec 5) (p : BitVec 6) (s : State) : Out :=
  vexact (wV 26 d a 0 p 0) [] (some a) none d false { pm := p } (fun s => actives s p)
    (fun s i j => (i.rawA s.est.wd s.est.sa j : Nat)) s

/-- VNOT: Writes the bitwise NOT of va into vd. (R153) -/
def execVnot (d a : BitVec 5) (p : BitVec 6) (s : State) : Out :=
  vun (wV 26 d a 0 p 1) d a p s (fun _ x => compl x)

/-- VNEG: Writes the negation of va into vd. (R153) -/
def execVneg (d a : BitVec 5) (p : BitVec 6) (s : State) : Out :=
  vun (wV 26 d a 0 p 2) d a p s (fun _ x => -x)

/-- VABS: Writes the absolute value of va into vd. (R153) -/
def execVabs (d a : BitVec 5) (p : BitVec 6) (s : State) : Out :=
  vun (wV 26 d a 0 p 3) d a p s (fun _ x => (x.natAbs : Nat))

/-- VCVT: Converts va to the destination width and signedness into vd. (R153) -/
def execVcvt (d a : BitVec 5) (p : BitVec 6) (s : State) : Out :=
  vun (wV 26 d a 0 p 4) d a p s (fun _ x => x)

/-- VSATC: Clamps va to the destination range into vd. (R153) -/
def execVsatc (d a : BitVec 5) (p : BitVec 6) (s : State) : Out :=
  vun (wV 26 d a 0 p 5) d a p s (fun e x => clampD e.wd e.sd x)

/-- VHAD: Performs an unnormalised Walsh-Hadamard transform over groups of 2^k elements. (R154) -/
def execVhad (d a k : BitVec 5) (p : BitVec 6) (s : State) : Out :=
  vexact (wV 26 d a k p 6) [] (some a) none d false { checked := false, pm := p } (fun s => actives s p)
    (fun s i j => hadamard s.est i k.toNat j) s

/-- VIDX: Writes start plus j times step into each element of vd. (R155) -/
def execVidx (d : BitVec 5) (sf t : BitVec 8) (s : State) : Out :=
  vexact (wVX 27 d sf t 0) [] none none d false {} (fun s => topJs s.hart s.est (laneBase s.hart s.who))
    (fun _ _ j => sf.toInt + j * t.toInt) s

/-- An integer compare of A with B or with the scalar (R156). -/
def vcmpInt (w : BitVec 32) (d : BitVec 6) (a b : BitVec 5) (p : BitVec 6) (scalar : Bool) (s : State)
    (cond : Int → Int → Bool) : Out :=
  vcmp w (if scalar then [b] else []) (some a) (if scalar then none else some b) d p
    (fun s i j => (cond (valA s.est i j) (if scalar then valS s.est (s.thr.reg b) else valB s.est i j), 0)) s

/-- VCEQ: Sets pd where va equals vb. (R156) -/
def execVceq (d : BitVec 6) (a b : BitVec 5) (p : BitVec 6) (s : State) : Out :=
  vcmpInt (wVC 28 d a b p 0) d a b p false s (fun x y => x == y)

/-- VCNE: Sets pd where va differs from vb. (R156) -/
def execVcne (d : BitVec 6) (a b : BitVec 5) (p : BitVec 6) (s : State) : Out :=
  vcmpInt (wVC 28 d a b p 1) d a b p false s (fun x y => x != y)

/-- VCLT: Sets pd where va is less than vb. (R156) -/
def execVclt (d : BitVec 6) (a b : BitVec 5) (p : BitVec 6) (s : State) : Out :=
  vcmpInt (wVC 28 d a b p 2) d a b p false s (fun x y => decide (x < y))

/-- VCLE: Sets pd where va is at most vb. (R156) -/
def execVcle (d : BitVec 6) (a b : BitVec 5) (p : BitVec 6) (s : State) : Out :=
  vcmpInt (wVC 28 d a b p 3) d a b p false s (fun x y => decide (x ≤ y))

/-- VCEQS: Sets pd where va equals the scalar gb. (R156) -/
def execVceqs (d : BitVec 6) (a b : BitVec 5) (p : BitVec 6) (s : State) : Out :=
  vcmpInt (wVC 28 d a b p 4) d a b p true s (fun x y => x == y)

/-- VCNES: Sets pd where va differs from the scalar gb. (R156) -/
def execVcnes (d : BitVec 6) (a b : BitVec 5) (p : BitVec 6) (s : State) : Out :=
  vcmpInt (wVC 28 d a b p 5) d a b p true s (fun x y => x != y)

/-- VCLTS: Sets pd where va is less than the scalar gb. (R156) -/
def execVclts (d : BitVec 6) (a b : BitVec 5) (p : BitVec 6) (s : State) : Out :=
  vcmpInt (wVC 28 d a b p 6) d a b p true s (fun x y => decide (x < y))

/-- VCLES: Sets pd where va is at most the scalar gb. (R156) -/
def execVcles (d : BitVec 6) (a b : BitVec 5) (p : BitVec 6) (s : State) : Out :=
  vcmpInt (wVC 28 d a b p 7) d a b p true s (fun x y => decide (x ≤ y))

/-- VCGTS: Sets pd where va is greater than the scalar gb. (R156) -/
def execVcgts (d : BitVec 6) (a b : BitVec 5) (p : BitVec 6) (s : State) : Out :=
  vcmpInt (wVC 28 d a b p 8) d a b p true s (fun x y => decide (y < x))

/-- VCGES: Sets pd where va is at least the scalar gb. (R156) -/
def execVcges (d : BitVec 6) (a b : BitVec 5) (p : BitVec 6) (s : State) : Out :=
  vcmpInt (wVC 28 d a b p 9) d a b p true s (fun x y => decide (y ≤ x))

/-- VTST: Sets pd where va AND vb is nonzero. (R156) -/
def execVtst (d : BitVec 6) (a b : BitVec 5) (p : BitVec 6) (s : State) : Out :=
  vcmpInt (wVC 28 d a b p 10) d a b p false s (fun x y => bitwise Nat.land x y != 0)

end Sys2Proof.Machine
end

