-- ==== Sys2Proof/Machine/Reduce.lean ====
section
/-! DEFINITION. Sys2Proof/Machine/Reduce.lean: reductions, scans, compaction, expansion and permutation (R165-R173, R175). -/

namespace Sys2Proof.Machine

/-- The running state of R175's table as a word: bit 63, bit 62, an index, a value. -/
def partWord (top seed : Bool) (idx v : Nat) : Word :=
  word (top.toNat * 2 ^ 63 + seed.toNat * 2 ^ 62 + idx % 2 ^ 15 * 2 ^ 32 + v % 2 ^ 32)

/-- The value field of a running state. -/
def partVal (p : Word) : Nat := p.toNat % 2 ^ 32

/-- A reduction to scalars (R165, R169): `val` gives gd's words from the final state when the last row has an active
element, `arg` says that gd and gd+1 are written. -/
def reduce (w : BitVec 32) (d a b : BitVec 5) (p : BitVec 6) (arg checked : Bool) (op : State → VIn → RecOp)
    (val : State → RecOp → Word → List Word × BitVec 4) (s : State) : Out :=
  let dests := if arg then [d, d + 1] else [d]
  record w [b] a none p checked dests op
    (fun s o st some' =>
      let seed := s.thr.reg b
      let r := if some' then val s o st else (if arg then [BitVec.allOnes 64, seed] else [seed], 0)
      (s.startFill dests (.value r.1), r.2)) s

/-- The result of an integer reduction: its WD bits extended by SD (R166). -/
def extD (x : EState) (v : Nat) : Word := BitVec.ofInt 64 (intVal x.wd x.sd v)

/-- An integer reduction over WD bits (R166): `f` takes the running bits and the value of an active element. -/
def reduceInt (w : BitVec 32) (d a b : BitVec 5) (p : BitVec 6) (s : State) (f : EState → Nat → Int → Nat) : Out :=
  reduce w d a b p false false
    (fun s i =>
      let x := s.est
      { init := partWord false false 0 (truncTo x.wd (s.thr.reg b).toNat)
        seg := fun st _ js _ => (partWord false false 0 (js.foldl (fun acc j => f x acc (valA x i j)) (partVal st)), 0, [])
        row := fun _ st _ => (partVal st, 0), rowW := x.wd, rowSd := x.sd })
    (fun s _ st => ([extD s.est (partVal st)], 0)) s

/-- The running value of a least or greatest element: the seed's or an element's bits (R175). -/
def bestInt (x : EState) (st : Word) : Int :=
  if bit st 62 then intVal x.wd x.sd (partVal st) else intVal x.wa x.sa (partVal st)

/-- The steps of a search for the best element that beats what stands: VREDMIN, VREDMAX, VARGMAX, VARGMIN (R166, R167). -/
def searchInt (x : EState) (i : VIn) (better : Int → Int → Bool) (st : Word) (js : List Nat) : Word :=
  js.foldl (fun st j =>
    if better (valA x i j) (bestInt x st) then partWord false false j (i.rawA x.wa x.sa j) else st) st

/-- A running state without its index field, which only the arg forms keep (R175). -/
def dropIndex (st : Word) : Word := partWord (bit st 63) (bit st 62) 0 (partVal st)

/-- VREDMIN and VREDMAX (R166). -/
def reduceBest (w : BitVec 32) (d a b : BitVec 5) (p : BitVec 6) (s : State) (better : Int → Int → Bool) : Out :=
  reduce w d a b p false false
    (fun s i =>
      let x := s.est
      { init := partWord false true 0 (truncTo x.wd (s.thr.reg b).toNat)
        seg := fun st _ js _ => (dropIndex (searchInt x i better st js), 0, [])
        row := fun _ st _ => (truncTo x.wd (bestInt x st), 0), rowW := x.wd, rowSd := x.sd })
    (fun s _ st => ([extD s.est (truncTo s.est.wd (bestInt s.est st))], 0)) s

/-- The offset of a winner from its row's first element, or 0xFFFF for the seed (R169). -/
def argOffset (st : Word) (row : Nat) : Nat × BitVec 4 :=
  (if bit st 62 then 0xFFFF else field st 32 15 - row, 0)

/-- The index of a winner, all ones for the seed (R167). -/
def argIndex (st : Word) : Word := if bit st 62 then BitVec.allOnes 64 else word (field st 32 15)

/-- VARGMAX and VARGMIN (R167). -/
def argBest (w : BitVec 32) (d a b : BitVec 5) (p : BitVec 6) (s : State) (better : Int → Int → Bool) : Out :=
  reduce w d a b p true false
    (fun s i =>
      let x := s.est
      { init := partWord false true 0 (truncTo x.wd (s.thr.reg b).toNat)
        seg := fun st _ js _ => (searchInt x i better st js, 0, [])
        row := fun _ => argOffset, rowW := 16 })
    (fun s _ st => ([argIndex st, extD s.est (truncTo s.est.wd (bestInt s.est st))], 0)) s

/-! ## Float reductions (R136, R168) -/

/-- The value of bits in format D. -/
def numInD (x : EState) (raw : Nat) : Num := numOf x.fd x.wd x.sd raw

/-- Two parts of a tree sum, absent or bits in format D, combined with one rounding (R136). -/
def combine (x : EState) (a b : Option Nat × BitVec 4) : Option Nat × BitVec 4 :=
  match a.1, b.1 with
  | none, _ => (b.1, a.2 ||| b.2)
  | _, none => (a.1, a.2 ||| b.2)
  | some u, some v =>
    let r := floatRes x (numAdd (numInD x u) (numInD x v))
    (some r.1, a.2 ||| b.2 ||| r.2)

/-- The node of level `l` over the elements from `lo` on, of a list of present elements (R136). -/
def treeNode (x : EState) : Nat → Nat → List (Nat × Nat) → Option Nat × BitVec 4
  | _, _, [] => (none, 0)
  | 0, _, (_, v) :: _ => (some v, 0)
  | l + 1, lo, js =>
    let mid := lo + 2 ^ l
    combine x (treeNode x l lo (js.filter (fun e => decide (e.1 < mid))))
      (treeNode x l mid (js.filter (fun e => decide (mid ≤ e.1))))

/-- The active elements of a part of a row converted to format D, and the flags of the conversions (R168). -/
def convD (x : EState) (i : VIn) (js : List Nat) : List (Nat × Nat) × BitVec 4 :=
  let rs := js.map (fun j => (j, x.toD (numA x i j)))
  (rs.map (fun r => (r.1, r.2.1)), rs.foldl (fun f r => f ||| r.2.2) 0)

/-- PART of a float sum as a word: bit 63 when absent (R137). -/
def partSum (v : Option Nat) : Word :=
  match v with
  | none => partWord true false 0 0
  | some r => partWord false false 0 r

/-- PART of a float sum from a word. -/
def sumPart (st : Word) : Option Nat := if bit st 63 then none else some (partVal st)

/-- The running value of a greatest float element: the seed's bits in format D or an element's in format A (R175). -/
def bestNum (x : EState) (st : Word) : Num :=
  if bit st 62 then numInD x (partVal st) else numOf x.fa x.wa x.sa (partVal st)

/-- The steps of FREDMAX and FARGMAX (R167, R168). -/
def searchNum (x : EState) (i : VIn) (better : Num → Num → Bool) (st : Word) (js : List Nat) : Word :=
  js.foldl (fun st j =>
    if better (numA x i j) (bestNum x st) then partWord false false j (i.rawA x.fwa x.sa j) else st) st

/-- Better of FARGMAX, and the order in which FREDMAX keeps a NaN (R167, R168). -/
def numBetter (a b : Num) : Bool := (a.isNan && !b.isNan) || (!a.isNan && numBelow b a)

/-- VREDSUM: Reduces the active elements of va and the seed gb to their sum in gd, or per row. (R166) -/
def execVredsum (d a b : BitVec 5) (p : BitVec 6) (s : State) : Out :=
  reduceInt (wV 30 d a b p 0) d a b p s (fun x acc v => truncTo x.wd (acc + v))

/-- VREDMIN: Reduces the active elements and the seed to their least value in gd. (R166) -/
def execVredmin (d a b : BitVec 5) (p : BitVec 6) (s : State) : Out :=
  reduceBest (wV 30 d a b p 1) d a b p s (fun x y => decide (x < y))

/-- VREDMAX: Reduces the active elements and the seed to their greatest value in gd. (R166) -/
def execVredmax (d a b : BitVec 5) (p : BitVec 6) (s : State) : Out :=
  reduceBest (wV 30 d a b p 2) d a b p s (fun x y => decide (y < x))

/-- VREDAND: Reduces the active elements and the seed by bitwise AND into gd. (R166) -/
def execVredand (d a b : BitVec 5) (p : BitVec 6) (s : State) : Out :=
  reduceInt (wV 30 d a b p 3) d a b p s (fun x acc v => Nat.land acc (truncTo x.wd v))

/-- VREDOR: Reduces the active elements and the seed by bitwise OR into gd. (R166) -/
def execVredor (d a b : BitVec 5) (p : BitVec 6) (s : State) : Out :=
  reduceInt (wV 30 d a b p 4) d a b p s (fun x acc v => Nat.lor acc (truncTo x.wd v))

/-- VARGMAX: Writes the index and value of the greatest active element that beats the seed to gd, gd+1. (R167) -/
def execVargmax (d a b : BitVec 5) (p : BitVec 6) (s : State) : Out :=
  argBest (wV 30 d a b p 5) d a b p s (fun x y => decide (y < x))

/-- VARGMIN: Writes the index and value of the least active element that beats the seed to gd, gd+1. (R167) -/
def execVargmin (d a b : BitVec 5) (p : BitVec 6) (s : State) : Out :=
  argBest (wV 30 d a b p 6) d a b p s (fun x y => decide (x < y))

/-- FREDSUM: Sums the active float elements with the seed in the fixed tree order into gd. (R168) -/
def execFredsum (d a b : BitVec 5) (p : BitVec 6) (s : State) : Out :=
  reduce (wV 30 d a b p 7) d a b p false true
    (fun s i =>
      let x := s.est
      { init := partSum (some (truncTo x.fwd (s.thr.reg b).toNat))
        seg := fun st c js _ =>
          let e := convD x i js
          let r := combine x (sumPart st, e.2) (treeNode x 10 (1024 * c) e.1)
          (partSum r.1, r.2, [])
        row := fun _ st _ => (partVal st, 0), rowW := x.fwd, rowSd := x.sd })
    (fun _ _ st => ([word (partVal st)], 0)) s

/-- FREDMAX: Writes the greatest float value of the seed and active elements into gd. (R168) -/
def execFredmax (d a b : BitVec 5) (p : BitVec 6) (s : State) : Out :=
  reduce (wV 30 d a b p 8) d a b p false true
    (fun s i =>
      let x := s.est
      { init := partWord false true 0 (truncTo x.fwd (s.thr.reg b).toNat)
        seg := fun st _ js _ => (dropIndex (searchNum x i numBetter st js), 0, [])
        row := fun some' st _ => if some' then x.toD (bestNum x st) else (partVal st, 0), rowW := x.fwd, rowSd := x.sd })
    (fun s _ st =>
      let r := s.est.toD (bestNum s.est st)
      ([word r.1], r.2)) s

/-- FARGMAX: Writes the index and value of the greatest float active element that beats the seed to gd, gd+1. (R167) -/
def execFargmax (d a b : BitVec 5) (p : BitVec 6) (s : State) : Out :=
  reduce (wV 30 d a b p 9) d a b p true true
    (fun s i =>
      let x := s.est
      { init := partWord false true 0 (truncTo x.fwd (s.thr.reg b).toNat)
        seg := fun st _ js _ => (searchNum x i numBetter st js, 0, [])
        row := fun _ => argOffset, rowW := 16 })
    (fun s _ st =>
      let r := s.est.toD (bestNum s.est st)
      ([argIndex st, word r.1], r.2)) s

/-! ## Scans (R170) -/

/-- A scan: `f` takes the running state, the sub-strip and the active elements of a row's part (R170). -/
def scan (w : BitVec 32) (d a : BitVec 5) (p : BitVec 6) (checked : Bool) (init : Word) (width : EState → Nat)
    (f : EState → VIn → Word → Nat → List Nat → Bool → Word × BitVec 4 × List (Nat × Nat)) (s : State) : Out :=
  record w [] a (some d) p checked []
    (fun s i => { init := init, seg := f s.est i, width := width s.est, sd := s.est.sd })
    (fun s _ _ _ => (s, 0)) s

/-- VSCANMAX and VSCANMIN: bit 63 of the state says that there is no value yet (R175). -/
def scanBest (w : BitVec 32) (d a : BitVec 5) (p : BitVec 6) (better : Int → Int → Bool) (s : State) : Out :=
  scan w d a p false (partWord true false 0 0) EState.wd
    (fun x i st _ js _ =>
      let r := js.foldl (fun (acc : Word × List (Nat × Nat)) j =>
        let st' := if bit acc.1 63 || better (valA x i j) (intVal x.wa x.sa (partVal acc.1))
          then partWord false false 0 (i.rawA x.wa x.sa j) else acc.1
        (st', acc.2 ++ [(j, truncTo x.wd (intVal x.wa x.sa (partVal st')))])) (st, [])
      (r.1, 0, r.2)) s

/-- The local part of FSCANSUM at offset `n` - 1 of a sub-strip: the nodes that the set bits of `n` name, high to low
(R136). -/
def scanLocal (x : EState) (es : List (Nat × Nat)) (n : Nat) : Nat → Nat → Option Nat × BitVec 4 → Option Nat × BitVec 4
  | 0, lo, acc => if n.testBit 0 then combine x acc (treeNode x 0 lo (within lo 1)) else acc
  | l + 1, lo, acc =>
    if n.testBit (l + 1) then
      scanLocal x es n l (lo + 2 ^ (l + 1)) (combine x acc (treeNode x (l + 1) lo (within lo (2 ^ (l + 1)))))
    else scanLocal x es n l lo acc
where
  /-- The elements of a range. -/
  within (lo k : Nat) : List (Nat × Nat) := es.filter (fun e => decide (lo ≤ e.1) && decide (e.1 < lo + k))

/-- VSCANSUM: Writes running sums over each row's active elements into vd. (R170) -/
def execVscansum (d a : BitVec 5) (p : BitVec 6) (s : State) : Out :=
  scan (wV 31 d a 0 p 0) d a p false 0 EState.wd
    (fun x i st _ js _ =>
      let r := js.foldl (fun (acc : Nat × List (Nat × Nat)) j =>
        let v := truncTo x.wd (acc.1 + valA x i j)
        (v, acc.2 ++ [(j, v)])) (partVal st, [])
      (partWord false false 0 r.1, 0, r.2)) s

/-- VSCANMAX: Writes running maxima over each row's active elements into vd. (R170) -/
def execVscanmax (d a : BitVec 5) (p : BitVec 6) (s : State) : Out :=
  scanBest (wV 31 d a 0 p 1) d a p (fun x y => decide (y < x)) s

/-- VSCANMIN: Writes running minima over each row's active elements into vd. (R170) -/
def execVscanmin (d a : BitVec 5) (p : BitVec 6) (s : State) : Out :=
  scanBest (wV 31 d a 0 p 2) d a p (fun x y => decide (x < y)) s

/-- FSCANSUM: Writes running float sums in the fixed tree order into vd; FSTAT takes the flags of the additions that an active
output uses and of those by which the row goes on (DESIGN CHOICE, notes/assumptions/69.md). (R170) -/
def execFscansum (d a : BitVec 5) (p : BitVec 6) (s : State) : Out :=
  scan (wV 31 d a 0 p 3) d a p true (partSum none) EState.fwd
    (fun x i st c js more =>
      let e := convD x i js
      let outs := js.map (fun j =>
        (j, combine x (sumPart st, 0) (scanLocal x e.1 (j - 1024 * c + 1) 10 (1024 * c) (none, 0))))
      let next := if more then combine x (sumPart st, 0) (treeNode x 10 (1024 * c) e.1) else (sumPart st, 0)
      (partSum next.1, outs.foldl (fun f o => f ||| o.2.2) (e.2 ||| next.2), outs.map (fun o => (o.1, o.2.1.getD 0)))) s

/-! ## Compaction, expansion, permutation (R171-R173) -/

/-- VCOMPRESS and VEXPAND: the running state is the count k; CCNT takes it at the end (R171, R172). -/
def pack (w : BitVec 32) (d a : BitVec 5) (p : BitVec 6) (bound : Word → Nat → Nat) (reads : Nat → Nat → Nat)
    (writes : List Nat → List Nat) (f : EState → VIn → Nat → Nat → Nat × Nat) (s : State) : Out :=
  record w [] a (some d) p false []
    (fun s i =>
      { init := 0, width := s.est.wd, sd := s.est.sd, rows := false, bound := bound, reads := reads
        writes := writes
        seg := fun st _ js _ =>
          (word (st.toNat + js.length), 0, js.mapIdx (fun n j => f s.est i (st.toNat + n) j)) })
    (fun s _ st _ => (s.setEst { s.est with ccnt := BitVec.ofNat 15 st.toNat }, 0)) s

/-- VCOMPRESS: Packs the active elements of va into the low elements of vd and sets CCNT. (R171) -/
def execVcompress (d a : BitVec 5) (p : BitVec 6) (s : State) : Out :=
  pack (wV 31 d a 0 p 4) d a p (fun st _ => st.toNat) (fun _ j => j) (fun js => List.range js.length)
    (fun x i k j => (k, truncTo x.wd (valA x i j))) s

/-- Element `k` of VEXPAND's source; one that a resumed spool source no longer has, because no interrupted run has passed
it, is open (R172, R175, R238; notes/assumptions/17.md). -/
def expandAt (x : EState) (i : VIn) (k : Nat) : Int :=
  if k < i.a.first then intVal x.wa x.sa (Config.faultedData (word k)) else valA x i k

/-- VEXPAND: Places consecutive elements of va at the active positions of vd and sets CCNT. (R172) -/
def execVexpand (d a : BitVec 5) (p : BitVec 6) (s : State) : Out :=
  pack (wV 31 d a 0 p 5) d a p (fun _ n => n) (fun k _ => k) (fun js => js) (fun x i k j => (j, truncTo x.wd (expandAt x i k))) s

/-- VPERM: Gathers elements of va at the indices in vb into vd. (R173) -/
def execVperm (d a b : BitVec 5) (p : BitVec 6) (s : State) : Out :=
  vexact (wV 31 d a b p 6) [] (some a) (some b) d false { checked := false, pm := p, src := some (List.range s.est.vl) } (fun s => actives s p)
    (fun s i j =>
      let n := i.rawB s.est.wb false j
      if n < s.est.vl then valA s.est i n else 0) s

end Sys2Proof.Machine
end

