-- ==== Sys2Proof/Machine/Vmem.lean ====
section
/-! DEFINITION. Sys2Proof/Machine/Vmem.lean: vector loads and stores, predicates, MX groups and versioned elements in memory, and the lane-private slice (R223-R230, R335). -/

namespace Sys2Proof.Machine

/-! ## The frame of R224 -/

/-- Why a vector memory instruction stops at an element: a cause with its value, a faulted element of a spool, a wait for
versions with its number and the cause at its end, a migration (R298), or a forced pre-emption (R103). -/
inductive MemStop
  | trap (c : Cause) (v : Word)
  | spool (n : Nat) (e : SpEl)
  | wait (k : WaitKind) (n : Word) (qs : List VersAsk) (op : VersOp) (c : Cause) (v : Word)
  | hold
  | force

/-- How a run over the active elements ends: all done, or stopped at element `j`; `vals` lists the elements done. -/
inductive MemEnd
  | all (s : State) (vals : List (Nat × Nat))
  | stop (s : State) (vals : List (Nat × Nat)) (j : Nat) (why : MemStop)

/-- One element's access: its value (0 for a store), or a stop. -/
inductive MemOne
  | ok (s : State) (v : Nat)
  | stop (s : State) (why : MemStop)

/-- Runs an access over elements in ascending order up to the first that stops (R224). -/
def memLoop (f : State → Nat → MemOne) : List Nat → State → List (Nat × Nat) → MemEnd
  | [], s, acc => .all s acc
  | j :: js, s, acc =>
    match f s j with
    | .ok s' v => memLoop f js s' (acc ++ [(j, v)])
    | .stop s' w => .stop s' acc j w

/-- Reads one element of `eb` bytes, of which `width` bits are kept, in a reuse class (R65, R223, R293, R350). -/
def readOne (a : Nat → Word) (cls : BitVec 2) (eb width : Nat) (s : State) (j : Nat) : MemOne :=
  match resolveThr s .read (a j) eb with
  | .fail c s' => .stop s' (.trap c (a j))
  | .stall s' => .stop s' .hold
  | .ok p s' =>
    if s'.lostAt s'.loc p eb then .stop (s'.moveMet s'.loc p eb) (.trap .dataPoison (a j))
    else .ok ((s'.touchClass cls p).hotTouch cls p) (ofBytes (s'.loadAt p eb) % 2 ^ width)

/-- Checks the address of one element to be stored, and answers its physical address, 2^64 in a scratchpad (R225). -/
def checkOne (a : Nat → Word) (eb : Nat) (s : State) (j : Nat) : MemOne :=
  match resolveThr s .write (a j) eb with
  | .fail c s' => .stop s' (.trap c (a j))
  | .stall s' => .stop s' .hold
  | .ok p s' => .ok s' (match p with | .phys pa => pa | .spad _ _ => 2 ^ 64)

/-- Stores one element whose address has been checked, in a reuse class. -/
def writeOne (a : Word) (cls : BitVec 2) (bs : List Byte) (s : State) : State :=
  match resolveThr s .write a bs.length with
  | .ok p s' => (((s'.touchClass cls p).hotTouch cls p).storeAt none p bs).movedTo s'.loc p bs.length
  | _ => s

/-- What a stop answers, once the state stands at VSTART = j. -/
def MemStop.answer (s : State) (j : Nat) : MemStop → Res
  | .trap c v => .trap s c v
  | .spool n e => spoolTrap s n j e
  | .wait k n qs op c v => .ask s k n qs op c v
  | .hold => .stall s
  | .force => forcedStop s

/-- The first element at which a source's faulted element or a forced pre-emption stops a memory instruction (R103, R224,
R238). -/
def memStop (start vl : Nat) (fault : Option (Nat × Nat × SpEl)) (cut : Option Nat) : Option (Nat × MemStop) :=
  let f := fault.map (fun x => (x.1, MemStop.spool x.2.1 x.2.2))
  match (cut.map (max start)).filter (fun n => decide (n < vl)) with
  | none => f
  | some n =>
    match f with
    | some x => if x.1 ≤ n then some x else some (n, .force)
    | none => some (n, .force)

/-- Reads the operands of a vector memory instruction, whose word is `w`, that resumes at VSTART, and the active elements from there on up to
the one where a spool's faulted element or a forced pre-emption stops it (R103, R224, R237, R238). -/
def memStart (w : BitVec 32) (s : State) (p : BitVec 6) (va vb vd : Option (BitVec 5)) (act : List Nat)
    (k : State → VIn → Nat → List Nat → Option (Nat × MemStop) → Res) : Res :=
  if s.held false then .stall s
  else
    let start := s.est.vstart.toNat
    withSrc s start va (fun a => withSrc s start vb (fun b => withDst s vd (fun dst =>
      let live := act.filter (fun j => decide (start ≤ j))
      let late := memStop start s.est.vl (firstFault [a, b] live) s.thr.cut
      let js := live.filter (fun j => match late with | some x => decide (j < x.1) | none => true)
      lanesThen s false { laneUse s { word := w, pm := p } va vb vd false act with src := js } (fun s =>
        k s { a := a, b := b, dst := dst, act := act, base := laneBase s.hart s.who } start js late))))

/-- A run that reached its last element stops after all where it must. -/
def MemEnd.orStop (m : MemEnd) (late : Option (Nat × MemStop)) : MemEnd :=
  match m, late with
  | .all s vals, some (j, w) => .stop s vals j w
  | m, _ => m

/-- The positions of a write spool that a load's elements take are translated; a failing one stops it (R238, R298). -/
def MemEnd.positions (m : MemEnd) (i : VIn) (start : Nat) : MemEnd :=
  match i.dst with
  | none => m
  | some n =>
    let check (s : State) (vals : List (Nat × Nat)) (k : State → MemEnd) : MemEnd :=
      let below (j : Nat) : List (Nat × Nat) := vals.filter (fun e => decide (e.1 < j))
      match checkWrites s s.loc n start (vals.map (·.1)) with
      | .ok s' => k s'
      | .bad j e s' => .stop s' (below j) j (.spool n e)
      | .stall j s' => .stop s' (below j) j .hold
    match m with
    | .all s vals => check s vals (fun s' => .all s' vals)
    | .stop s vals j w => check s vals (fun s' => .stop s' vals j w)

/-- The end of a load: elements read enter the destination, which commits, or stays pending at a stop (R224, R176). -/
def loadEnd (i : VIn) (start : Nat) (vd : BitVec 5) (wd : Nat) (sd : Bool) (m : MemEnd) : Res :=
  let put (s : State) (vals : List (Nat × Nat)) : State × List Plane :=
    let s1 := match i.dst with
      | some n => appendWrites s s.loc n start (spoolVals s n wd sd vals)
      | none => s
    (s1, writeElems s.hart i.base (destPlanes s i none vd wd sd start start) vals)
  match m.positions i start with
  | .all s vals =>
    let r := put s vals
    .adv (completed (commitDest r.1 i none vd r.2 sd (destRows s start wd) []) i start 0)
  | .stop s vals j w =>
    let r := put s vals
    w.answer (interrupted r.1 i start j vd r.2 [] s.est.vrstate 0) j

/-- The end of a store: the checked elements are performed in ascending order, so that the higher-numbered one stands
where two overlap; `spans` says which bytes they cover (R224, R226, R350). -/
def storeEnd (i : VIn) (start : Nat) (perform : State → Nat → State)
    (spans : List (Nat × Nat) → List (Nat × Nat)) (m : MemEnd) : Res :=
  let run (s : State) (vals : List (Nat × Nat)) : State := (vals.map (·.1)).foldl perform (s.clearWhole (spans vals))
  match m with
  | .all s vals => .adv (completed (run s vals) i start 0)
  | .stop s vals j w => w.answer (interrupted (run s vals) i start j 0 [] [] s.est.vrstate 0) j

/-- VRSTATE survives an instruction that only records VSTART (R224). -/
def keepVr (s : State) (r : Res) : Res :=
  match r with
  | .adv s' => .adv (s'.setEst { s'.est with vrstate := s.est.vrstate })
  | r => r

/-- A vector load of WD-bit elements (R223, R224); a gather, which reads an index register, has the class RCLS (R293). -/
def vload (w : BitVec 32) (srcs : List (BitVec 5)) (vb : Option (BitVec 5)) (vd : BitVec 5) (p : BitVec 6)
    (addr : State → VIn → Nat → Word) (s : State) : Out :=
  issue w (srcs.map (fun r => (r, 0))) s (fun s => keepVr s
    (memStart w s p none vb (some vd) (actives s p) (fun s1 i start js late =>
      let x := s1.est
      let cls := if vb.isSome then x.rcls else 1
      loadEnd i start vd x.wd x.sd ((memLoop (readOne (addr s1 i) cls (ebOf x.wd) x.wd) js s1 []).orStop late))))

/-- The bytes that a store writes for an element: the WD bits of vs extended by SD to `n` bytes (R223). -/
def storeBytes (x : EState) (i : VIn) (n j : Nat) : List Byte :=
  bytesOf n (truncTo (8 * n) (intVal x.wd x.sd (i.rawA x.wd x.sd j)))

/-- A vector store of WD-bit elements (R223, R224); a scatter, which reads an index register, has the class RCLS (R293). -/
def vstore (w : BitVec 32) (srcs : List (BitVec 5)) (vs : BitVec 5) (vb : Option (BitVec 5)) (p : BitVec 6)
    (addr : State → VIn → Nat → Word) (s : State) : Out :=
  issue w (srcs.map (fun r => (r, 0))) s (fun s => keepVr s
    (memStart w s p (some vs) vb none (actives s p) (fun s1 i start js late =>
      let x := s1.est
      let eb := ebOf x.wd
      let cls := if vb.isSome then x.rcls else 1
      storeEnd i start (fun s j => writeOne (addr s1 i j) cls (storeBytes x i eb j) s)
        (fun vals => vals.map (fun e => (e.2, eb))) ((memLoop (checkOne (addr s1 i) eb) js s1 []).orStop late))))

/-- The address of element j: consecutive, strided, indexed (R224). -/
def addrUnit (a : BitVec 5) (s : State) (_ : VIn) (j : Nat) : Word := s.thr.reg a + word (j * ebOf s.est.wd)
def addrStride (a b : BitVec 5) (s : State) (_ : VIn) (j : Nat) : Word := s.thr.reg a + word j * s.thr.reg b
def addrIndex (a : BitVec 5) (s : State) (i : VIn) (j : Nat) : Word :=
  s.thr.reg a + word (rawAt (i.base + j) i.b.planes * ebOf s.est.wd)

/-- VLD: Loads consecutive elements from memory into vd. (R224) -/
def execVld (d a : BitVec 5) (p : BitVec 6) (s : State) : Out :=
  vload (wV 34 d a 0 p 0) [a] none d p (addrUnit a) s

/-- VST: Stores the elements of vs to consecutive memory. (R224) -/
def execVst (sf a : BitVec 5) (p : BitVec 6) (s : State) : Out :=
  vstore (wV 34 sf a 0 p 1) [a] sf none p (addrUnit a) s

/-- VLDS: Loads strided elements into vd. (R224) -/
def execVlds (d a b : BitVec 5) (p : BitVec 6) (s : State) : Out :=
  vload (wV 34 d a b p 2) [a, b] none d p (addrStride a b) s

/-- VSTS: Stores the elements of vs with a byte stride. (R224) -/
def execVsts (sf a b : BitVec 5) (p : BitVec 6) (s : State) : Out :=
  vstore (wV 34 sf a b p 3) [a, b] sf none p (addrStride a b) s

/-- VLDX: Gathers elements at the indices in vb into vd. (R224) -/
def execVldx (d a b : BitVec 5) (p : BitVec 6) (s : State) : Out :=
  vload (wV 34 d a b p 4) [a] (some b) d p (addrIndex a) s

/-- VSTX: Scatters the elements of vs to the indices in vb. (R224) -/
def execVstx (sf a b : BitVec 5) (p : BitVec 6) (s : State) : Out :=
  vstore (wV 34 sf a b p 5) [a] sf (some b) p (addrIndex a) s

/-! ## The lane-private slice (R227) -/

/-- An outstanding Bobbin command of the hart in focus, on whatever core it was issued, names one of the `n` slice rows from
`r` on (R105, R227, R244). -/
def sliceHeld (s : State) (r n : Nat) : Bool :=
  s.cores.any (fun p => p.2.bobbin.any (fun k => !k.ended && k.team == s.hart.team && k.hartid == s.hart.hartid &&
    bSlice k.desc && decide (bRow0 k.desc < r + n) && decide (r < bRow0 k.desc + bWidth k.desc)))

/-- The lane row of a slice row (R107, R227). -/
def sliceRow (r : Nat) : Nat := 720 + r

/-- The lane rows of `n` slice rows from `r` on. -/
def sliceLaneRows (r n : Nat) : List Nat := (List.range n).map (fun k => sliceRow (r + k))

/-- The check of the rows that VLDL and VSTL address (R227). -/
def sliceRows (s : State) (a : BitVec 5) (k : Nat → Res) : Res :=
  let r := (s.thr.reg a).toNat
  if 256 < r + s.est.wd then .trap s .spadRange (s.thr.reg a)
  else if sliceHeld s r s.est.wd then .stall s
  else k r

/-- The slice rows from `r` on. -/
def slicePlanes (h : Hart) (r n : Nat) : List Plane := (h.slice.toList.drop r).take n

/-- A hart with slice rows from `r` on replaced in the lanes of a mask, mirrors included (R125, R227). -/
def Hart.setSlice (h : Hart) (r : Nat) (ps : List Plane) (mask : Plane) : Hart :=
  let m := mirrored h mask
  { h with
    slice := h.slice.mapFinIdx (fun k p _ =>
      if r ≤ k then (match ps[k - r]? with | some q => mergePlane p (mirrored h q) m | none => p) else p)
    damaged := marksAfter h.damaged (sliceLaneRows r ps.length) m }

/-- VLDL: Loads WD rows of the lane-private slice into vd. (R227) -/
def execVldl (d a : BitVec 5) (p : BitVec 6) (s : State) : Out :=
  issue (wV 34 d a 0 p 6) [(a, 0)] s (fun s => sliceRows s a (fun r =>
    vreadAll s { word := wV 34 d a 0 p 6, checked := false, pm := p, rows := sliceLaneRows r s.est.wd } none none (some d) false (actives s p) (fun s i =>
      let ps := slicePlanes s.hart r s.est.wd
      vwrite s i none none d s.est.wd s.est.sd (i.act.map (fun j => (j, rawAt (i.base + j) ps))) 0)))

/-- VSTL: Stores vs into WD rows of the lane-private slice. (R227) -/
def execVstl (sf a : BitVec 5) (p : BitVec 6) (s : State) : Out :=
  issue (wV 34 sf a 0 p 7) [(a, 0)] s (fun s => sliceRows s a (fun r =>
    vreadAll s { word := wV 34 sf a 0 p 7, checked := false, pm := p } (some sf) none none false (actives s p) (fun s i =>
      .adv (vdone (s.setHart (s.hart.setSlice r (i.a.at s.est.wd s.est.sd) (laneSet i.base i.act))) i 0))))

/-! ## Predicates in memory (R228) -/

/-- The aligned 16-byte parts that hold the bytes from `lo` to `hi` - 1 after an address: each with the bytes (first
and end) that it holds (R228). -/
def predParts (a : Word) (lo hi : Nat) : List (Word × Nat × Nat) :=
  if hi ≤ lo then []
  else
    let first := (a.toNat + lo) / 16
    (List.range ((a.toNat + hi - 1) / 16 - first + 1)).map (fun k =>
      (word (16 * (first + k)), max lo (16 * (first + k) - a.toNat), min hi (16 * (first + k) + 16 - a.toNat)))

/-- The state with VSTART at the first element of a part of PLD or PST (R228). -/
def atPart (s : State) (a pa : Word) : State :=
  s.setEst { s.est with vstart := BitVec.ofNat 15 (8 * (pa.toNat - a.toNat)) }

/-- A PLD or PST over its parts: `f` does one part's bytes at its place, and a part that fails gives its own address to TVAL
(R97, R103, R228; DEDUCED, notes/assumptions/66.md). -/
def partLoop (acc : Access) (a : Word) (f : State → Place → Nat → Nat → State) :
    List (Word × Nat × Nat) → State → Res
  | [], s => .adv (s.setEst { s.est with vstart := 0, pending := none })
  | (pa, lo, hi) :: ps, s =>
    if (match s.thr.cut with | some n => decide (n ≤ 8 * (pa.toNat - a.toNat)) | none => false) then
      forcedStop (atPart s a pa)
    else
      match resolveThr s acc pa 16 with
      | .fail c s' => .trap (atPart s' a pa) c pa
      | .stall s' => .stall (atPart s' a pa)
      | .ok p s' =>
        if (match acc with | .read => true | _ => false) && s'.lostAt s'.loc p 16 then
          .trap (atPart (s'.moveMet s'.loc p 16) a pa) .dataPoison pa
        else
          let at' : Place := match p with
            | .spad c o => .spad c (o + (a.toNat + lo) % 16)
            | .phys q => .phys (q + (a.toNat + lo) % 16)
          let s1 := f (s'.touchVec p) at' lo hi
          partLoop acc a f ps (match acc with | .write => s1.movedTo s1.loc p 16 | _ => s1)

/-- The bytes that VL predicate bits take in memory (R228). -/
def predBytes (x : EState) : Nat := (x.vl + 7) / 8

/-- PLD: Loads a predicate from packed bytes. (R228) -/
def execPld (a : BitVec 5) (p : BitVec 6) (s : State) : Out :=
  issue (wV 34 0 a 0 p 8) [(a, 0)] s (fun s =>
    if s.held false then .stall s
    else predCheck s false [] [s.est.msdepth] fun s =>
      let ea := s.thr.reg a
      let base := laneBase s.hart s.who
      partLoop .read ea (fun s q lo hi =>
        let bs := s.loadAt q (hi - lo)
        let js := ((List.range s.est.vl).filter (fun j => decide (8 * lo ≤ j) && decide (j < 8 * hi) &&
          decide (s.est.vstart.toNat ≤ j) && topAt s.hart s.est base j))
        s.setHart (s.hart.setPred base p js (js.filter (fun j => (bs.getD (j / 8 - lo) 0).getLsbD (j % 8)))))
        (predParts ea (s.est.vstart.toNat / 8) (predBytes s.est)) s)

/-- PST: Stores a predicate as packed bytes. (R228) -/
def execPst (a : BitVec 5) (p : BitVec 6) (s : State) : Out :=
  issue (wV 34 0 a 0 p 9) [(a, 0)] s (fun s =>
    if s.held false then .stall s
    else predCheck s false [p] [] fun s =>
      let ea := s.thr.reg a
      let base := laneBase s.hart s.who
      partLoop .write ea (fun s q lo hi =>
        s.storeAt none q ((List.range (hi - lo)).map (fun k => BitVec.ofNat 8
          ((List.range 8).foldl (fun acc b =>
            let j := 8 * (lo + k) + b
            if j < s.est.vl && predAt s.hart s.est base p j then acc + 2 ^ b else acc) 0))))
        (predParts ea (s.est.vstart.toNat / 8) (predBytes s.est)) s)

/-! ## MX groups in memory (R229, R230) -/

/-- The address of a block's scale byte and of its element bytes (R229). -/
def mxAddrs (ga : Word) (width k : Nat) : Word × Word :=
  let ebb := mxBlockBytes width
  let gb := ga + word (k / 16 * (16 + 16 * ebb))
  (gb + word (k % 16), gb + word (16 + k % 16 * ebb))

/-- Whether an MX instruction can do a block: its scale byte and its element bytes resolve, eight bytes at a time. -/
inductive BlockRead
  | ok (s : State) (places : List Place)
  | fail (s : State) (c : Cause) (a : Word)
  | stall (s : State)

/-- Resolves (address, size) pairs in order. -/
def resolveAll (acc : Access) : List (Word × Nat) → State → List Place → BlockRead
  | [], s, ps => .ok s ps
  | (a, n) :: r, s, ps =>
    match resolveThr s acc a n with
    | .fail c s' => .fail s' c a
    | .stall s' => .stall s'
    | .ok p s' =>
      if (match acc with | .read => true | _ => false) && s'.lostAt s'.loc p n then .fail (s'.moveMet s'.loc p n) .dataPoison a
      else resolveAll acc r (s'.touchVec p) (ps ++ [p])

/-- The words of 8 of a block's element bytes that hold bits of some elements (R130, R230). -/
def blockWords (width : Nat) (js : List Nat) : List Nat :=
  (List.range (mxBlockBytes width / 8)).filter (fun i => js.any (fun j =>
    decide (width * (j % 32) < 64 * (i + 1)) && decide (64 * i < width * (j % 32 + 1))))

/-- The accesses of a block: the scale byte, then the element bytes of some elements (R230). -/
def blockAccesses (ga : Word) (width k : Nat) (js : List Nat) : List (Word × Nat) :=
  let a := mxAddrs ga width k
  (a.1, 1) :: (blockWords width js).map (fun i => (a.2 + word (8 * i), 8))

/-- A block's element bytes, of which the words accessed are given. -/
def blockBytes (width : Nat) (js : List Nat) (ws : List (List Byte)) : List Byte :=
  (List.range (mxBlockBytes width / 8)).flatMap (fun i => ws.getD ((blockWords width js).idxOf i) (List.replicate 8 0))

/-- Element `n` of a block's element bytes (R130). -/
def blockElem (bytes : List Byte) (width n : Nat) : Nat := ofBytes bytes / 2 ^ (width * n) % 2 ^ width

/-- A block's element bytes with an element replaced (R130, R230). -/
def setBlockElem (len width : Nat) (bytes : List Byte) (n v : Nat) : List Byte :=
  let old := ofBytes bytes
  bytesOf len (old - old / 2 ^ (width * n) % 2 ^ width * 2 ^ (width * n) + v % 2 ^ width * 2 ^ (width * n))

/-- The sign with which MXLD commits (R230). -/
def mxSign (x : EState) : Bool := x.fd == 10

/-- The checks of an MX memory instruction before its blocks: the element kind, then the alignment (R229, R230). -/
def mxCheck (w : BitVec 32) (s : State) (a : BitVec 5) (k : Res) : Res :=
  if (mxEmax s.est.fd).isNone then .trap s .ill (w.setWidth 64)
  else if (s.thr.reg a).toNat % 16 ≠ 0 then .trap s .misalign (s.thr.reg a)
  else k

/-- MXLD over the blocks that hold active elements; a scale byte that fails gives its own address to TVAL (R97, R230; DEDUCED,
notes/assumptions/66.md). -/
def mxLoad (e : BitVec 4) (ga : Word) (width base : Nat) : List (Nat × List Nat) → State → List (Nat × Nat) → MemEnd
  | [], s, acc => .all s acc
  | (k, js) :: r, s, acc =>
    match resolveAll .read (blockAccesses ga width k js) s [] with
    | .fail s' c a => .stop s' acc (32 * k) (.trap c a)
    | .stall s' => .stop s' acc (32 * k) .hold
    | .ok s' ps =>
      let bytes := blockBytes width js ((ps.drop 1).map (fun p => s'.loadAt p 8))
      let sc := ((ps.head?.map (fun p => s'.loadAt p 1)).getD []).headD 0
      mxLoad e ga width base r (s'.setHart (s'.hart.setScales e [(base / 32 + k, sc)]))
        (acc ++ js.map (fun j => (j, blockElem bytes width (j % 32))))

/-- Every element that has a bit in byte `b` of a block's element bytes is among some elements (R130). -/
def blockByte (width : Nat) (js : List Nat) (b : Nat) : Bool :=
  (List.range 8).all (fun x => js.any (fun j => decide (j % 32 = (8 * b + x) / width)))

/-- The bytes (address, length) that MXST writes of a block: those of its active elements whole, and its scale byte
(R230). -/
def blockSpans (width : Nat) (js : List Nat) (ps : List Place) : List (Nat × Nat) :=
  (ps.mapIdx (fun n p => (n, p))).flatMap (fun (x : Nat × Place) =>
    match x.2 with
    | .phys pa =>
      if x.1 = 0 then [(pa, 1)]
      else
        let w := (blockWords width js).getD (x.1 - 1) 0
        ((List.range 8).filter (fun b => blockByte width js (8 * w + b))).map (fun b => (pa + b, 1))
    | .spad _ _ => [])

/-- MXST over the blocks that hold active elements; answers the bytes written (R230). -/
def mxStore (e : BitVec 4) (ga : Word) (width : Nat) (i : VIn) (sd : Bool) :
    List (Nat × List Nat) → State → List (Nat × Nat) → MemEnd
  | [], s, acc => .all s acc
  | (k, js) :: r, s, acc =>
    match resolveAll .write (blockAccesses ga width k js) s [] with
    | .fail s' c a => .stop s' acc (32 * k) (.trap c a)
    | .stall s' => .stop s' acc (32 * k) .hold
    | .ok s' ps =>
      let old := blockBytes width js ((ps.drop 1).map (fun p => s'.loadAt p 8))
      let new := js.foldl (fun b j => setBlockElem old.length width b (j % 32) (i.rawA width sd j)) old
      let changed := ((ps.drop 1).zip (blockWords width js)).map (fun x => (x.1, (new.drop (8 * x.2)).take 8))
      let s1 := changed.foldl (fun s c => s.storeAt none c.1 c.2) s'
      let s2 := match ps with
        | p :: _ => s1.storeAt none p [scaleByte s.hart e (i.base + 32 * k)]
        | [] => s1
      mxStore e ga width i sd r s2 (acc ++ blockSpans width js ps)

/-- A stop of an MX instruction stands at the first element of its block (R230). -/
def toBlock (late : Option (Nat × MemStop)) : Option (Nat × MemStop) := late.map (fun q => (q.1 / 32 * 32, q.2))

/-- The elements below a stop. -/
def belowStop (js : List Nat) (late : Option (Nat × MemStop)) : List Nat :=
  js.filter (fun j => match late with | some q => decide (j < q.1) | none => true)

/-- MXLD: Loads MX blocks: scale bytes into a scale register and elements into vd. (R230) -/
def execMxld (d a : BitVec 5) (e : BitVec 4) (p : BitVec 6) (s : State) : Out :=
  issue (wV 34 d a (0#1 ++ e) p 10) [(a, 0)] s (fun s => mxCheck (wV 34 d a (0#1 ++ e) p 10) s a (keepVr s
    (memStart (wV 34 d a (0#1 ++ e) p 10) s p none none (some d) (actives s p) (fun s1 i start js late =>
      let width := s1.est.fwd
      let l := toBlock late
      loadEnd i start d width (mxSign s1.est)
        ((mxLoad e (s1.thr.reg a) width i.base (blocksOf (belowStop js l)) s1 []).orStop l)))))

/-- MXST: Stores MX blocks: elements of vs and scale bytes of a scale register. (R230) -/
def execMxst (sf a : BitVec 5) (e : BitVec 4) (p : BitVec 6) (s : State) : Out :=
  issue (wV 34 sf a (0#1 ++ e) p 11) [(a, 0)] s (fun s => mxCheck (wV 34 sf a (0#1 ++ e) p 11) s a (keepVr s
    (memStart (wV 34 sf a (0#1 ++ e) p 11) s p (some sf) none none (actives s p) (fun s1 i start js late =>
      let l := toBlock late
      storeEnd i start (fun s a => s.movedTo s.loc (.phys a) 1) id
        ((mxStore e (s1.thr.reg a) s1.est.fwd i s1.est.sd (blocksOf (belowStop js l)) s1 []).orStop l)))))

/-! ## Versions (R335) -/

/-- One element of VVRLD, as VRLD on its word: served at its home as soon as its version exists; the instruction waits at
the first that is not (R330, R335). -/
def versReadOne (ga : Word) (width : Nat) (qs : List VersAsk) (s : State) (j : Nat) : MemOne :=
  let a := ga + word (8 * j)
  match qs.find? (fun q => q.addr == a) with
  | none => match s.versRegion a with
    | .error c => .stop s (.trap c a)
    | .ok _ => .stop s (.trap .verGone a)
  | some q =>
    match q.ended with
    | some (.served x) => .ok s (x.toNat % 2 ^ width)
    | some _ => .stop s (.trap .verGone a)
    | none => .stop s (.wait .version ga (qs.dropWhile (fun q => q.addr != a)) (.lanes []) .verTimeout a)

/-- What VVRLD asks for its elements: each that passes the checks of its address, settled at once if its version is live or
gone, or as the wait in progress has settled it (R330, R335). -/
def versAsks (s : State) (ga : Word) (v : BitVec 32) (js : List Nat) : List VersAsk :=
  js.filterMap (fun j =>
    let a := ga + word (8 * j)
    match s.thr.asked a with
    | some q => some q
    | none =>
      match s.versRegion a with
      | .error _ => none
      | .ok r =>
        let q := versAsk s r a v none
        if verGone (r.floorAt a) (r.word a) v then some { q with ended := some .gone }
        else some { q with ended := ((r.word a).find v).map .served })

/-- One element of VVRST, as VRST on its word; one that was created while the instruction waited for room is not created
again; `ns` are the spools that the instruction streams (R331, R335). -/
def versWriteOne (ga : Word) (v : BitVec 32) (val : Nat → Word) (ns : List Nat) (s : State) (j : Nat) : MemOne :=
  let a := ga + word (8 * j)
  match s.thr.versDone a with
  | some .made => .ok s 0
  | some .dup => .stop s (.trap .verDup a)
  | some _ => .stop s (.trap .verGone a)
  | none =>
    match s.versRegion a with
    | .error c => .stop s (.trap c a)
    | .ok r =>
      match createVersion s r a v (val j) with
      | .done s' => .ok s' 0
      | .gone => .stop s (.trap .verGone a)
      | .dup => .stop s (.trap .verDup a)
      | .full => .stop s (.wait .room a [versAsk s r a v (some (val j))] (.lanes ns) .verFull a)

/-- VVRLD: Waits for one version per element word and loads their values into vd. (R335) -/
def execVvrld (d a b : BitVec 5) (p : BitVec 6) (s : State) : Out :=
  issue (wV 34 d a b p 12) [(a, 0), (b, 0)] s (fun s => keepVr s
    (memStart (wV 34 d a b p 12) s p none none (some d) (actives s p) (fun s1 i start js late =>
      let x := s1.est
      let ga := s1.thr.reg a
      let v := (s1.thr.reg b).setWidth 32
      loadEnd i start d x.wd x.sd ((memLoop (versReadOne ga x.wd (versAsks s1 ga v js)) js s1 []).orStop late))))

/-- VVRST: Creates one version per element word from vs. (R335) -/
def execVvrst (sf a b : BitVec 5) (p : BitVec 6) (s : State) : Out :=
  issue (wV 34 sf a b p 13) [(a, 0), (b, 0)] s (fun s => keepVr s
    (if s.held true then .stall s
    else memStart (wV 34 sf a b p 13) s p (some sf) none none (actives s p) (fun s1 i start js late =>
      let ga := s1.thr.reg a
      let val := fun j => BitVec.ofInt 64 (intVal s1.est.wd s1.est.sd (i.rawA s1.est.wd s1.est.sd j))
      storeEnd i start (fun s _ => s) (fun _ => [])
        ((memLoop (versWriteOne ga ((s1.thr.reg b).setWidth 32) val (srcSpools [i.a])) js s1 []).orStop late))))

end Sys2Proof.Machine
end

