-- ==== Sys2Proof/Machine/Dispatch.lean ====
section
/-! DEFINITION. Sys2Proof/Machine/Dispatch.lean: which meaning each instruction, operation and event has. -/

namespace Sys2Proof.Machine

def exec (i : Instr) (s : State) : Host.Outcome State Fault Refusal :=
  match i with
  | .add d a b f g => Sys2Proof.Machine.execAdd d a b f g s
  | .sub d a b f g => Sys2Proof.Machine.execSub d a b f g s
  | .mul d a b f g => Sys2Proof.Machine.execMul d a b f g s
  | .mulh d a b f g => Sys2Proof.Machine.execMulh d a b f g s
  | .mulhn d a b f g => Sys2Proof.Machine.execMulhn d a b f g s
  | .div d a b f g => Sys2Proof.Machine.execDiv d a b f g s
  | .divn d a b f g => Sys2Proof.Machine.execDivn d a b f g s
  | .rem d a b f g => Sys2Proof.Machine.execRem d a b f g s
  | .remn d a b f g => Sys2Proof.Machine.execRemn d a b f g s
  | .and d a b f g => Sys2Proof.Machine.execAnd d a b f g s
  | .or d a b f g => Sys2Proof.Machine.execOr d a b f g s
  | .xor d a b f g => Sys2Proof.Machine.execXor d a b f g s
  | .andn d a b f g => Sys2Proof.Machine.execAndn d a b f g s
  | .shl d a b f g => Sys2Proof.Machine.execShl d a b f g s
  | .shr d a b f g => Sys2Proof.Machine.execShr d a b f g s
  | .sar d a b f g => Sys2Proof.Machine.execSar d a b f g s
  | .min d a b f g => Sys2Proof.Machine.execMin d a b f g s
  | .max d a b f g => Sys2Proof.Machine.execMax d a b f g s
  | .minn d a b f g => Sys2Proof.Machine.execMinn d a b f g s
  | .maxn d a b f g => Sys2Proof.Machine.execMaxn d a b f g s
  | .slt d a b f g => Sys2Proof.Machine.execSlt d a b f g s
  | .sltn d a b f g => Sys2Proof.Machine.execSltn d a b f g s
  | .clz d a f => Sys2Proof.Machine.execClz d a f s
  | .ctz d a f => Sys2Proof.Machine.execCtz d a f s
  | .popc d a f => Sys2Proof.Machine.execPopc d a f s
  | .mov d a f => Sys2Proof.Machine.execMov d a f s
  | .gfull d a => Sys2Proof.Machine.execGfull d a s
  | .gempty d => Sys2Proof.Machine.execGempty d s
  | .addi d a f im => Sys2Proof.Machine.execAddi d a f im s
  | .andi d a f im => Sys2Proof.Machine.execAndi d a f im s
  | .ori d a f im => Sys2Proof.Machine.execOri d a f im s
  | .xori d a f im => Sys2Proof.Machine.execXori d a f im s
  | .shli d a f n => Sys2Proof.Machine.execShli d a f n s
  | .shri d a f n => Sys2Proof.Machine.execShri d a f n s
  | .sari d a f n => Sys2Proof.Machine.execSari d a f n s
  | .slti d a f im => Sys2Proof.Machine.execSlti d a f im s
  | .ins16 d sf im => Sys2Proof.Machine.execIns16 d sf im s
  | .ldi d im => Sys2Proof.Machine.execLdi d im s
  | .ldb d a f o => Sys2Proof.Machine.execLdb d a f o s
  | .ldbz d a f o => Sys2Proof.Machine.execLdbz d a f o s
  | .ldh d a f o => Sys2Proof.Machine.execLdh d a f o s
  | .ldhz d a f o => Sys2Proof.Machine.execLdhz d a f o s
  | .ldw d a f o => Sys2Proof.Machine.execLdw d a f o s
  | .ldwz d a f o => Sys2Proof.Machine.execLdwz d a f o s
  | .ldd d a f o => Sys2Proof.Machine.execLdd d a f o s
  | .ldq d a f o => Sys2Proof.Machine.execLdq d a f o s
  | .stb sf a f o => Sys2Proof.Machine.execStb sf a f o s
  | .sth sf a f o => Sys2Proof.Machine.execSth sf a f o s
  | .stw sf a f o => Sys2Proof.Machine.execStw sf a f o s
  | .std sf a f o => Sys2Proof.Machine.execStd sf a f o s
  | .stq sf a f o => Sys2Proof.Machine.execStq sf a f o s
  | .beq a b f g o => Sys2Proof.Machine.execBeq a b f g o s
  | .bne a b f g o => Sys2Proof.Machine.execBne a b f g o s
  | .blt a b f g o => Sys2Proof.Machine.execBlt a b f g o s
  | .bge a b f g o => Sys2Proof.Machine.execBge a b f g o s
  | .bltn a b f g o => Sys2Proof.Machine.execBltn a b f g o s
  | .bgen a b f g o => Sys2Proof.Machine.execBgen a b f g o s
  | .bmz o => Sys2Proof.Machine.execBmz o s
  | .boq o => Sys2Proof.Machine.execBoq o s
  | .jmp o => Sys2Proof.Machine.execJmp o s
  | .call o => Sys2Proof.Machine.execCall o s
  | .ret => Sys2Proof.Machine.execRet s
  | .callr a => Sys2Proof.Machine.execCallr a s
  | .jmpr a => Sys2Proof.Machine.execJmpr a s
  | .lexit => Sys2Proof.Machine.execLexit s
  | .lidx d l => Sys2Proof.Machine.execLidx d l s
  | .lcnt d l => Sys2Proof.Machine.execLcnt d l s
  | .yield => Sys2Proof.Machine.execYield s
  | .nop => Sys2Proof.Machine.execNop s
  | .bopush a => Sys2Proof.Machine.execBopush a s
  | .loop a e => Sys2Proof.Machine.execLoop a e s
  | .loopi c e => Sys2Proof.Machine.execLoopi c e s
  | .csrrd d c => Sys2Proof.Machine.execCsrrd d c s
  | .csrwr a c => Sys2Proof.Machine.execCsrwr a c s
  | .csrset a c => Sys2Proof.Machine.execCsrset a c s
  | .csrclr a c => Sys2Proof.Machine.execCsrclr a c s
  | .trap n => Sys2Proof.Machine.execTrap n s
  | .rett => Sys2Proof.Machine.execRett s
  | .halt => Sys2Proof.Machine.execHalt s
  | .gtsrd d => Sys2Proof.Machine.execGtsrd d s
  | .evrd d => Sys2Proof.Machine.execEvrd d s
  | .evwait => Sys2Proof.Machine.execEvwait s
  | .waita d a => Sys2Proof.Machine.execWaita d a s
  | .fence o sf => Sys2Proof.Machine.execFence o sf s
  | .sbar a => Sys2Proof.Machine.execSbar a s
  | .ifence => Sys2Proof.Machine.execIfence s
  | .tlbinvAll a r => Sys2Proof.Machine.execTlbinvAll a r s
  | .tlbinvPage a r => Sys2Proof.Machine.execTlbinvPage a r s
  | .tlbinvContext a r => Sys2Proof.Machine.execTlbinvContext a r s
  | .atadd d a b f g o sf => Sys2Proof.Machine.execAtadd d a b f g o sf s
  | .atswp d a b f g o sf => Sys2Proof.Machine.execAtswp d a b f g o sf s
  | .atcas d a b f g o sf => Sys2Proof.Machine.execAtcas d a b f g o sf s
  | .atmin d a b f g o sf => Sys2Proof.Machine.execAtmin d a b f g o sf s
  | .atmax d a b f g o sf => Sys2Proof.Machine.execAtmax d a b f g o sf s
  | .atminn d a b f g o sf => Sys2Proof.Machine.execAtminn d a b f g o sf s
  | .atmaxn d a b f g o sf => Sys2Proof.Machine.execAtmaxn d a b f g o sf s
  | .atand d a b f g o sf => Sys2Proof.Machine.execAtand d a b f g o sf s
  | .ator d a b f g o sf => Sys2Proof.Machine.execAtor d a b f g o sf s
  | .atxor d a b f g o sf => Sys2Proof.Machine.execAtxor d a b f g o sf s
  | .redadd a b f g o sf => Sys2Proof.Machine.execRedadd a b f g o sf s
  | .redmin a b f g o sf => Sys2Proof.Machine.execRedmin a b f g o sf s
  | .redmax a b f g o sf => Sys2Proof.Machine.execRedmax a b f g o sf s
  | .lda d a f sf => Sys2Proof.Machine.execLda d a f sf s
  | .stl a b f g sf => Sys2Proof.Machine.execStl a b f g sf s
  | .sytas d a f => Sys2Proof.Machine.execSytas d a f s
  | .syfadd d a b f g => Sys2Proof.Machine.execSyfadd d a b f g s
  | .syrd d a f => Sys2Proof.Machine.execSyrd d a f s
  | .sywr a b f g => Sys2Proof.Machine.execSywr a b f g s
  | .sywait a b f g => Sys2Proof.Machine.execSywait a b f g s
  | .ldff d a f o => Sys2Proof.Machine.execLdff d a f o s
  | .ldfe d a f o => Sys2Proof.Machine.execLdfe d a f o s
  | .stef sf a f o => Sys2Proof.Machine.execStef sf a f o s
  | .stff sf a f o => Sys2Proof.Machine.execStff sf a f o s
  | .feclr a f o => Sys2Proof.Machine.execFeclr a f o s
  | .feq d a f o => Sys2Proof.Machine.execFeq d a f o s
  | .vrld d a b f g => Sys2Proof.Machine.execVrld d a b f g s
  | .vrldle d a b f g => Sys2Proof.Machine.execVrldle d a b f g s
  | .vrst d a b f g => Sys2Proof.Machine.execVrst d a b f g s
  | .vrfloor a b f g => Sys2Proof.Machine.execVrfloor a b f g s
  | .vrtop d a f => Sys2Proof.Machine.execVrtop d a f s
  | .vrpoll d a b f g => Sys2Proof.Machine.execVrpoll d a b f g s
  | .qpush q sf => Sys2Proof.Machine.execQpush q sf s
  | .qpop d q => Sys2Proof.Machine.execQpop d q s
  | .spbind n a => Sys2Proof.Machine.execSpbind n a s
  | .spunb n => Sys2Proof.Machine.execSpunb n s
  | .spdrain n => Sys2Proof.Machine.execSpdrain n s
  | .spstat d n => Sys2Proof.Machine.execSpstat d n s
  | .bcopy d a => Sys2Proof.Machine.execBcopy d a s
  | .xcopy d a => Sys2Proof.Machine.execXcopy d a s
  | .tenq d a => Sys2Proof.Machine.execTenq d a s
  | .twin d a => Sys2Proof.Machine.execTwin d a s
  | .trel a => Sys2Proof.Machine.execTrel a s
  | .tcancel a => Sys2Proof.Machine.execTcancel a s
  | .bwred d a b => Sys2Proof.Machine.execBwred d a b s
  | .pgmig a b => Sys2Proof.Machine.execPgmig a b s
  | .vadd d a b p => Sys2Proof.Machine.execVadd d a b p s
  | .vsub d a b p => Sys2Proof.Machine.execVsub d a b p s
  | .vmul d a b p => Sys2Proof.Machine.execVmul d a b p s
  | .vmac d a b p => Sys2Proof.Machine.execVmac d a b p s
  | .vmsb d a b p => Sys2Proof.Machine.execVmsb d a b p s
  | .vssa d a b p => Sys2Proof.Machine.execVssa d a b p s
  | .vmin d a b p => Sys2Proof.Machine.execVmin d a b p s
  | .vmax d a b p => Sys2Proof.Machine.execVmax d a b p s
  | .vand d a b p => Sys2Proof.Machine.execVand d a b p s
  | .vor d a b p => Sys2Proof.Machine.execVor d a b p s
  | .vxor d a b p => Sys2Proof.Machine.execVxor d a b p s
  | .vandn d a b p => Sys2Proof.Machine.execVandn d a b p s
  | .vshl d a b p => Sys2Proof.Machine.execVshl d a b p s
  | .vshr d a b p => Sys2Proof.Machine.execVshr d a b p s
  | .vmulh d a b p => Sys2Proof.Machine.execVmulh d a b p s
  | .vsel d a b p => Sys2Proof.Machine.execVsel d a b p s
  | .vadds d a b p => Sys2Proof.Machine.execVadds d a b p s
  | .vsubs d a b p => Sys2Proof.Machine.execVsubs d a b p s
  | .vrsubs d a b p => Sys2Proof.Machine.execVrsubs d a b p s
  | .vmuls d a b p => Sys2Proof.Machine.execVmuls d a b p s
  | .vmacs d a b p => Sys2Proof.Machine.execVmacs d a b p s
  | .vmins d a b p => Sys2Proof.Machine.execVmins d a b p s
  | .vmaxs d a b p => Sys2Proof.Machine.execVmaxs d a b p s
  | .vands d a b p => Sys2Proof.Machine.execVands d a b p s
  | .vors d a b p => Sys2Proof.Machine.execVors d a b p s
  | .vxors d a b p => Sys2Proof.Machine.execVxors d a b p s
  | .vshls d a b p => Sys2Proof.Machine.execVshls d a b p s
  | .vshrs d a b p => Sys2Proof.Machine.execVshrs d a b p s
  | .vbcast d b p => Sys2Proof.Machine.execVbcast d b p s
  | .vrand d a b p => Sys2Proof.Machine.execVrand d a b p s
  | .vslup d a b p => Sys2Proof.Machine.execVslup d a b p s
  | .vsldn d a b p => Sys2Proof.Machine.execVsldn d a b p s
  | .vmov d a p => Sys2Proof.Machine.execVmov d a p s
  | .vnot d a p => Sys2Proof.Machine.execVnot d a p s
  | .vneg d a p => Sys2Proof.Machine.execVneg d a p s
  | .vabs d a p => Sys2Proof.Machine.execVabs d a p s
  | .vcvt d a p => Sys2Proof.Machine.execVcvt d a p s
  | .vsatc d a p => Sys2Proof.Machine.execVsatc d a p s
  | .vhad d a k p => Sys2Proof.Machine.execVhad d a k p s
  | .vidx d sf t => Sys2Proof.Machine.execVidx d sf t s
  | .vceq d a b p => Sys2Proof.Machine.execVceq d a b p s
  | .vcne d a b p => Sys2Proof.Machine.execVcne d a b p s
  | .vclt d a b p => Sys2Proof.Machine.execVclt d a b p s
  | .vcle d a b p => Sys2Proof.Machine.execVcle d a b p s
  | .vceqs d a b p => Sys2Proof.Machine.execVceqs d a b p s
  | .vcnes d a b p => Sys2Proof.Machine.execVcnes d a b p s
  | .vclts d a b p => Sys2Proof.Machine.execVclts d a b p s
  | .vcles d a b p => Sys2Proof.Machine.execVcles d a b p s
  | .vcgts d a b p => Sys2Proof.Machine.execVcgts d a b p s
  | .vcges d a b p => Sys2Proof.Machine.execVcges d a b p s
  | .vtst d a b p => Sys2Proof.Machine.execVtst d a b p s
  | .fceq d a b p => Sys2Proof.Machine.execFceq d a b p s
  | .fclt d a b p => Sys2Proof.Machine.execFclt d a b p s
  | .fcle d a b p => Sys2Proof.Machine.execFcle d a b p s
  | .fcun d a b p => Sys2Proof.Machine.execFcun d a b p s
  | .pand d a b => Sys2Proof.Machine.execPand d a b s
  | .por d a b => Sys2Proof.Machine.execPor d a b s
  | .pxor d a b => Sys2Proof.Machine.execPxor d a b s
  | .pandn d a b => Sys2Proof.Machine.execPandn d a b s
  | .pnot d a => Sys2Proof.Machine.execPnot d a s
  | .pmov d a => Sys2Proof.Machine.execPmov d a s
  | .pall d => Sys2Proof.Machine.execPall d s
  | .pclr d => Sys2Proof.Machine.execPclr d s
  | .pcnt d a => Sys2Proof.Machine.execPcnt d a s
  | .pffs d a => Sys2Proof.Machine.execPffs d a s
  | .pfilt d a b => Sys2Proof.Machine.execPfilt d a b s
  | .mpush a => Sys2Proof.Machine.execMpush a s
  | .minv => Sys2Proof.Machine.execMinv s
  | .mpop => Sys2Proof.Machine.execMpop s
  | .mtop d => Sys2Proof.Machine.execMtop d s
  | .seamrd d => Sys2Proof.Machine.execSeamrd d s
  | .seamwr a => Sys2Proof.Machine.execSeamwr a s
  | .vredsum d a b p => Sys2Proof.Machine.execVredsum d a b p s
  | .vredmin d a b p => Sys2Proof.Machine.execVredmin d a b p s
  | .vredmax d a b p => Sys2Proof.Machine.execVredmax d a b p s
  | .vredand d a b p => Sys2Proof.Machine.execVredand d a b p s
  | .vredor d a b p => Sys2Proof.Machine.execVredor d a b p s
  | .vargmax d a b p => Sys2Proof.Machine.execVargmax d a b p s
  | .vargmin d a b p => Sys2Proof.Machine.execVargmin d a b p s
  | .fredsum d a b p => Sys2Proof.Machine.execFredsum d a b p s
  | .fredmax d a b p => Sys2Proof.Machine.execFredmax d a b p s
  | .fargmax d a b p => Sys2Proof.Machine.execFargmax d a b p s
  | .vscansum d a p => Sys2Proof.Machine.execVscansum d a p s
  | .vscanmax d a p => Sys2Proof.Machine.execVscanmax d a p s
  | .vscanmin d a p => Sys2Proof.Machine.execVscanmin d a p s
  | .fscansum d a p => Sys2Proof.Machine.execFscansum d a p s
  | .vcompress d a p => Sys2Proof.Machine.execVcompress d a p s
  | .vexpand d a p => Sys2Proof.Machine.execVexpand d a p s
  | .vperm d a b p => Sys2Proof.Machine.execVperm d a b p s
  | .fadd d a b p => Sys2Proof.Machine.execFadd d a b p s
  | .fsub d a b p => Sys2Proof.Machine.execFsub d a b p s
  | .fmul d a b p => Sys2Proof.Machine.execFmul d a b p s
  | .fma d a b p => Sys2Proof.Machine.execFma d a b p s
  | .fmin d a b p => Sys2Proof.Machine.execFmin d a b p s
  | .fmax d a b p => Sys2Proof.Machine.execFmax d a b p s
  | .fabs d a p => Sys2Proof.Machine.execFabs d a p s
  | .fneg d a p => Sys2Proof.Machine.execFneg d a p s
  | .fcvt d a p => Sys2Proof.Machine.execFcvt d a p s
  | .fcvti d a p => Sys2Proof.Machine.execFcvti d a p s
  | .fcvtf d a p => Sys2Proof.Machine.execFcvtf d a p s
  | .fexp2 d a p => Sys2Proof.Machine.execFexp2 d a p s
  | .frcp d a p => Sys2Proof.Machine.execFrcp d a p s
  | .fscl d a b p => Sys2Proof.Machine.execFscl d a b p s
  | .mxscl d a p => Sys2Proof.Machine.execMxscl d a p s
  | .mxqnt d a p => Sys2Proof.Machine.execMxqnt d a p s
  | .mxbdot d a b p => Sys2Proof.Machine.execMxbdot d a b p s
  | .emov e f => Sys2Proof.Machine.execEmov e f s
  | .vqnt d a p => Sys2Proof.Machine.execVqnt d a p s
  | .vld d a p => Sys2Proof.Machine.execVld d a p s
  | .vst sf a p => Sys2Proof.Machine.execVst sf a p s
  | .vlds d a b p => Sys2Proof.Machine.execVlds d a b p s
  | .vsts sf a b p => Sys2Proof.Machine.execVsts sf a b p s
  | .vldx d a b p => Sys2Proof.Machine.execVldx d a b p s
  | .vstx sf a b p => Sys2Proof.Machine.execVstx sf a b p s
  | .vldl d a p => Sys2Proof.Machine.execVldl d a p s
  | .vstl sf a p => Sys2Proof.Machine.execVstl sf a p s
  | .pld a p => Sys2Proof.Machine.execPld a p s
  | .pst a p => Sys2Proof.Machine.execPst a p s
  | .mxld d a e p => Sys2Proof.Machine.execMxld d a e p s
  | .mxst sf a e p => Sys2Proof.Machine.execMxst sf a e p s
  | .vvrld d a b p => Sys2Proof.Machine.execVvrld d a b p s
  | .vvrst sf a b p => Sys2Proof.Machine.execVvrst sf a b p s
  | .setvlx d a o => Sys2Proof.Machine.execSetvlx d a o s
  | .setvl d a => Sys2Proof.Machine.execSetvl d a s
  | .setvlf d a => Sys2Proof.Machine.execSetvlf d a s
  | .vkill a => Sys2Proof.Machine.execVkill a s
  | .setew a b d x y z => Sys2Proof.Machine.execSetew a b d x y z s
  | .pgclr t => Sys2Proof.Machine.execPgclr t s
  | .pgadd d a b t => Sys2Proof.Machine.execPgadd d a b t s
  | .pganc d a b t => Sys2Proof.Machine.execPganc d a b t s
  | .pgpos d a t => Sys2Proof.Machine.execPgpos d a t s
  | .pgpath d a t => Sys2Proof.Machine.execPgpath d a t s
  | .pgprune d a b t => Sys2Proof.Machine.execPgprune d a b t s
  | .pgrd d a c t => Sys2Proof.Machine.execPgrd d a c t s
  | .pgcnt d a b t => Sys2Proof.Machine.execPgcnt d a b t s
  | .pgsize d t => Sys2Proof.Machine.execPgsize d t s
  | .split n => Sys2Proof.Machine.execSplit n s
  | .join => Sys2Proof.Machine.execJoin s
  | .mtid d => Sys2Proof.Machine.execMtid d s
  | .pfx p im v c e l u => Sys2Proof.Machine.execPfx p im v c e l u s
  | .fillComplete c w n => Sys2Proof.Machine.execFillComplete c w n s
  | .waitTimeout c w => Sys2Proof.Machine.execWaitTimeout c w s
  | .feTimeout c n => Sys2Proof.Machine.execFeTimeout c n s
  | .verTimeout c w => Sys2Proof.Machine.execVerTimeout c w s
  | .verFull c w => Sys2Proof.Machine.execVerFull c w s
  | .trapDelivery c w => Sys2Proof.Machine.execTrapDelivery c w s
  | .predeadlineExpiry c w => Sys2Proof.Machine.execPredeadlineExpiry c w s
  | .contextSave team => Sys2Proof.Machine.execContextSave team s
  | .teamRestore team die cluster => Sys2Proof.Machine.execTeamRestore team die cluster s
  | .teamPlace launch => Sys2Proof.Machine.execTeamPlace launch s
  | .victimSelection launch => Sys2Proof.Machine.execVictimSelection launch s
  | .hotSpotCheck => Sys2Proof.Machine.execHotSpotCheck s
  | .launch q => Sys2Proof.Machine.execLaunch q s
  | .launchLive launch => Sys2Proof.Machine.execLaunchLive launch s
  | .launchComplete launch => Sys2Proof.Machine.execLaunchComplete launch s
  | .droverCopy q => Sys2Proof.Machine.execDroverCopy q s
  | .waitver q => Sys2Proof.Machine.execWaitver q s
  | .makever q => Sys2Proof.Machine.execMakever q s
  | .droverFence q => Sys2Proof.Machine.execDroverFence q s
  | .cancel q => Sys2Proof.Machine.execCancel q s
  | .invalidRecord q => Sys2Proof.Machine.execInvalidRecord q s
  | .qtailWrite q v => Sys2Proof.Machine.execQtailWrite q v s
  | .queueEnable q => Sys2Proof.Machine.execQueueEnable q s
  | .queueDisable q => Sys2Proof.Machine.execQueueDisable q s
  | .fltClear q => Sys2Proof.Machine.execFltClear q s
  | .hostEventRingEnable => Sys2Proof.Machine.execHostEventRingEnable s
  | .hevheadWrite v => Sys2Proof.Machine.execHevheadWrite v s
  | .hostEventRecord r => Sys2Proof.Machine.execHostEventRecord r s
  | .registerWrite r v => Sys2Proof.Machine.execRegisterWrite r v s
  | .pwrctlEnter => Sys2Proof.Machine.execPwrctlEnter s
  | .pwrctlExit => Sys2Proof.Machine.execPwrctlExit s
  | .brnNAssert => Sys2Proof.Machine.execBrnNAssert s
  | .brnNDeassert => Sys2Proof.Machine.execBrnNDeassert s
  | .engineParkDeadline => Sys2Proof.Machine.execEngineParkDeadline s
  | .brownoutHeld => Sys2Proof.Machine.execBrownoutHeld s
  | .brownoutExit => Sys2Proof.Machine.execBrownoutExit s
  | .brownoutResume => Sys2Proof.Machine.execBrownoutResume s
  | .supplyLoss => Sys2Proof.Machine.execSupplyLoss s
  | .coldBoot => Sys2Proof.Machine.execColdBoot s
  | .attestationRequest nonce => Sys2Proof.Machine.execAttestationRequest nonce s
  | .crookAssert => Sys2Proof.Machine.execCrookAssert s
  | .crookDeassert => Sys2Proof.Machine.execCrookDeassert s
  | .crookRelease => Sys2Proof.Machine.execCrookRelease s
  | .crookRampStep => Sys2Proof.Machine.execCrookRampStep s
  | .powerSample watts => Sys2Proof.Machine.execPowerSample watts s
  | .powerLoop => Sys2Proof.Machine.execPowerLoop s
  | .thermalAdjust => Sys2Proof.Machine.execThermalAdjust s
  | .lease f => Sys2Proof.Machine.execLease f s
  | .leaseExpiry => Sys2Proof.Machine.execLeaseExpiry s
  | .migrationScan => Sys2Proof.Machine.execMigrationScan s
  | .frameCounterHalving => Sys2Proof.Machine.execFrameCounterHalving s
  | .migration => Sys2Proof.Machine.execMigration s
  | .migrateDone => Sys2Proof.Machine.execMigrateDone s
  | .hotCounterHalving die => Sys2Proof.Machine.execHotCounterHalving die s
  | .bankRoleChange die => Sys2Proof.Machine.execBankRoleChange die s
  | .bankSpare die bank => Sys2Proof.Machine.execBankSpare die bank s
  | .scoreHalving => Sys2Proof.Machine.execScoreHalving s
  | .remap c => Sys2Proof.Machine.execRemap c s
  | .testResult die verdict => Sys2Proof.Machine.execTestResult die verdict s
  | .timedRotation die => Sys2Proof.Machine.execTimedRotation die s
  | .suspicionSwap die => Sys2Proof.Machine.execSuspicionSwap die s
  | .swapEnd die => Sys2Proof.Machine.execSwapEnd die s
  | .eventSettle c => Sys2Proof.Machine.execEventSettle c s
  | .copy c ticket => Sys2Proof.Machine.execCopy c ticket s
  | .toslice c ticket => Sys2Proof.Machine.execToslice c ticket s
  | .fromslice c ticket => Sys2Proof.Machine.execFromslice c ticket s
  | .planes c ticket => Sys2Proof.Machine.execPlanes c ticket s
  | .unplanes c ticket => Sys2Proof.Machine.execUnplanes c ticket s
  | .mxsplit c ticket => Sys2Proof.Machine.execMxsplit c ticket s
  | .copyDone c ticket => Sys2Proof.Machine.execCopyDone c ticket s
  | .xcopyPut c ticket => Sys2Proof.Machine.execXcopyPut c ticket s
  | .xcopyGet c ticket => Sys2Proof.Machine.execXcopyGet c ticket s
  | .xcopyDataFlit f => Sys2Proof.Machine.execXcopyDataFlit f s
  | .xcopyDone c ticket status addr => Sys2Proof.Machine.execXcopyDone c ticket status addr s
  | .xcopyPathTimeout c ticket => Sys2Proof.Machine.execXcopyPathTimeout c ticket s
  | .tileReady die cluster slot => Sys2Proof.Machine.execTileReady die cluster slot s
  | .tilePlace die cluster slot => Sys2Proof.Machine.execTilePlace die cluster slot s
  | .kStep die cluster slot => Sys2Proof.Machine.execKStep die cluster slot s
  | .tileWindowCommit die cluster slot => Sys2Proof.Machine.execTileWindowCommit die cluster slot s
  | .tileFetchFailure die cluster slot => Sys2Proof.Machine.execTileFetchFailure die cluster slot s
  | .tilePark die cluster slot => Sys2Proof.Machine.execTilePark die cluster slot s
  | .spoolFetch c n cnt => Sys2Proof.Machine.execSpoolFetch c n cnt s
  | .postedReductionWalkEnd c w => Sys2Proof.Machine.execPostedReductionWalkEnd c w s
  | .floorApply region die => Sys2Proof.Machine.execFloorApply region die s
  | .syncBroadcast die => Sys2Proof.Machine.execSyncBroadcast die s
  | .nak port ack => Sys2Proof.Machine.execNak port ack s
  | .ackTimer port => Sys2Proof.Machine.execAckTimer port s
  | .replayTimeout port => Sys2Proof.Machine.execReplayTimeout port s
  | .laneFailure port lane => Sys2Proof.Machine.execLaneFailure port lane s
  | .retrain port => Sys2Proof.Machine.execRetrain port s
  | .bellwetherPost f => Sys2Proof.Machine.execBellwetherPost f s
  | .bellwetherResult f => Sys2Proof.Machine.execBellwetherResult f s
  | .bwredRepost group => Sys2Proof.Machine.execBwredRepost group s
  | .cxlHostAccess write pa n data => Sys2Proof.Machine.execCxlHostAccess write pa n data s
  | .ucieSegmentFailure segment => Sys2Proof.Machine.execUcieSegmentFailure segment s
  | .dsModeChange c => Sys2Proof.Machine.execDsModeChange c s
  | .ill w => Sys2Proof.Machine.execIll w s
  | .flitReceived port f => Sys2Proof.Machine.execFlitReceived port f s
  | .hostSnoop line invalidate => Sys2Proof.Machine.execHostSnoop line invalidate s
  | .contextRegistration desc => Sys2Proof.Machine.execContextRegistration desc s
  | .contextDestruction num => Sys2Proof.Machine.execContextDestruction num s
  | .managementConfiguration cfg => Sys2Proof.Machine.execManagementConfiguration cfg s
  | .ucieLaneRepair segment lane => Sys2Proof.Machine.execUcieLaneRepair segment lane s

end Sys2Proof.Machine
end

