-- ==== Sys2Proof/Machine/Input.lean ====
section
/-! DEFINITION. Sys2Proof/Machine/Input.lean: what the hardware around the machine and the host do to it besides the rows of the
opcode table: faults that checks find (R248-R256, R279, R349-R351), the host's accesses of its own memory (R320, R395) and its
reads of the register window (R8, R9, R356, R374, R385, R407), what the fabric and other modules do (R399). -/

namespace Sys2Proof.Machine

/-- A field of a register: its value in the bits from a position on. -/
def put (n lo : Nat) : Nat := n * 2 ^ lo

/-- What a read of a register of the register window returns: reserved fields and write-only ones read as 0 (R8, R9, R356, R374,
R385, R407). -/
def State.regValue (s : State) : RegName → Word
  | .qcfg q =>
    let x := s.queue q
    word (put x.en.toNat 63 + put x.err.toNat 62 + put x.prio.toNat 59 + put x.flt.toNat 58 + put x.quantum.toNat 40 +
      put x.lsize.toNat 32 + x.ctx.toNat)
  | .qbase q => (s.queue q).base.setWidth 64
  | .qtail q => (s.queue q).tail.setWidth 64
  | .qhead q => (s.queue q).head.setWidth 64
  | .hevcfg => word (put s.ring.en.toNat 63 + put s.ring.ovf.toNat 62 + put s.ring.lsize.toNat 32)
  | .hevbase => s.ring.base.setWidth 64
  | .hevtail => s.ring.tail.setWidth 64
  | .hevhead => s.ring.head.setWidth 64
  | .pwrctl => word (put s.power.lost.toNat 16 + put s.power.state.toNat 8 + put s.power.hold.toNat 2)
  | .leasecfg => word (put s.power.src.toNat 32 + s.power.failsafe.toNat)
  | .leasestat =>
    word (put s.power.leaseValid.toNat 63 + put s.power.leaseExp.toNat 62 + put (s.power.cap % 2 ^ 16) 32 + s.power.leaseSeq.toNat)

/-- The host reads bytes: what it got, nothing where a part is poisoned (R350). -/
def State.hostGets (s : State) (pa n : Nat) : State :=
  { s with hostRead := if poisoned s pa n then [] else memRead s.mem pa n }

/-- An access by a host thread to its own memory: lines that the device holds are given up before a store and
shared before a load (R395), and it waits behind a line
that an engine owns (R315). -/
def State.hostAccess (s : State) (write : Bool) (pa n : Nat) (act : State → State) : State :=
  if !isHost pa || !isHost (pa + n - 1) || (linesOf pa n).any (fun l => s.owned none (.phys (64 * l))) then s
  else
    act (if write then { s.recall none (linesOf pa n) with hostLines := s.hostLines.filter (fun l => !(linesOf pa n).contains l.1) }
      else (linesOf pa n).foldl (fun s l => (s.shareHost l).shareLine none l) s)

/-- A Bobbin command whose data fail their parity twice ends with status 5 (R245, R349); its record names no address, since none
has failed (DEDUCED, notes/assumptions/55.md). -/
def EngCmd.spoilt (k : EngCmd) : EngCmd :=
  { k with ended := true, status := 5, faddr := 0 }

/-- What an input does. -/
def State.input (s : State) : Input → State
  | .residue c lane n => s.setCore c { s.getCore c with laneErrs := (s.getCore c).laneErrs ++ [(lane, n)] }
  | .mismatch c lane n => s.setCore c { s.getCore c with stitchErrs := (s.getCore c).stitchErrs ++ [(lane, n)] }
  | .rowParity c row lane =>
    if bufferRow row then
      let k := s.getCore c
      s.setCore c { k with bufErrs := k.bufErrs ++ [(row, lane)] }
    else s.onHart c (fun h => { h with damaged := h.damaged ++ [(row, lane)] })
  | .copyParity c t =>
    match findCmd (s.getCore c).bobbin t (fun k => k.started && !k.ended) with
    | some k => s.setBobbin c k.spoilt
    | none => s
  | .corrected u => s.score u 1
  | .uncorrectable part u =>
    match u with
    | some u => (s.poisonPart part).score u 16
    | none => s.poisonPart part
  | .moveParity c part => s.setCore c { s.getCore c with moveErrs := (s.getCore c).moveErrs ++ [part] }
  | .tileError d c => s.score (.cluster d c) 16
  | .testFault c g row =>
    if (s.cluster c.die c.cluster).role == .paddock && !(s.die c.die).paddockReady then
      s.setDie c.die (fun d => { d with testFaults := d.testFaults ++ [(c, g, row)] })
    else s
  | .hostStore pa bs => s.hostAccess true pa bs.length (fun s => s.physStore pa bs)
  | .hostLoad pa n => s.hostAccess false pa n (fun s => s.hostGets pa n)
  | .regRead r => if s.mgmt.bootFailed then s else { s with hostRead := bytesOf 8 (s.regValue r).toNat }
  | .mailbox => { s with hostRead := s.mgmt.mailbox }
  | .configRead off n =>
    if s.mgmt.bootFailed then s
    else { s with free := s.free + 1, hostRead := (List.range n).map (fun i => Config.configByte s.free (off + i)) }
  | .fabric port node reach =>
    s.setLink port (fun l => { l with
      cut := if reach then l.cut.filter (fun x => x.1 != node)
        else if (assocFind l.cut node).isSome then l.cut else l.cut ++ [(node, s.gts)] })
  | .remoteGet n c t => s.remoteGet n c t
  | .remotePath n c t => s.remotePath n c t

end Sys2Proof.Machine
end

