-- ==== Sys2Proof/Machine/Sched.lean ====
section
/-! DEFINITION. Sys2Proof/Machine/Sched.lean: which agent moves when the agenda names none. The order is the model's
own (notes/assumptions/1.md): the spec leaves the times of all agents open, and the agenda can name any of them. -/

namespace Sys2Proof.Machine

/-- The thread can make progress: it may run and is not in the middle of a wait. -/
def Core.eager (k : Core) (w : Who) : Bool := k.canRun w && (k.hart.thr w).wait.isNone

/-- The turns of the engines of a core and of what its threads have left to perform; they do not end with the hart's stay (R105,
R244, R304). -/
noncomputable def Core.engineTurns (c : CoreId) (k : Core) : List Turn :=
  (allWho.filter (fun w => !(k.hart.thr w).posted.isEmpty)).map (fun w => .event (.postedReductionWalkEnd c w)) ++
    k.bobbin.flatMap (fun x =>
      let n := x.ticket.toNat
      if x.ended then [.event (.copyDone c n)]
      else [.event (.copy c n), .event (.toslice c n), .event (.fromslice c n), .event (.planes c n), .event (.unplanes c n),
        .event (.mxsplit c n)]) ++
    k.xcopy.flatMap (fun x =>
      let n := x.ticket.toNat
      if x.ended then [.event (.xcopyDone c n x.status x.faddr)]
      else [.event (.xcopyPut c n), .event (.xcopyGet c n), .event (.xcopyPathTimeout c n)])

/-- The turns that a hart's waiting threads, fills, spools, event queue, held tagged requests, forced parking and mode change may
take. -/
noncomputable def Core.turns (c : CoreId) (k : Core) : List Turn :=
  let h := k.hart
  if !k.resident then (if k.failedRows.isEmpty then [] else [.event (.remap c)])
  else
    (allWho.filter (fun w => k.canRun w)).flatMap (fun w =>
      if (h.thr w).wait.isNone then [.thread c w]
      else [.thread c w, .event (.waitTimeout c w), .event (.verTimeout c w), .event (.verFull c w)]) ++
    allWho.flatMap (fun w => (h.thr w).fills.map (fun f => .event (.fillComplete c w f.id))) ++
    (if h.evq.isEmpty then [] else [.event (.eventSettle c)]) ++
    h.spadWait.map (fun r => .event (.feTimeout r.core r.id)) ++
    (if h.park.isSome then allWho.map (fun w => .event (.predeadlineExpiry c w)) else []) ++
    (if h.dsPending.isSome then [.event (.dsModeChange c)] else []) ++
    (h.spools.toList.mapIdx (fun n p => (n, p))).filterMap (fun (x : Nat × Spool) =>
      let m := 2 * h.ex.vl - x.2.buf.length
      if x.2.bound && m != 0 then some (.event (.spoolFetch c x.1 m)) else none)

/-- The turns that the tile scheduler of a cluster may take. -/
noncomputable def State.tileTurns (s : State) (d k : Nat) : List Turn :=
  ((s.cluster d k).slots.toList.mapIdx (fun n t => (n, t))).flatMap (fun (x : Nat × TileSlot) =>
    if x.2.state = .free then []
    else [.event (.tileReady d k x.1), .event (.tilePlace d k x.1), .event (.tileFetchFailure d k x.1), .event (.kStep d k x.1),
      .event (.tileWindowCommit d k x.1), .event (.tilePark d k x.1)])

/-- The turns in which the Drover serves the enabled queues (R361, R362). -/
noncomputable def State.queueTurns (s : State) : List Turn :=
  ((List.range 64).filter (fun q => (s.queue q).en || (s.queue q).headerDue || s.cmds.any (fun c => decide (c.q = q)))).flatMap
    (fun q =>
    [.event (.launch q), .event (.droverCopy q), .event (.waitver q), .event (.makever q), .event (.droverFence q),
      .event (.cancel q), .event (.invalidRecord q)])

/-- The turns of brown-out's phases and of a swap, a bank change or a suspect cluster on a die (R280, R281, R288, R293, R386,
R388). -/
noncomputable def State.phaseTurns (s : State) : List Turn :=
  (if s.power.state == 0 then []
   else [.event .engineParkDeadline, .event .brownoutHeld, .event .brownoutExit, .event .brownoutResume]) ++
  (s.dies.toList.mapIdx (fun n d => (n, d))).flatMap (fun (x : Nat × Die) =>
    (if x.2.swap.isSome then [.event (.swapEnd x.1)]
     else if x.2.paddockReady then [.event (.suspicionSwap x.1), .event (.timedRotation x.1)] else []) ++
      (if x.2.bankBusy then [.event (.bankRoleChange x.1)] else []) ++
      (if 2 ^ 20 ≤ x.2.hotCount then [.event (.hotCounterHalving x.1)] else []))

/-- The turn of the layer above that takes an accepted flit (R399, R402, R404). -/
noncomputable def flitTurn (f : Flit) : Turn :=
  .event (if f.kind = 2 then .xcopyDataFlit f else if f.kind = 3 then .bellwetherPost f
    else if f.kind = 4 then .bellwetherResult f else .lease f)

/-- The turns of other modules' commands (R399). -/
noncomputable def State.remoteTurns (s : State) : List Turn :=
  s.remotes.flatMap (fun r =>
    [.input (.remoteGet r.node (numCore r.core) r.ticket.toNat),
      .input (.remotePath r.node (numCore r.core) r.ticket.toNat)])

/-- The periodic turns of the controllers and the turns of the links; each looks at its own time (R352, R373, R376, R382-R384,
R392, R393, R405), and of the layers that take flits. -/
noncomputable def State.timedTurns (s : State) : List Turn :=
  [.event .scoreHalving, .event .hotSpotCheck, .event .migrationScan, .event .frameCounterHalving, .event .powerLoop,
    .event .thermalAdjust, .event .leaseExpiry, .event .crookRelease, .event .crookRampStep] ++
  (s.links.toList.mapIdx (fun n l => (n, l))).flatMap (fun (x : Nat × Link) =>
    (if x.2.unacked = 0 then [] else [.event (.ackTimer x.1)]) ++
      (if x.2.replay.isEmpty then [] else [.event (.replayTimeout x.1)]) ++
      (if x.2.spare.isNone then [.event (.retrain x.1)] else []) ++ (x.2.rx.take 1).map flitTurn)

/-- The turns of the sync mirrors, the floors, the Drover's launches and teams, and the migration engine. -/
noncomputable def State.unitTurns (s : State) : List Turn :=
  ((List.range 8).filter (fun d => !(s.syncMsgs.toList.getD d []).isEmpty)).map (fun d => .event (.syncBroadcast d)) ++
  (List.range s.regions.length).flatMap (fun r => (List.range 8).map (fun d => .event (.floorApply r d))) ++
  s.launches.flatMap (fun l => [.event (.launchLive l.1), .event (.teamPlace l.1), .event (.victimSelection l.1),
    .event (.launchComplete l.1)]) ++
  s.teams.flatMap (fun t =>
    if t.2.state = .parking then [.event (.contextSave t.1)]
    else if t.2.state = .saved then ((s.resumeOn t.2).take 1).map (fun x => .event (.teamRestore t.1 x.1 x.2))
    else []) ++
  ((s.cores.flatMap (fun p => (p.2.hart.a.fills ++ p.2.hart.e.fills).filterMap (fun f =>
      match f.src with
      | .bell g _ _ _ _ _ => some g
      | _ => none))).eraseDups.map (fun g => .event (.bwredRepost g))) ++
  (if s.ring.buf.isEmpty then [] else [.event (.eventSettle s.loc)]) ++
  (if s.mig.reqs.isEmpty then [] else [.event .migration]) ++ (if s.mig.run.isNone then [] else [.event .migrateDone])

/-- The turns among which the rotation goes when no thread of the hart in focus is eager; time passes in every round. -/
noncomputable def State.rotation (s : State) : List Turn :=
  .tick 100 :: (s.cores.flatMap (fun p => Core.turns p.1 p.2 ++ Core.engineTurns p.1 p.2) ++
    ((s.cores.map (fun p => (p.1.die, p.1.cluster))).eraseDups.flatMap (fun x => s.tileTurns x.1 x.2)) ++ s.queueTurns ++
    s.unitTurns ++ s.remoteTurns ++ s.phaseTurns ++ s.timedTurns)

/-- The turn taken when the agenda is empty: an eager thread of the hart in focus, the one in focus first, else the
rotation. -/
noncomputable def State.autoTurn (s : State) : Turn :=
  if s.core.eager s.who then .thread s.loc s.who
  else
    match allWho.find? (fun w => s.core.eager w) with
    | some w => .thread s.loc w
    | none => s.rotation.getD (s.auto % s.rotation.length) (.tick 1)

end Sys2Proof.Machine
end

