-- ==== Sys2Proof/Machine/Step.lean ====
section
/-! DEFINITION. Sys2Proof/Machine/Step.lean: one step of the package. The agenda, plain data of the state, says which
agent moves (notes/assumptions/1.md); a thread's turn fetches, decodes and executes one instruction. -/

namespace Sys2Proof.Machine

/-- The instruction that a fetched word is; a word that is none reaches execution as ILL (R37). -/
noncomputable def instrOf (w : BitVec 32) : Instr :=
  match decode w with
  | .ok i => i
  | .error _ => .ill w

/-- A turn of the thread in focus: a deferred cause is delivered, else the instruction at PC is fetched, admitted to the lanes
and executed; a fetch that fails traps with TPC and TVAL the address (R72). A write of MODE.DS by A takes effect before E's
instruction (R30), and a thread that is forced inside its instruction parks after it (R103). -/
noncomputable def runThread (s : State) : Host.Outcome State Fault Refusal :=
  if !s.core.canRun s.who then .next s
  else if !s.thr.deferred.isEmpty then .next s.deliver
  else
    match fetch (if s.who = .a then s else s.applyDs s.loc) with
    | .fail c s1 => .next (s1.takeTrap c s1.thr.pc s1.thr.pc)
    | .stall s1 => .next s1
    | .ok w s' =>
      match exec (instrOf w) (s'.takenUp w) with
      | .next t => .next (t.endCut s)
      | o => o

/-- One step. -/
noncomputable def step (s : State) : Host.Outcome State Fault Refusal :=
  match s.agenda with
  | .thread c w :: rest => runThread ({ s with agenda := rest }.focus c w)
  | .event i :: rest => exec i { s with agenda := rest }
  | .input x :: rest => .next ({ s with agenda := rest }.input x)
  | .tick ns :: rest => .next ({ s with agenda := rest }.tick ns)
  | [] =>
    match s.autoTurn with
    | .thread c w => runThread ({ s with auto := s.auto + 1 }.focus c w)
    | .event i => exec i { s with auto := s.auto + 1 }
    | .input x => .next ({ s with auto := s.auto + 1 }.input x)
    | .tick ns => .next ({ s with auto := s.auto + 1 }.tick ns)

/-- The state with an instruction's word stored where the next step fetches: a hart is placed on the core in focus, its
sequencer (A for BOPUSH, else E) stands at address 0x1000 in user mode, a cached translation maps that page, and the
next turn is that thread's. -/
def State.withFetchWord (s : State) (nbits w : Nat) : State :=
  let x := BitVec.ofNat 32 (w % 2 ^ nbits)
  let who : Who := if onlyA x then .a else .e
  let t : Thread := { s.core.hart.thr who with pc := 0x1000, run := .running, wait := none, deferred := [], cut := none }
  let e : TlbEntry :=
    { ctx := s.core.hart.ctx, base := 0, size := 0x10000, pa := 0, leaf := 0, glob := false, user := true,
      x := true, w := true, r := true, d := true }
  let h := { s.core.hart with split := 0, dsPending := none }.setThr t who
  { s with
    who := who
    core := { s.core with resident := true, hart := h, icache := [], tlb := [e] }
    mem := memWrite s.mem 0x1000 (bytesOf 4 x.toNat)
    agenda := .thread s.loc who :: s.agenda }

end Sys2Proof.Machine
end

