-- ==== Sys2Proof/Safety.lean ====
section
/-! DEFINITION. Sys2Proof/Safety.lean: the terms claims use: a safe run, and the invariants of a package state. -/

namespace Sys2Proof

open Sys2Proof.Machine

/-- A run of `k` steps stops at no fault and no refusal. -/
def SafeRun (s : State) (k : Nat) : Prop := ∃ t, Host.Core.run core k s = .next t

end Sys2Proof
end

