-- ==== Sys2Proof/Certificates/Slice0/Obligations.lean ====
section
/-! DEFINITION. Sys2Proof/Certificates/Slice0/Obligations.lean: the statements for the provers, and the terms that
they share. -/

namespace Sys2Proof.Claims

open Sys2Proof.Machine

/-! ## Terms that several statements share -/

/-- The checks of R38 that come before an instruction's operands pass: its hart is placed, none of them names a cause, and
its scalar sources are full (R13, R17, R42, R45, R48, R75). -/
def Ready (i : Instr) (srcs : List (BitVec 5)) (s : State) : Prop :=
  s.core.resident = true ∧ gate (encode i) s = none ∧ ∀ r ∈ srcs, s.thr.isFull r = true

/-- No fill of these registers is outstanding (R18). -/
def Free (ds : List (BitVec 5)) (s : State) : Prop := s.thr.pendingReg ds = false

/-- No earlier access of the thread holds later ones back, and a fill of these registers may start (R18, R222, R310,
R345). -/
def Idle (ds : List (BitVec 5)) (s : State) : Prop :=
  s.held false = false ∧ Free ds s ∧ s.thr.fillRoom = true

/-- The state once the instruction of the thread in focus has completed: PC and the loop stack under R74. -/
def done (s : State) : State := s.setThr (s.thr.advance s.hart.park.isSome)

/-- The state in which an instruction that is not bounded waits: nothing but the thread's wait has changed. -/
def stalled (s : State) : State :=
  if s.thr.wait.isNone then
    s.setThr { s.thr with
      wait := some { kind := .other, num := 0, since := s.gts, bound := 0, vtimeout := s.hart.vtimeout.toNat } }
  else s

/-- Of the accesses listed, or of those that an SBAR or IFENCE which waits already has listed, the ones still not performed (R90,
R91). -/
def orderLeft (s : State) (listed : List (Who × Owed)) : List (Who × Owed) :=
  ((s.thr.wait.bind (fun w => if w.kind = .order then some w.owed else none)).getD listed).filter s.core.stillOwes

/-- An SBAR or IFENCE waits for the accesses that are left (R90, R91). -/
def orderHeld (s : State) (listed : List (Who × Owed)) : State :=
  s.setThr { s.thr with wait := some { kind := .order, num := 0, since := s.gts, bound := 0, owed := orderLeft s listed } }

/-- An access of the thread that a FENCE with these order bits orders first, or a posted reduction, is not performed: bits
0 and 1 name loads, bits 2 and 3 stores, and an engine command that has not started counts as a store (R89, R310). -/
def FenceWaits (s : State) (o : BitVec 4) : Prop :=
  s.thr.posted ≠ [] ∨
  ((o.getLsbD 0 = true ∨ o.getLsbD 1 = true) ∧ ∃ f ∈ s.thr.fills, f.unperformed false = true) ∨
  ((o.getLsbD 2 = true ∨ o.getLsbD 3 = true) ∧
    ((∃ f ∈ s.thr.fills, f.unperformed true = true) ∨ s.core.unstarted s.who = true))

/-- A TLBINV completes, and of the cached translations of the core, and with reach 1 of every core and every cluster's tile
fetch unit, exactly those stay that `kept` names; nothing else changes (R92). -/
def Invalidates (i : Instr) (r : BitVec 1) (kept : TlbEntry → Prop) (s : State) : Prop :=
  ∃ t : State, exec i s = .next (done t) ∧
    (∀ e, e ∈ t.core.tlb ↔ e ∈ s.core.tlb ∧ kept e) ∧
    (r = 0 → t.others = s.others ∧ t.dies = s.dies) ∧
    (r = 1 → (∀ c e, e ∈ (t.getCore c).tlb ↔ e ∈ (s.getCore c).tlb ∧ kept e) ∧
      ∀ d n e, e ∈ (t.cluster d n).tlb ↔ e ∈ (s.cluster d n).tlb ∧ kept e) ∧
    t.mem = s.mem ∧ t.hart = s.hart ∧ t.ctxs = s.ctxs ∧ t.core.icache = s.core.icache ∧ t.core.l1 = s.core.l1

/-- The state once an instruction has written a register and completed. -/
def wrote (s : State) (d : BitVec 5) (v : Word) : State := done (s.setThr (s.thr.setReg d v))

/-- The state once words have gone to registers: at once when their source is near, else by a fill (R17). -/
def loaded (s : State) (near : Bool) (ds : List (BitVec 5)) (ws : List Word) : State :=
  done (if near then s.setThr (s.thr.writeAll ds ws) else s.startFill ds (.value ws))

/-- A word's `n` low bits, sign-extended. -/
def signed (n : Nat) (w : Nat) : Word := (BitVec.ofNat n w).signExtend 64

/-- An instruction with two scalar sources, and what it writes. -/
abbrev Op2 := (BitVec 5 → BitVec 5 → BitVec 5 → BitVec 1 → BitVec 1 → Instr) × (Word → Word → Word)

/-- The two-source integer instructions that R60 defines by a result. -/
def int2Table : List Op2 :=
  [(.add, fun x y => x + y), (.sub, fun x y => x - y), (.mul, fun x y => x * y),
   (.mulh, fun x y => BitVec.ofInt 64 (x.toInt * y.toInt / 2 ^ 64)),
   (.mulhn, fun x y => BitVec.ofNat 64 (x.toNat * y.toNat / 2 ^ 64)),
   (.and, fun x y => x &&& y), (.or, fun x y => x ||| y), (.xor, fun x y => x ^^^ y), (.andn, fun x y => x &&& ~~~y),
   (.shl, fun x y => x <<< (y.toNat % 64)), (.shr, fun x y => x >>> (y.toNat % 64)),
   (.sar, fun x y => x.sshiftRight (y.toNat % 64)),
   (.min, fun x y => if x.toInt ≤ y.toInt then x else y), (.max, fun x y => if x.toInt ≤ y.toInt then y else x),
   (.minn, fun x y => if x.toNat ≤ y.toNat then x else y), (.maxn, fun x y => if x.toNat ≤ y.toNat then y else x),
   (.slt, fun x y => if x.toInt < y.toInt then 1 else 0), (.sltn, fun x y => if x.toNat < y.toNat then 1 else 0)]

/-- The bits of a word from the top down to the first one (`top`) or from bit 0 up to it, all 64 for 0. -/
def ZeroRun (top : Bool) (x : Word) (n : Nat) : Prop :=
  n ≤ 64 ∧ (∀ i, i < n → x.getLsbD (if top then 63 - i else i) = false) ∧
    (n < 64 → x.getLsbD (if top then 63 - n else n) = true)

/-- An immediate form, and what it writes. -/
abbrev OpI := (BitVec 5 → BitVec 5 → BitVec 1 → BitVec 15 → Instr) × (Word → BitVec 15 → Word)

/-- The immediate forms with imm15 (R63). -/
def immTable : List OpI :=
  [(.addi, fun x i => x + i.signExtend 64), (.andi, fun x i => x &&& i.signExtend 64),
   (.ori, fun x i => x ||| i.signExtend 64), (.xori, fun x i => x ^^^ i.signExtend 64),
   (.slti, fun x i => if x.toInt < i.toInt then 1 else 0)]

/-- A scalar load: the instruction, the bytes it reads, the word it makes of them. -/
structure LoadRow where
  op : BitVec 5 → BitVec 5 → BitVec 1 → BitVec 12 → Instr
  size : Nat
  conv : List Byte → Word

/-- The loads of one register (R66). -/
def loadTable : List LoadRow :=
  [⟨.ldb, 1, fun b => signed 8 (ofBytes b)⟩, ⟨.ldbz, 1, fun b => word (ofBytes b)⟩,
   ⟨.ldh, 2, fun b => signed 16 (ofBytes b)⟩, ⟨.ldhz, 2, fun b => word (ofBytes b)⟩,
   ⟨.ldw, 4, fun b => signed 32 (ofBytes b)⟩, ⟨.ldwz, 4, fun b => word (ofBytes b)⟩,
   ⟨.ldd, 8, fun b => word (ofBytes b)⟩]

/-- A store of one register: the instruction and the bytes it stores. -/
abbrev StoreRow := (BitVec 5 → BitVec 5 → BitVec 1 → BitVec 12 → Instr) × Nat

/-- The stores of one register (R67). -/
def storeTable : List StoreRow := [(.stb, 1), (.sth, 2), (.stw, 4), (.std, 8)]

/-- A compare branch, and when it is taken (R69). -/
abbrev BranchRow := (BitVec 5 → BitVec 5 → BitVec 1 → BitVec 1 → BitVec 11 → Instr) × (Word → Word → Prop)

/-- The compare branches (R69). -/
def branchTable : List BranchRow :=
  [(.beq, fun x y => x = y), (.bne, fun x y => x ≠ y), (.blt, fun x y => x.toInt < y.toInt),
   (.bge, fun x y => y.toInt ≤ x.toInt), (.bltn, fun x y => x.toNat < y.toNat), (.bgen, fun x y => y.toNat ≤ x.toNat)]

/-- The address that a branch of `n` offset bits names from an instruction's address (R40). -/
def target (pc : Word) (n : Nat) (off : BitVec n) : Word := pc + 4 + 4 * off.signExtend 64

/-- The state once control has gone to an address: loops that it leaves are popped (R76). -/
def jumped (s : State) (dest : Word) : State :=
  s.setThr { s.thr with pc := dest, loops := popLoops s.thr.clvl dest s.thr.loops, wait := none }

/-- The address of a base register and a signed 12-bit offset (R65). -/
def addr (s : State) (a : BitVec 5) (o : BitVec 12) : Word := s.thr.reg a + o.signExtend 64

end Sys2Proof.Claims

namespace Sys2Proof.Claims

open Sys2Proof.Machine

/-- An atomic that returns the old value, and the value it writes from the old one and gb (R302). -/
abbrev AtomRow := (BitVec 5 → BitVec 5 → BitVec 5 → BitVec 1 → BitVec 1 → BitVec 2 → BitVec 3 → Instr) × (Word → Word → Word)

/-- The unconditional atomics (R302). -/
def atomTable : List AtomRow :=
  [(.atadd, fun x y => x + y), (.atswp, fun _ y => y),
   (.atmin, fun x y => if x.toInt ≤ y.toInt then x else y), (.atmax, fun x y => if x.toInt ≤ y.toInt then y else x),
   (.atminn, fun x y => if x.toNat ≤ y.toNat then x else y), (.atmaxn, fun x y => if x.toNat ≤ y.toNat then y else x),
   (.atand, fun x y => x &&& y), (.ator, fun x y => x ||| y), (.atxor, fun x y => x ^^^ y)]

/-- A reduction without a result: the instruction, its code in R44's table, and the value it writes (R304). -/
structure RedRow where
  op : BitVec 5 → BitVec 5 → BitVec 1 → BitVec 1 → BitVec 1 → BitVec 3 → Instr
  code : BitVec 4
  new : Word → Word → Word

/-- The reductions without a result (R304). -/
def redTable : List RedRow :=
  [⟨.redadd, 10, fun x y => x + y⟩, ⟨.redmin, 11, fun x y => if x.toInt ≤ y.toInt then x else y⟩,
   ⟨.redmax, 12, fun x y => if x.toInt ≤ y.toInt then y else x⟩]

/-- The 8-byte word at a place. -/
def wordAt (s : State) (p : Place) : Word := word (ofBytes (s.loadAt p 8))

/-- The state with a word stored at a place by the core in focus. -/
def putWord (s : State) (p : Place) (v : Word) : State := s.storeAt (some s.loc) p (bytesOf 8 v.toNat)

/-- The address names a word of the scratchpad of core `o`, its hart's own or one of its team's, in a line that no engine
owns (R215, R219, R315). -/
def TagWord (s : State) (ea : Word) (o : CoreId) (n : Nat) : Prop :=
  canonical ea = true ∧ ea.toNat % 8 = 0 ∧ windowBase ≤ ea.toNat ∧
    ∃ off, windowPlace s s.loc s.hart ea.toNat = some (.spad o off) ∧ s.owned none (.spad o off) = false ∧ n = off / 8

/-- A fill of words has been started and the instruction is complete (R17). -/
def filled (s : State) (ds : List (BitVec 5)) (ws : List Word) : State := done (s.startFill ds (.value ws))

/-- The physical sync register of the logical number in a register is granted to the hart's context (R343). -/
def SyncReg (s : State) (a : BitVec 5) (p : Nat) : Prop :=
  (s.thr.reg a).toNat < s.syncGrant.2 ∧ p = s.syncGrant.1 + (s.thr.reg a).toNat ∧ p < 4096

/-- The address is that of a versioned word of the hart's context, in region `r` (R329). -/
def VersionedAt (s : State) (a : Word) (r : Region) : Prop :=
  canonical a = true ∧ a.toNat % 8 = 0 ∧ s.regionOf s.hart.ctx a = some r

/-- The descriptor at an address has been read: its words, and the state after the read (R65, R350). -/
def DescAt (s : State) (ea : Word) (size : Nat) (d : List Word) (s' : State) : Prop :=
  s.held false = false ∧ ∃ p, resolveThr s .read ea size = .ok p s' ∧ s'.poisonedAt p size = false ∧
    d = (List.range (size / 8)).map (fun i => word (ofBytes (((s'.loadAt p size).drop (8 * i)).take 8)))

end Sys2Proof.Claims

namespace Sys2Proof.Claims

open Sys2Proof.Machine

/-- The vector operands pass their checks and are read, whatever the class of the instruction and the rows of its mask: what a
vector instruction that computes its active elements goes on with (R111, R237, R238, R249-R253). -/
def Reads (s : State) (va vb vd : Option (BitVec 5)) (acc : Bool) (act : List Nat) (s' : State) (i : VIn) : Prop :=
  ∀ kind k, (kind.out = none ∨ i.dst = none) → vreadAll s kind va vb vd acc act k = k s' i

/-- As `Reads`, for an instruction that computes the elements `out` whatever its mask (R190). -/
def ReadsOut (s : State) (va vb vd : Option (BitVec 5)) (act out : List Nat) (s' : State) (i : VIn) : Prop :=
  ∀ kind k, kind.out = some out → vreadAll s kind va vb vd false act k = k s' i

/-- Elements written to a register destination, and what ends a vector instruction; the fresh rows are taken before those of the
sources are free (R49, R113, R119, R133, R237, R249). -/
def putVec (s : State) (i : VIn) (va vb : Option (BitVec 5)) (vd : BitVec 5) (wd : Nat) (res : List (Nat × Nat))
    (flags : BitVec 4) : State :=
  let rows := s.est.freshRows (2 * wd)
  let s1 := s.setEst (freeLast s.est va vb)
  let ps := writeElems s.hart i.base (keptPlanes (s1.est.vreg vd) wd s.est.sd) res
  vdone (copyDst (s1.commitReg vd ps s.est.sd (rows.take wd)) i vd ps wd s.est.sd (rows.drop wd)) i flags

/-- Elements appended to a write spool whose positions have been translated, and what ends the instruction (R237, R238). -/
def putSpool (s : State) (i : VIn) (n : Nat) (va vb : Option (BitVec 5)) (vd : BitVec 5) (wd : Nat) (sd : Bool)
    (res : List (Nat × Nat)) (flags : BitVec 4) : State :=
  let rows := s.est.freshRows (2 * wd)
  let s1 := s.setEst (freeLast s.est va vb)
  let s2 := appendWrites s1 s1.loc n 0 (res.map (fun e => (e.1, truncTo (s1.hart.spool n).width (intVal wd sd e.2))))
  let s3 := copyDst s2 i vd (writeElems s.hart i.base (List.replicate wd 0) res) wd sd (rows.take wd)
  vdone (s3.consume [n] s3.est.vl) i flags

/-- The state in which the listed elements have been written to a vector destination, register or write spool. -/
def Put (s : State) (i : VIn) (va vb : Option (BitVec 5)) (vd : BitVec 5) (wd : Nat) (res : List (Nat × Nat))
    (flags : BitVec 4) (t : State) : Prop :=
  match i.dst with
  | none => t = putVec s i va vb vd wd res flags
  | some n => t = putSpool s i n va vb vd wd s.est.sd res flags

/-- Flags of several elements together (R133). -/
def orAll (fs : List (BitVec 4)) : BitVec 4 := fs.foldl (fun acc f => acc ||| f) 0

/-- The instruction completes with these bits and flags at each of its active elements: what it does whenever its checks
pass, its operands are read and its destination takes the elements. -/
def Computes (ins : Instr) (srcs : List (BitVec 5)) (va vb : Option (BitVec 5)) (vd : BitVec 5) (acc : Bool)
    (act : State → List Nat) (wd : EState → Nat) (res : State → VIn → Nat → Nat × BitVec 4) (s : State) : Prop :=
  Ready ins srcs s → ∀ s' i t, Reads s va vb (some vd) acc (act s) s' i →
    Put s' i va vb vd (wd s'.est) (i.act.map (fun j => (j, (res s' i j).1))) (orAll (i.act.map (fun j => (res s' i j).2))) t →
      exec ins s = .next (done t)

/-- An integer's low bits at the destination width, with no flag (R146). -/
def low (x : EState) (v : Int) : Nat × BitVec 4 := ((BitVec.ofInt x.wd v).toNat, 0)

/-- A bitwise operation on two's complement integers, of which 64 bits hold every operand (R147). -/
def both (f : Word → Word → Word) (x y : Int) : Int := (f (BitVec.ofInt 64 x) (BitVec.ofInt 64 y)).toInt

/-- A vector integer instruction: whether it reads vd as D, and its result on D, A and B at widths (R147, R151). -/
structure VecRow where
  op : BitVec 5 → BitVec 5 → BitVec 5 → BitVec 6 → Instr
  acc : Bool
  val : EState → Int → Int → Int → Int

/-- The instructions with two vector sources that work on integer values (R147). -/
def vintTable : List VecRow :=
  [⟨.vadd, false, fun _ _ a b => a + b⟩, ⟨.vsub, false, fun _ _ a b => a - b⟩, ⟨.vmul, false, fun _ _ a b => a * b⟩,
   ⟨.vmac, true, fun _ d a b => d + a * b⟩, ⟨.vmsb, true, fun _ d a b => d - a * b⟩,
   ⟨.vmin, false, fun _ _ a b => if a ≤ b then a else b⟩, ⟨.vmax, false, fun _ _ a b => if a ≤ b then b else a⟩,
   ⟨.vand, false, fun _ _ => both (· &&& ·)⟩, ⟨.vor, false, fun _ _ => both (· ||| ·)⟩,
   ⟨.vxor, false, fun _ _ => both (· ^^^ ·)⟩, ⟨.vandn, false, fun _ _ => both (fun a b => a &&& ~~~b)⟩,
   ⟨.vmulh, false, fun x _ a b => a * b / 2 ^ x.wd⟩]

/-- The instructions with a vector source and a scalar (R151). -/
def vintsTable : List VecRow :=
  [⟨.vadds, false, fun _ _ a b => a + b⟩, ⟨.vsubs, false, fun _ _ a b => a - b⟩, ⟨.vrsubs, false, fun _ _ a b => b - a⟩,
   ⟨.vmuls, false, fun _ _ a b => a * b⟩, ⟨.vmacs, true, fun _ d a b => d + a * b⟩,
   ⟨.vmins, false, fun _ _ a b => if a ≤ b then a else b⟩, ⟨.vmaxs, false, fun _ _ a b => if a ≤ b then b else a⟩,
   ⟨.vands, false, fun _ _ => both (· &&& ·)⟩, ⟨.vors, false, fun _ _ => both (· ||| ·)⟩,
   ⟨.vxors, false, fun _ _ => both (· ^^^ ·)⟩]

/-- The two low bits of vb that VSSA takes as its weight, without sign extension (R148). -/
def ternBits (i : VIn) (j : Nat) : Nat := rawAt (i.base + j) (planesAt i.b.planes 2 false)

/-- An arithmetic shift right that leaves the sign alone at the destination width or beyond (R149). -/
def shiftDown (x : EState) (n : Nat) (a : Int) : Int := if x.wd ≤ n then (if a < 0 then -1 else 0) else a / 2 ^ n

/-- A float result: a value converted to format D, with the flags of the operation (R178). -/
def asD (x : EState) (v : Machine.Num × BitVec 4) : Nat × BitVec 4 := ((x.toD v.1).1, (x.toD v.1).2 ||| v.2)

/-- The compares of a vector with a vector (R156). -/
def cmpTable : List ((BitVec 6 → BitVec 5 → BitVec 5 → BitVec 6 → Instr) × (Int → Int → Prop)) :=
  [(.vceq, fun a b => a = b), (.vcne, fun a b => a ≠ b), (.vclt, fun a b => a < b), (.vcle, fun a b => a ≤ b),
   (.vtst, fun a b => both (· &&& ·) a b ≠ 0)]

/-- The compares of a vector with a scalar (R156). -/
def cmpsTable : List ((BitVec 6 → BitVec 5 → BitVec 5 → BitVec 6 → Instr) × (Int → Int → Prop)) :=
  [(.vceqs, fun a b => a = b), (.vcnes, fun a b => a ≠ b), (.vclts, fun a b => a < b), (.vcles, fun a b => a ≤ b),
   (.vcgts, fun a b => b < a), (.vcges, fun a b => b ≤ a)]

/-- The float compares (R183). -/
def fcmpTable : List ((BitVec 6 → BitVec 5 → BitVec 5 → BitVec 6 → Instr) × (Machine.Num → Machine.Num → Prop)) :=
  [(.fceq, fun a b => numEq a b = true), (.fclt, fun a b => numLt a b = true),
   (.fcle, fun a b => numLt a b = true ∨ numEq a b = true), (.fcun, fun a b => a = .nan ∨ b = .nan)]

/-- The predicate that a compare writes: its listed elements take a bit each, the other elements keep theirs (R116, R125). -/
def putPred (s : State) (i : VIn) (va vb : Option (BitVec 5)) (pd : BitVec 6) (ones : List Nat) : State :=
  let s1 := s.setEst (freeLast s.est va vb)
  vdone (s1.setHart (s1.hart.setPred i.base pd i.act ones)) i 0

/-- The elements below VL at which the top of the mask stack is true (R157). -/
def topList (s : State) : List Nat :=
  (List.range s.est.vl).filter (fun j => topAt s.hart s.est (laneBase s.hart s.who) j)

/-- A predicate at an element of the thread in focus (R116). -/
def pred (s : State) (p : BitVec 6) (j : Nat) : Bool := predAt s.hart s.est (laneBase s.hart s.who) p j

/-- The state with a predicate written at the elements under the top (R157). -/
def setTop (s : State) (d : BitVec 6) (f : Nat → Bool) : State :=
  s.setHart (s.hart.setPred (laneBase s.hart s.who) d (topList s) ((topList s).filter f))

end Sys2Proof.Claims

namespace Sys2Proof.Claims

/-- The value (-1)^neg times mag times 2^exp in units of 2^b, for a b not above exp. -/
def units (b : Int) (neg : Bool) (mag : Nat) (exp : Int) : Int := (if neg then -1 else 1) * (mag * 2 ^ (exp - b).toNat : Nat)

/-- mag times 2^exp is at most mag' times 2^exp'. -/
abbrev magLe (m : Nat) (e : Int) (m' : Nat) (e' : Int) : Prop :=
  m * 2 ^ (e - min e e').toNat ≤ m' * 2 ^ (e' - min e e').toNat

open Sys2Proof.Machine

/-- A value of sign `n` and an exact magnitude, truncated to a float format, with its flags: `le k g` says that k times 2^g is at most the
magnitude, `is k g` that it is the magnitude. A magnitude above the largest finite value gives that value, OF and NX; one below the
smallest normal value of a format that flushes gives a zero, UF and NX; every other gives the greatest value of the format not above
it, and NX if that is another value (R128, R131, R132). -/
def TruncatedTo (f : FFmt) (n : Bool) (le is : Nat → Int → Prop) (r : Nat × BitVec 4) : Prop :=
  let top := 2 ^ f.mb + f.largest.2
  let exp : Int := f.largest.1 - f.bias - f.mb
  (le top exp → ¬is top exp → r = (f.pack n f.largest.1 f.largest.2, flagOF ||| flagNX)) ∧
  ((le top exp → is top exp) →
    (f.flush = true → ¬le 1 (1 - f.bias) → r = (f.pack n 0 0, flagUF ||| flagNX)) ∧
    ((f.flush = true → le 1 (1 - f.bias)) → ∃ m' e', f.value r.1 = .fin n m' e' ∧ le m' e' ∧
      (is m' e' → r.2 = 0) ∧ (¬is m' e' → r.2 = flagNX) ∧
      ∀ b k g, b < 2 ^ (f.eb + f.mb + 1) → f.value b = .fin n k g → le k g → magLe k g m' e'))

/-- k times 2^g is m times 2^e. -/
abbrev magEq (k : Nat) (g : Int) (m : Nat) (e : Int) : Prop := magLe k g m e ∧ magLe m e k g

/-- k times 2^g is at most 2^(a/K), by the K-th powers of both. -/
abbrev rootLe (K : Nat) (a : Int) (k : Nat) (g : Int) : Prop := magLe (k ^ K) (g * K) 1 a

/-- The integer destinations: the code, the width, the exponent of one unit, and the range (R126, R127, R189). -/
def IntDest (code wd : Nat) (sd : Bool) (w : Nat) (unit lo hi : Int) : Prop :=
  (code = 9 ∧ w = 2 ∧ unit = 0 ∧ lo = -1 ∧ hi = 1) ∨ (code = 10 ∧ w = 8 ∧ unit = -6 ∧ lo = -128 ∧ hi = 127) ∨
  (code = 0 ∧ w = wd ∧ 0 < wd ∧ wd ≤ 32 ∧ unit = 0 ∧
    ((sd = true ∧ lo = -2 ^ (wd - 1) ∧ hi = 2 ^ (wd - 1) - 1) ∨ (sd = false ∧ lo = 0 ∧ hi = 2 ^ wd - 1)))

/-- A value of sign `n` truncated to an integer `t` of units; `exact` says that nothing was lost. Outside the range it is taken modulo
2^w with NV, or saturates with OF and NX (R132, R189). -/
def TruncatedToInt (n sat : Bool) (le is : Nat → Prop) (w : Nat) (lo hi : Int) (r : Nat × BitVec 4) : Prop :=
  ∃ q : Nat, le q ∧ ¬le (q + 1) ∧ ∀ t : Int, t = (if n then -(q : Int) else q) →
    (lo ≤ t → t ≤ hi → r.1 = (t % 2 ^ w).toNat ∧ (is q → r.2 = 0) ∧ (¬is q → r.2 = flagNX)) ∧
    (t < lo → r = if sat then ((lo % 2 ^ w).toNat, flagOF ||| flagNX) else ((t % 2 ^ w).toNat, flagNV)) ∧
    (hi < t → r = if sat then ((hi % 2 ^ w).toNat, flagOF ||| flagNX) else ((t % 2 ^ w).toNat, flagNV))

/-- FEXP2 of a value (R182): of an integer the power itself, converted; of a value with one to three bits after the point, into a float
format, the truncated power; of one below 32 with one bit there, into an integer, the truncated power too. -/
def Exp2Says (code wd : Nat) (sd : Bool) : Prop :=
  (fexp2 code wd sd .nan = toD code wd sd .nan) ∧ (fexp2 code wd sd (.inf false) = toD code wd sd (.inf false)) ∧
  (fexp2 code wd sd (.inf true) = toD code wd sd (.fin false 0 0)) ∧
  (∀ (n : Bool) (m : Nat) (e : Int),
    let a := if n then -(m : Int) else m
    (0 ≤ e → fexp2 code wd sd (.fin n m e) = toD code wd sd (.fin false 1 (a * 2 ^ e.toNat))) ∧
    (e < 0 → a % 2 ^ (-e).toNat = 0 → fexp2 code wd sd (.fin n m e) = toD code wd sd (.fin false 1 (a / 2 ^ (-e).toNat))) ∧
    (∀ k : Nat, 1 ≤ k → k ≤ 3 → e = -(k : Int) → a % 2 ^ k ≠ 0 → ∀ f, ffmt code = some f →
      TruncatedTo f false (rootLe (2 ^ k) a) (fun _ _ => False) (fexp2 code wd sd (.fin n m e))) ∧
    (e = -1 → a % 2 = 1 → a < 64 → ∀ w unit lo hi, IntDest code wd sd w unit lo hi → ∃ q : Nat,
      rootLe 2 a q unit ∧ ¬rootLe 2 a (q + 1) unit ∧
        fexp2 code wd sd (.fin n m e) = (q % 2 ^ w, if (q : Int) ≤ hi then flagNX else flagNV ||| flagNX)))

/-- FRCP of a value (R182): the reciprocal, truncated to the destination. -/
def RcpSays (code wd : Nat) (sd : Bool) : Prop :=
  (frcp code wd sd .nan = toD code wd sd .nan) ∧ (∀ n, frcp code wd sd (.inf n) = toD code wd sd (.fin n 0 0)) ∧
  (∀ (n : Bool) (e : Int),
    (∀ f, ffmt code = some f → frcp code wd sd (.fin n 0 e) = (f.pack n f.largest.1 f.largest.2, flagOF ||| flagNX)) ∧
    (ffmt code = none → frcp code wd sd (.fin n 0 e) = (0, flagNV)) ∧
    ∀ m, m ≠ 0 →
      (∀ f, ffmt code = some f → TruncatedTo f n (fun k g => magLe (k * m) (g + e) 1 0) (fun k g => magEq (k * m) (g + e) 1 0)
        (frcp code wd sd (.fin n m e))) ∧
      ∀ w unit lo hi, IntDest code wd sd w unit lo hi →
        TruncatedToInt n false (fun q => magLe (q * m) (unit + e) 1 0) (fun q => magEq (q * m) (unit + e) 1 0) w lo hi
          (frcp code wd sd (.fin n m e)))

/-- VQNT of a value (R189): truncated to the destination and saturated at its range. -/
def QuantizeSays (code wd : Nat) (sd : Bool) : Prop :=
  (∀ f, ffmt code = some f →
    quantize code wd sd .nan = (if f.hasNan then f.nan else 0, flagNV) ∧
    (∀ n, quantize code wd sd (.inf n) = (f.pack n f.largest.1 f.largest.2, flagNV)) ∧
    (∀ n e, quantize code wd sd (.fin n 0 e) = (f.pack n 0 0, 0)) ∧
    ∀ n m e, m ≠ 0 → TruncatedTo f n (fun k g => magLe k g m e) (fun k g => magEq k g m e) (quantize code wd sd (.fin n m e))) ∧
  (∀ w unit lo hi, IntDest code wd sd w unit lo hi →
    quantize code wd sd .nan = (0, flagNV) ∧
    (∀ n, quantize code wd sd (.inf n) = (((if n then lo else hi) % 2 ^ w).toNat, flagNV)) ∧
    ∀ n m e, TruncatedToInt n true (fun q => magLe q unit m e) (fun q => magEq q unit m e) w lo hi
      (quantize code wd sd (.fin n m e)))

/-- A value written in a format (R131, R132). -/
def ConversionSays (code wd : Nat) (sd : Bool) : Prop :=
  (∀ f, ffmt code = some f →
    toD code wd sd .nan = (if f.hasNan then (f.nan, 0) else (0, flagNV)) ∧
    (∀ n, toD code wd sd (.inf n) =
      if f.hasInf then (f.pack n (2 ^ f.eb - 1) 0, 0) else (f.pack n f.largest.1 f.largest.2, flagNV)) ∧
    (∀ n e, toD code wd sd (.fin n 0 e) = (f.pack n 0 0, 0)) ∧
    ∀ n m e, m ≠ 0 → TruncatedTo f n (fun k g => magLe k g m e) (fun k g => magEq k g m e) (toD code wd sd (.fin n m e))) ∧
  (∀ w unit lo hi, IntDest code wd sd w unit lo hi →
    toD code wd sd .nan = (0, flagNV) ∧ (∀ n, toD code wd sd (.inf n) = (0, flagNV)) ∧
    ∀ n m e, TruncatedToInt n false (fun q => magLe q unit m e) (fun q => magEq q unit m e) w lo hi (toD code wd sd (.fin n m e)))

/-! ## MX blocks (R130, R188, R190) -/

/-- MXQNT's formats, each with the exponent of its largest power of two (R188). -/
def mxKinds : List (Nat × Int) := [(4, 8), (5, 15), (6, 4), (7, 2), (8, 2), (10, 0)]

/-- MXQNT's conversion of a value that its block's scale has divided (R188). -/
def SatSays (code : Nat) : Prop :=
  (∀ f, ffmt code = some f →
    (∀ n, satZ code (.inf n) = if code = 5 then (f.pack n 31 0, 0) else (f.pack n f.largest.1 f.largest.2, flagNV)) ∧
    (∀ n e, satZ code (.fin n 0 e) = (f.pack n 0 0, 0)) ∧
    ∀ n m e, m ≠ 0 → TruncatedTo f n (fun k g => magLe k g m e) (fun k g => magEq k g m e) (satZ code (.fin n m e))) ∧
  (code = 10 → ∀ n, satZ code (.inf n) = (((if n then -127 else 127 : Int) % 256).toNat, flagNV) ∧ ∀ m e,
    (magLe m e 127 (-6) → TruncatedToInt n false (fun q => magLe q (-6) m e) (fun q => magEq q (-6) m e) 8 (-127) 127
      (satZ code (.fin n m e))) ∧
    (¬magLe m e 127 (-6) → satZ code (.fin n m e) = (((if n then -127 else 127 : Int) % 256).toNat, flagOF ||| flagNX)))

/-- The scale byte of a block of values: 0xFF beside a NaN, 0x7F where no finite value differs from 0, else by the exponent of the
greatest finite magnitude (R188). -/
def ScaleSays (emax : Int) (val : Nat → Machine.Num) (js : List Nat) (X : Byte) : Prop :=
  ((∃ j ∈ js, val j = .nan) → X = 0xFF) ∧
  ((∀ j ∈ js, val j ≠ .nan) →
    ((∀ j ∈ js, ∀ n m e, val j = .fin n m e → m = 0) → X = 0x7F) ∧
    (∀ j ∈ js, ∀ n m e l, val j = .fin n m e → m ≠ 0 →
      (∀ i ∈ js, ∀ n' m' e', val i = .fin n' m' e' → magLe m' e' m e) → magLe 1 l m e → ¬magLe 1 (l + 1) m e →
        X = BitVec.ofInt 8 (min (max (l - emax + 127) 0) 254)))

/-- The results of MXQNT over the active elements of a strip (R188). -/
def MxQuantizeSays (x : EState) (i : VIn) : Prop :=
  let q := mxQuantize x i
  let block := fun k => i.act.filter (fun j => decide (j / 32 = k))
  (q.1.map (·.1)).Nodup ∧ (∀ k, k ∈ q.1.map (·.1) ↔ block k ≠ []) ∧
  (∀ emax, (x.fd, emax) ∈ mxKinds →
    (∀ k X, (k, X) ∈ q.1 → ScaleSays emax (numA x i) (block k) X) ∧
    (∀ j v, (j, v) ∈ q.2.1 ↔ j ∈ i.act ∧ ∀ X, (j / 32, X) ∈ q.1 →
      v = if X = 0xFF then 0 else (satZ x.fd ((numA x i j).scale (127 - (X.toNat : Int)))).1) ∧
    (∀ b, q.2.2.getLsbD b = true ↔ (b = 0 ∧ ∃ j ∈ i.act, numA x i j = .nan) ∨
      ∃ j ∈ i.act, ∃ X, (j / 32, X) ∈ q.1 ∧ X ≠ 0xFF ∧
        (satZ x.fd ((numA x i j).scale (127 - (X.toNat : Int)))).2.getLsbD b = true)) ∧
  ((∀ emax, (x.fd, emax) ∉ mxKinds) →
    (∀ k X, (k, X) ∈ q.1 → X = 0x7F) ∧
    (∀ j v, (j, v) ∈ q.2.1 ↔ j ∈ i.act ∧ v = (quantize x.fd x.wd x.sd (numA x i j)).1) ∧
    (∀ b, q.2.2.getLsbD b = true ↔ ∃ j ∈ i.act, (quantize x.fd x.wd x.sd (numA x i j)).2.getLsbD b = true))

/-- A term of a block's dot product, and its invalid flag: the product of the two scaled values, NaN beside a scale byte 0xFF (R190). -/
def mxTerm (h : Hart) (x : EState) (i : VIn) (j : Nat) : Machine.Num × BitVec 4 :=
  let side := fun (v : Machine.Num) (e : BitVec 4) =>
    if scaleByte h e (i.base + j) = 0xFF then .nan else v.scale ((scaleByte h e (i.base + j)).toNat - 127)
  numMul (side (numA x i j) x.eA) (side (numB x i j) x.eB)

/-- The dot product of a block's active elements (R134, R190). -/
def BlockDotSays (h : Hart) (x : EState) (i : VIn) (js : List Nat) : Prop :=
  let r := blockDot h x i js
  let t := fun j => (mxTerm h x i j).1
  (js = [] → r = (.fin false 0 0, 0)) ∧
  ((∃ j ∈ js, t j = .nan) → r.1 = .nan) ∧
  ((∃ j ∈ js, (mxTerm h x i j).2 = flagNV) → r.2 = flagNV) ∧
  ((∀ j ∈ js, t j ≠ .nan) →
    ((∃ j ∈ js, t j = .inf false) → (∃ j ∈ js, t j = .inf true) → r = (.nan, flagNV)) ∧
    (∀ n, (∃ j ∈ js, t j = .inf n) → (∀ j ∈ js, t j ≠ .inf (!n)) → r = (.inf n, 0)) ∧
    (js ≠ [] → (∀ j ∈ js, ∀ n, t j ≠ .inf n) → ∃ n m e, r = (.fin n m e, 0) ∧
      (m = 0 → (n = true ↔ ∀ j ∈ js, ∃ e', t j = .fin true 0 e')) ∧
      ∀ b, (∀ j ∈ js, ∀ n' m' e', t j = .fin n' m' e' → b ≤ e') → units b n m e =
        (js.map (fun j => match t j with | .fin n' m' e' => units b n' m' e' | _ => 0)).sum))

end Sys2Proof.Claims

namespace Sys2Proof.Claims

open Sys2Proof.Machine

/-- A vector source field as the instruction reads it: a register that no spool stands for, or a read spool whose strip is
present, no element of it marked faulted (R111, R237, R238). -/
def Source (s : State) (f : Option (BitVec 5)) (v : VSrc) : Prop :=
  match f with
  | none => v = {}
  | some r =>
    (aliasOf s.hart s.who r = none ∧ v = { planes := (s.est.vreg r).planes }) ∨
    ∃ n, ∃ es : List Nat, aliasOf s.hart s.who r = some n ∧ (s.hart.spool n).isWrite = false ∧
      (s.hart.spool n).buf.take s.est.vl = es.map SpEl.data ∧ es.length = s.est.vl ∧
      v = { planes := stripPlanes (laneBase s.hart s.who) (s.hart.spool n).width 0 (es.map SpEl.data)
            sign := some (s.hart.spool n).sign, spool := some n }

/-- A vector destination field: a register that no spool stands for, or a write spool (R237). -/
def Dest (s : State) (r : BitVec 5) (dst : Option Nat) : Prop :=
  aliasOf s.hart s.who r = dst ∧ ∀ n, dst = some n → (s.hart.spool n).isWrite = true

/-- No stored bit of the hart's rows has bad parity, and no check of the lanes will fail (R249-R253). -/
def CleanLanes (s : State) : Prop :=
  s.hart.damaged = [] ∧ s.core.laneErrs = [] ∧ s.core.stitchErrs = [] ∧ s.core.bufErrs = []

/-- The lanes that hold elements: all of them, or the primary half under double-stitch mode (R108). -/
def primaryLanes (s : State) : Nat := if s.hart.ds then 8192 else 16384

end Sys2Proof.Claims

namespace Sys2Proof.Claims

open Sys2Proof.Machine

/-- A vector memory instruction of word `w` may begin: its operands are read, it goes on at element `start`, and no element from there
on is marked faulted; `js` are its active elements from there on (R224, R237, R238). -/
def MemReads (w : BitVec 32) (s : State) (p : BitVec 6) (va vb vd : Option (BitVec 5)) (act : List Nat) (s' : State) (i : VIn) (start : Nat)
    (js : List Nat) : Prop :=
  ∀ k, memStart w s p va vb vd act k = k s' i start js none

/-- VRSTATE as it was before the instruction (R224). -/
def sameVr (s t : State) : State := t.setEst { t.est with vrstate := s.est.vrstate }

/-- The positions of a write spool that the elements take are translated; a register needs none (R238). -/
def Positions (s : State) (i : VIn) (start : Nat) (vals : List (Nat × Nat)) (t : State) : Prop :=
  match i.dst with
  | none => t = s
  | some n => checkWrites s s.loc n start (vals.map (·.1)) = .ok t

/-- Loaded elements in their destination, and the instruction complete (R119, R176, R223, R237). -/
def loadedVec (s t : State) (i : VIn) (start : Nat) (vd : BitVec 5) (wd : Nat) (sd : Bool) (vals : List (Nat × Nat)) :
    State :=
  let t1 := match i.dst with
    | none => t
    | some n => appendWrites t t.loc n start (spoolVals t n wd sd vals)
  let ps := writeElems t.hart i.base (destPlanes t i none vd wd sd start start) vals
  sameVr s (completed (commitDest t1 i none vd ps sd (destRows t start wd) []) i start 0)

/-- Checked elements stored in ascending order, bytes that they cover whole made clean first, and the instruction complete
(R224, R226, R350). -/
def storedVec (s t : State) (i : VIn) (start : Nat) (put : State → Nat → State) (js : List Nat)
    (spans : List (Nat × Nat)) : State :=
  sameVr s (completed (js.foldl put (t.clearWhole spans)) i start 0)

/-- The state in which an instruction that records VSTART stands interrupted before element `j`: VSTART is `j`, VRSTATE holds its running
state, its destinations are pending with the elements done, the streams of its spools have passed those elements, and PC, every
committed register and memory are as in `t` (R176, R224, R238). -/
def StandsAt (t : State) (i : VIn) (start j : Nat) (run : Word) (fl : BitVec 4) (pend : Option (BitVec 5 × List Plane × List Plane))
    (u : State) : Prop :=
  u.est = { t.est with
    vstart := BitVec.ofNat 15 j, vrstate := run, fstat := t.est.fstat ||| fl, pending := u.est.pending } ∧
  u.est.pending.map (fun p => (p.vd, p.planes, p.perRow)) = pend ∧
  u.thr = t.thr ∧ u.mem = t.mem ∧
  ∀ n : Fin 16, (u.hart.spool n).pos = (t.hart.spool n).pos +
    (srcSpools [i.a, i.b] ++ i.dst.toList).count n.val * (j - start)

/-- What stops an instruction at an element: its cause is taken at the instruction's address, or it waits for a migration to end (R224,
R298). -/
def stopsWith (u : State) : MemStop → Option State
  | .trap c v => some (u.takeTrap c v u.thr.pc)
  | .hold => some (stalled u)
  | _ => none

/-- The elements that a load has read before a stop have gone to a write spool (R237, R238). -/
def appended (s t : State) (i : VIn) (start : Nat) (wd : Nat) (sd : Bool) (vals : List (Nat × Nat)) : State :=
  match i.dst with
  | none => s
  | some n => appendWrites t t.loc n start (spoolVals t n wd sd vals)

/-- Active elements are accessed in ascending order, each once those below it are done, up to the first that stops (R224). -/
def InOrder (f : State → Nat → MemOne) : Prop :=
  (∀ s acc, memLoop f [] s acc = .all s acc) ∧
  (∀ js j s acc s1 vals, memLoop f js s acc = .all s1 vals →
    (∀ s2 v, f s1 j = .ok s2 v → memLoop f (js ++ [j]) s acc = .all s2 (vals ++ [(j, v)])) ∧
    (∀ s2 w post, f s1 j = .stop s2 w → memLoop f (js ++ j :: post) s acc = .stop s2 vals j w)) ∧
  (∀ js s acc s2 vals j w, memLoop f js s acc = .stop s2 vals j w →
    ∃ pre post s1, js = pre ++ j :: post ∧ memLoop f pre s acc = .all s1 vals ∧ f s1 j = .stop s2 w)

/-- The reuse class of a vector load or store: RCLS where an index register is read, else the default class (R27, R293). -/
def memClass (x : EState) (vb : Option (BitVec 5)) : BitVec 2 := if vb.isSome then x.rcls else 1

/-- The vector loads, and the address of an element (R224). -/
noncomputable def vloadTable (d a b : BitVec 5) (p : BitVec 6) :
    List (Instr × List (BitVec 5) × Option (BitVec 5) × (State → VIn → Nat → Word)) :=
  [(.vld d a p, [a], none, fun s _ j => s.thr.reg a + word (j * ebOf s.est.wd)),
   (.vlds d a b p, [a, b], none, fun s _ j => s.thr.reg a + word j * s.thr.reg b),
   (.vldx d a b p, [a], some b, fun s i j => s.thr.reg a + word (rawAt (i.base + j) i.b.planes * ebOf s.est.wd))]

/-- The vector stores, and the address of an element (R224). -/
noncomputable def vstoreTable (v a b : BitVec 5) (p : BitVec 6) :
    List (Instr × List (BitVec 5) × Option (BitVec 5) × (State → VIn → Nat → Word)) :=
  [(.vst v a p, [a], none, fun s _ j => s.thr.reg a + word (j * ebOf s.est.wd)),
   (.vsts v a b p, [a, b], none, fun s _ j => s.thr.reg a + word j * s.thr.reg b),
   (.vstx v a b p, [a], some b, fun s i j => s.thr.reg a + word (rawAt (i.base + j) i.b.planes * ebOf s.est.wd))]

/-- The bytes of a stored element: its bits extended by SD to the element's size (R223). -/
def elementBytes (x : EState) (i : VIn) (j : Nat) : List Byte :=
  bytesOf (ebOf x.wd) (truncTo (8 * ebOf x.wd) (intVal x.wd x.sd (i.rawA x.wd x.sd j)))

/-- The parts of a predicate in memory in order, each at its place; none when one of them fails (R228). -/
def parts (acc : Access) (a : Word) (f : State → Place → Nat → Nat → State) :
    List (Word × Nat × Nat) → State → Option State
  | [], s => some s
  | (pa, lo, hi) :: r, s =>
    if s.thr.cut.isSome then none else
    match resolveThr s acc pa 16 with
    | .ok p s' =>
      if acc = .read ∧ s'.lostAt s'.loc p 16 = true then none
      else
        let s1 := f (s'.touchVec p) (match p with
          | .spad c o => .spad c (o + (a.toNat + lo) % 16)
          | .phys q => .phys (q + (a.toNat + lo) % 16)) lo hi
        parts acc a f r (if acc = .write then s1.movedTo s1.loc p 16 else s1)
    | .fail _ _ => none
    | .stall _ => none

/-- The offsets of a block's scale byte and of its element bytes, from the start of its first group: groups of 512 elements, 16 scale
bytes and then 16 times 4*width element bytes (R229, R130). -/
def blockAt (width k : Nat) : Nat × Nat :=
  (k / 16 * (16 + 64 * width) + k % 16, k / 16 * (16 + 64 * width) + 16 + k % 16 * (4 * width))

/-- The bits of element `n` of a block whose element bytes begin at an offset of the hart's scratchpad (R130). -/
def spadElem (s : State) (o width n : Nat) : Nat :=
  ofBytes (memRead s.hart.spad o (4 * width)) / 2 ^ (width * n) % 2 ^ width

/-- Blocks with their active elements, whose groups lie from `off` on in the hart's own scratchpad, no line of it being owned by an
engine (R229, R315). -/
def SpadBlocks (s : State) (ga : Word) (off width base : Nat) (bl : List (Nat × List Nat)) : Prop :=
  (width = 4 ∨ width = 6 ∨ width = 8) ∧ ga.toNat = windowBase + off ∧ off % 16 = 0 ∧
  (∀ o, s.owned none (.spad s.loc o) = false) ∧ (∀ e : Fin 16, (s.hart.scales[e]).length = 512) ∧
  ∀ b ∈ bl, off + (b.1 / 16 + 1) * (16 + 64 * width) ≤ 98304 ∧ base / 32 + b.1 < (if s.hart.ds then 256 else 512) ∧
    ∀ j ∈ b.2, j / 32 = b.1

/-- What MXLD does with blocks in the hart's own scratchpad: their active elements are read, the scale bytes of the blocks enter their
bytes of the scale register, mirrors included, and nothing else changes (R184, R230). -/
def MxLoads (s : State) (e : BitVec 4) (ga : Word) (off width base : Nat) (bl : List (Nat × List Nat)) : Prop :=
  ∃ t : State, mxLoad e ga width base bl s [] =
      .all t (bl.flatMap (fun b => b.2.map (fun j => (j, spadElem s (off + (blockAt width b.1).2) width (j % 32))))) ∧
    t = s.setHart { s.hart with scales := t.hart.scales } ∧
    (∀ x : BitVec 4, x ≠ e → t.hart.scales[x.toNat]'x.isLt = s.hart.scales[x.toNat]'x.isLt) ∧
    ∀ n, n < 512 →
      ((∃ b ∈ bl, (n = base / 32 + b.1 ∨ (s.hart.ds = true ∧ n = base / 32 + b.1 + 256)) ∧
        scaleByte t.hart e (32 * n) = memGet s.hart.spad (off + (blockAt width b.1).1)) ∨
      ((∀ b ∈ bl, n ≠ base / 32 + b.1 ∧ (s.hart.ds = true → n ≠ base / 32 + b.1 + 256)) ∧
        scaleByte t.hart e (32 * n) = scaleByte s.hart e (32 * n)))

/-- What MXST does with blocks in the hart's own scratchpad: their active elements and scale bytes are written, and no other bit of
it (R230). -/
def MxStores (s : State) (e : BitVec 4) (ga : Word) (off width : Nat) (i : VIn) (sd : Bool) (bl : List (Nat × List Nat)) : Prop :=
  ∃ t : State, mxStore e ga width i sd bl s [] = .all t [] ∧ t = s.setHart { s.hart with spad := t.hart.spad } ∧
    (∀ b ∈ bl, memGet t.hart.spad (off + (blockAt width b.1).1) = scaleByte s.hart e (i.base + 32 * b.1) ∧
      ∀ n, n < 32 → spadElem t (off + (blockAt width b.1).2) width n =
        if ∃ c ∈ bl, c.1 = b.1 ∧ 32 * b.1 + n ∈ c.2 then i.rawA width sd (32 * b.1 + n) % 2 ^ width
        else spadElem s (off + (blockAt width b.1).2) width n) ∧
    ∀ x, (∀ b ∈ bl, x ≠ off + (blockAt width b.1).1 ∧
        ¬(off + (blockAt width b.1).2 ≤ x ∧ x < off + (blockAt width b.1).2 + 4 * width)) →
      memGet t.hart.spad x = memGet s.hart.spad x

/-- One element of VVRLD whose word has not been asked for before: it takes the live version's value, VER_GONE when the version is
gone, and waits otherwise; an address outside the versioned regions names its cause (R329, R330, R335). -/
def VvrldElement (s : State) (ga : Word) (v : BitVec 32) (js : List Nat) (width j : Nat) : Prop :=
  let a := ga + word (8 * j)
  let one := versReadOne ga width (versAsks s ga v js) s j
  (canonical a = false → one = .stop s (.trap .xlate a)) ∧
  (canonical a = true → a.toNat % 8 ≠ 0 → one = .stop s (.trap .misalign a)) ∧
  (canonical a = true → a.toNat % 8 = 0 → s.regionOf s.hart.ctx a = none → one = .stop s (.trap .perm a)) ∧
  ∀ r, VersionedAt s a r →
    (verGone (r.floorAt a) (r.word a) v = true → one = .stop s (.trap .verGone a)) ∧
    (verGone (r.floorAt a) (r.word a) v = false →
      (∀ x, (r.word a).find v = some x → one = .ok s (x.toNat % 2 ^ width)) ∧
      ((r.word a).find v = none → ∃ q qs, q.addr = a ∧ q.ver = v ∧
        one = .stop s (.wait .version ga (q :: qs) (.lanes []) .verTimeout a)))

/-- One element of VVRST whose word has not been asked for before: it creates the version when it is neither gone nor present and the
word has room (R329, R331, R335). -/
def VvrstElement (s : State) (ga : Word) (v : BitVec 32) (val : Nat → Word) (ns : List Nat) (j : Nat) : Prop :=
  let a := ga + word (8 * j)
  let one := versWriteOne ga v val ns s j
  (canonical a = false → one = .stop s (.trap .xlate a)) ∧
  (canonical a = true → a.toNat % 8 ≠ 0 → one = .stop s (.trap .misalign a)) ∧
  (canonical a = true → a.toNat % 8 = 0 → s.regionOf s.hart.ctx a = none → one = .stop s (.trap .perm a)) ∧
  ∀ r, VersionedAt s a r →
    let x := r.word a
    (verGone (r.floorAt a) x v = true → one = .stop s (.trap .verGone a)) ∧
    (verGone (r.floorAt a) x v = false →
      (x.find v ≠ none → one = .stop s (.trap .verDup a)) ∧
      (x.find v = none →
        (x.live.length ≤ r.depth → s.entryFree (versHome a) = true →
          one = .ok (s.setRegion (r.setWord { x with live := x.live ++ [(v, val j)] })).wakeVers 0) ∧
        (¬(x.live.length ≤ r.depth ∧ s.entryFree (versHome a) = true) → ∃ q, q.addr = a ∧ q.ver = v ∧ q.val = some (val j) ∧
          one = .stop s (.wait .room a [q] (.lanes ns) .verFull a))))

/-- A predicate's elements from the bytes of a part, where the top is true (R228). -/
def loadPart (base : Nat) (p : BitVec 6) (s : State) (q : Place) (lo hi : Nat) : State :=
  let js := (List.range s.est.vl).filter (fun j => decide (8 * lo ≤ j) && decide (j < 8 * hi) &&
    decide (s.est.vstart.toNat ≤ j) && topAt s.hart s.est base j)
  s.setHart (s.hart.setPred base p js
    (js.filter (fun j => ((s.loadAt q (hi - lo)).getD (j / 8 - lo) 0).getLsbD (j % 8))))

/-- A byte of eight predicate elements, 0 from VL on (R228). -/
def predByte (base : Nat) (p : BitVec 6) (s : State) (n : Nat) : Byte :=
  BitVec.ofNat 8 ((List.range 8).foldl (fun acc b =>
    if 8 * n + b < s.est.vl ∧ predAt s.hart s.est base p (8 * n + b) = true then acc + 2 ^ b else acc) 0)

/-- A predicate's bytes stored in a part (R228). -/
def storePart (base : Nat) (p : BitVec 6) (s : State) (q : Place) (lo hi : Nat) : State :=
  s.storeAt none q ((List.range (hi - lo)).map (fun k => predByte base p s (lo + k)))

end Sys2Proof.Claims

namespace Sys2Proof.Claims

open Sys2Proof.Machine

/-- The new vector length for a request: the least of the request, VLMAX and the grant, shared while split (R142). -/
def newVl (s : State) (req : Word) : Nat :=
  let g := (s.die s.loc.die).gvl
  min req.toNat (min (vlmaxOf s.hart s.who) (match s.who with
    | .mt _ => g / s.hart.split
    | _ => g))

/-- VL and a register set to a vector length (R142). -/
def vlSet (s : State) (d : BitVec 5) (v : Nat) : State :=
  (s.setThr (s.thr.setReg d (word v))).setEst { s.est with vl := v }

/-- Node `x`, its parent, its parent's parent and so on, `n` steps up; none above the root (R197). -/
def up (l : List PgNode) : Nat → Nat → Option Nat
  | 0, x => if x < l.length then some x else none
  | n + 1, x =>
    match l[x]? with
    | none => none
    | some v => if v.parent = 0x3FF then none else up l n v.parent.toNat

/-- A tree in index order: every node's parent stands before it (R196). -/
def Ordered (l : List PgNode) : Prop :=
  ∀ (x : Nat) (v : PgNode), l[x]? = some v → v.parent = 0x3FF ∨ v.parent.toNat < x

/-- The elements that a pedigree instruction writes: below VL under the top, and below the size of the tree (R204). -/
def nodeElems (s : State) (l : List PgNode) : List Nat := (topList s).filter (fun j => decide (j < l.length))

end Sys2Proof.Claims

namespace Sys2Proof.Claims

open Sys2Proof.Machine

/-- The operands of an instruction that records VSTART and starts at element 0: its source, its destination and its active
elements (R165, R175). -/
def recIn (s : State) (x : VSrc) (dst : Option Nat) (p : BitVec 6) : VIn :=
  { a := x, dst := dst, act := actives s p, base := laneBase s.hart s.who }

/-- The state of a recording instruction may be read from element 0: VSTART is in the first sub-strip, the source can be
read and the lanes have nothing to report (R165, R175). -/
def Fresh (s : State) (a : BitVec 5) (x : VSrc) : Prop :=
  s.est.vstart.toNat < 1024 ∧ Source s (some a) x ∧ CleanLanes s ∧ s.thr.cut = none

/-- Rows are respected (R163). -/
def rowsOn (s : State) : Bool := s.est.seamctl.getLsbD 0

/-- A row begins at an element (R163). -/
def begins (s : State) (j : Nat) : Bool := j == 0 || (rowsOn s && seamAt s j)

/-- Two elements lie in one row: no row begins above the lower one up to the higher one (R163). -/
def sameRow (s : State) (j k : Nat) : Bool :=
  (List.range (max j k + 1)).all (fun m => decide (m ≤ min j k) || !begins s m)

/-- The active elements of the row of an element (R163, R169). -/
def rowActs (s : State) (i : VIn) (e : Nat) : List Nat := i.act.filter (sameRow s e)

/-- The last elements of the rows (R163). -/
def lastOnes (s : State) : List Nat :=
  (List.range s.est.vl).filter (fun e => decide (e + 1 = s.est.vl) || begins s (e + 1))

/-- A result of WD bits as the word that a scalar register takes (R166). -/
def extended (x : EState) (v : Nat) : Word :=
  if x.sd then (BitVec.ofNat x.wd v).signExtend 64 else (BitVec.ofNat x.wd v).setWidth 64

/-- The seed of an integer reduction: the low bits of gb, with the sign of D (R166). -/
def seed (s : State) (b : BitVec 5) : Int := intVal s.est.wd s.est.sd ((s.thr.reg b).setWidth s.est.wd).toNat

/-- The thread with a fill of words started (R17). -/
def filling (s : State) (ds : List (BitVec 5)) (ws : List Word) : Thread :=
  { s.thr.emptyAll ds with
    fills := s.thr.fills ++ [{ id := s.hart.fillSeq, dests := ds, src := .value ws }] }

/-- What a reduction leaves beside its scalars: nothing but its per-row register, the freed source of a prefix, flags and
the used-up positions (R165, R169, R176). -/
def RestKept (s t : State) (a : BitVec 5) : Prop :=
  t.mem = s.mem ∧ t.hart.preds = s.hart.preds ∧ t.est.vstart = 0 ∧ t.est.vrstate = 0 ∧ t.est.pending = none ∧
  t.est.vl = s.est.vl ∧
  ∀ r : BitVec 5, (s.est.pfx.pend = true → s.est.pfx.lua = true → r ≠ a) →
    (rowsOn s = true → r.toNat ≠ s.est.seamctl.toNat / 2 % 32) → (t.est.vreg r).planes = (s.est.vreg r).planes

/-- The per-row register: the result of each row at its last element, every other lane kept (R169). -/
def RowsWritten (s t : State) (wd : Nat) (sd : Bool) (val : Nat → Nat) : Prop :=
  rowsOn s = true → s.est.vl ≠ 0 →
    let vrow := BitVec.ofNat 5 (s.est.seamctl.toNat / 2)
    let base := laneBase s.hart s.who
    (∀ e ∈ lastOnes s, rawAt (base + e) (t.est.vreg vrow).planes = val e) ∧
    ∀ l, l < primaryLanes s → (∀ e ∈ lastOnes s, l ≠ base + e) → s.est.pfx.pend = false →
      rawAt l (t.est.vreg vrow).planes = rawAt l (keptPlanes (s.est.vreg vrow) wd sd)

/-- A reduction to one scalar: gd gets the result of the row of element VL - 1, or gb unchanged when no element of it is
active, and each row its own result when rows are respected; `val` gives the result over some elements (R165, R169). -/
def Reduces (ins : Instr) (d a b : BitVec 5) (p : BitVec 6) (s : State) (wd : Nat) (val : VIn → List Nat → Nat)
    (word : Nat → Word) : Prop :=
  Ready ins [b] s → Free [d] s → s.thr.fillRoom = true → ∀ x, Fresh s a x →
    laneBase s.hart s.who + s.est.vl ≤ primaryLanes s →
    let i := recIn s x none p
    let last := rowActs s i (s.est.vl - 1)
    ∃ t : State, exec ins s = .next (done t) ∧
      t.thr = filling s [d] [if last = [] then s.thr.reg b else word (val i last)] ∧
      RestKept s t a ∧ RowsWritten s t wd s.est.sd (fun e => val i (rowActs s i e))

/-- The integer reductions, and their result on a seed and values (R166). -/
def redIntTable : List ((BitVec 5 → BitVec 5 → BitVec 5 → BitVec 6 → Instr) × (EState → Int → List Int → Nat)) :=
  [(.vredsum, fun x v vs => (BitVec.ofInt x.wd (v + vs.sum)).toNat),
   (.vredmin, fun x v vs => (BitVec.ofInt x.wd (vs.foldl min v)).toNat),
   (.vredmax, fun x v vs => (BitVec.ofInt x.wd (vs.foldl max v)).toNat),
   (.vredand, fun x v vs => (vs.foldl (fun acc y => acc &&& BitVec.ofInt x.wd y) (BitVec.ofInt x.wd v)).toNat),
   (.vredor, fun x v vs => (vs.foldl (fun acc y => acc ||| BitVec.ofInt x.wd y) (BitVec.ofInt x.wd v)).toNat)]

/-- The float sum over some elements: sub-strip after sub-strip, each by the fixed tree (R136, R168). -/
def treeSum (x : EState) (i : VIn) (start : Option Nat) (js : List Nat) : Option Nat × BitVec 4 :=
  (List.range ((x.vl + 1023) / 1024)).foldl (fun acc c =>
    let e := convD x i (js.filter (fun j => decide (j / 1024 = c)))
    combine x (acc.1, acc.2 ||| e.2) (treeNode x 10 (1024 * c) e.1)) (start, 0)

/-- The winner among some elements: none when the seed stands, else the first element that is better than the seed and
than every other one up to itself and not beaten later (R167). -/
def Winner {α : Type} (better : α → α → Bool) (v : Nat → α) (seed : α) (js : List Nat) : Option Nat → Prop
  | none => ∀ j ∈ js, better (v j) seed = false
  | some w => w ∈ js ∧ better (v w) seed = true ∧ (∀ j ∈ js, better (v j) (v w) = false) ∧
      ∀ j ∈ js, j < w → better (v w) (v j) = true

/-- The positions of a write spool that the elements of each sub-strip in turn take are translated; a register needs none
(R175, R238). -/
def StripPositions (dst : Option Nat) : List (List (Nat × Nat)) → State → State → Prop
  | [], s, t => t = s
  | r :: rs, s, t =>
    match dst with
    | none => t = s
    | some n => ∃ s', checkWrites s s.loc n 0 (r.map (·.1)) = .ok s' ∧ StripPositions dst rs s' t

/-- Elements of a scan, compaction or expansion in their destination, and the instruction complete (R49, R113, R176). -/
def recorded (t : State) (i : VIn) (a d : BitVec 5) (wd : Nat) (res : List (Nat × Nat)) (fl : BitVec 4) : State :=
  let sd := t.est.sd
  let t1 := match i.dst with
    | none => t
    | some n => appendWrites t t.loc n 0 (spoolVals t n wd sd res)
  let rows := { t.est with pending := none }.freshRows wd
  completed (commitDest t1 i (some a) d (writeElems t.hart i.base (destPlanes t i (some a) d wd sd 0 0) res) sd rows
    (t.est.freshBeside rows wd)) i 0 fl

/-- The numbers of the sub-strips (R136). -/
def strips (s : State) : List Nat := List.range ((s.est.vl + 1023) / 1024)

/-- A scan, compaction or expansion: `chunk` gives the elements that a sub-strip adds to the destination, `fl` limits
the flags, `after` is what is set besides (R170-R172). -/
def Scans (ins : Instr) (d a : BitVec 5) (p : BitVec 6) (s : State) (wd : EState → Nat)
    (chunk : VIn → Nat → List (Nat × Nat)) (fl : BitVec 4 → Prop) (after : VIn → State → State) : Prop :=
  Ready ins [] s → ∀ x dst, Fresh s a x → Dest s d dst →
    let i := recIn s x dst p
    let chunks := (strips s).map (chunk i)
    ∀ t, StripPositions dst chunks s t → CleanLanes t → ∃ f, fl f ∧
      exec ins s = .next (done (after i (recorded t i a d (wd s.est) chunks.flatten f)))

/-- The active elements of a sub-strip. -/
def stripActs (i : VIn) (c : Nat) : List Nat := i.act.filter (fun j => decide (j / 1024 = c))

/-- The active elements of the row of an element up to itself (R170). -/
def upTo (s : State) (i : VIn) (j : Nat) : List Nat := (rowActs s i j).filter (fun k => decide (k ≤ j))

/-- FSCANSUM at an element: the sub-strips before its own by whole trees, its own by the nodes that the bits of its offset
plus 1 name (R136). -/
def scanSum (s : State) (i : VIn) (j : Nat) : Option Nat × BitVec 4 :=
  let x := s.est
  let row := upTo s i j
  let before := treeSum x i none (row.filter (fun k => decide (k / 1024 < j / 1024)))
  combine x (before.1, 0) (scanLocal x (convD x i (row.filter (fun k => decide (k / 1024 = j / 1024)))).1
    (j % 1024 + 1) 10 (j / 1024 * 1024) (none, 0))

end Sys2Proof.Claims

namespace Sys2Proof.Claims

open Sys2Proof.Machine

/-- The table of a reduction's codes and its effect on a word (R44, R304). -/
def redEffect : List (BitVec 4 × (Word → Word → Word)) := redTable.map (fun r => (r.code, r.new))

/-- The walk of the oldest posted reduction of a thread ends: the state with it taken off, the core in focus (R304). -/
def walkEnded (s : State) (c : CoreId) (w : Who) : State :=
  (s.focus c w).onThr c w (fun t => { t with posted := t.posted.drop 1 })

/-- A Bobbin operation: the event, its code, the addresses that must be aligned, its units, and what one unit does
(R242). -/
structure BobRow where
  event : CoreId → Nat → Instr
  op : Nat
  aligns : List Word → List (Word × Nat)
  units : List Word → List (Nat × Nat)
  unit : CoreId → EngCmd → Nat → State → BobRes

/-- The address of field base plus an offset in bytes. -/
def off (a : Word) (n : Nat) : Word := a + word n

/-- The Bobbin operations. COPY moves pieces that cross no 16-byte part; TOSLICE and FROMSLICE one element; PLANES a group
of 64 elements; UNPLANES one element; MXSPLIT one block (R242). -/
noncomputable def bobTable : List BobRow :=
  [⟨.copy, 0, fun _ => [],
    fun d => (copyCuts (bSaddr d).toNat (bDaddr d).toNat (bCount d) 0 (bCount d)).map (fun x => (x.1 * 32 + x.2, x.1)),
    fun c k u s => bobRead s c k (bPhys k.desc) (off (bSaddr k.desc) (u / 32)) (u % 32) 1 (fun s bs =>
      bobWrite s c k (bPhys k.desc) (off (bDaddr k.desc) (u / 32)) bs 1)⟩,
   ⟨.toslice, 1, fun d => [(bSaddr d, ebOf (bWidth d))], fun d => elemUnits (bCount d),
    fun c k u s =>
      let eb := ebOf (bWidth k.desc)
      bobRead s c k (bPhys k.desc) (off (bSaddr k.desc) (u * eb)) eb eb (fun s bs =>
        .ok (s.sliceWrite c k (bRow0 k.desc) (bWidth k.desc) (bLane0 k.desc + u) (ofBytes bs)))⟩,
   ⟨.fromslice, 2, fun d => [(bDaddr d, ebOf (bWidth d))], fun d => elemUnits (bCount d),
    fun c k u s =>
      let eb := ebOf (bWidth k.desc)
      let a := off (bDaddr k.desc) (u * eb)
      let r := s.compareSlice c k (bLane0 k.desc + u)
      if r.2 = true then
        match r.1.sliceRead c k (bRow0 k.desc) (bWidth k.desc) (bLane0 k.desc + u) with
        | (s1, some v) => bobWrite s1 c k (bPhys k.desc) a (bytesOf eb v) eb
        | (s1, none) => .bad s1 5 a
      else .bad r.1 5 a⟩,
   ⟨.planes, 3, fun d => [(bSaddr d, ebOf (bWidth d)), (bDaddr d, 8)], fun d => groupUnits (bCount d) 64,
    fun c k u s => readElems c k (bSaddr k.desc) (ebOf (bWidth k.desc)) (bWidth k.desc) (fun s vs =>
      writeWords c k ((List.range (bWidth k.desc)).map (planeWord vs)) (off (bDaddr k.desc) (8 * bWidth k.desc * u)) s)
      ((List.range (min 64 (bCount k.desc - 64 * u))).map (· + 64 * u)) [] s⟩,
   ⟨.unplanes, 4, fun d => [(bSaddr d, 8), (bDaddr d, ebOf (bWidth d))], fun d => elemUnits (bCount d),
    fun c k u s =>
      let eb := ebOf (bWidth k.desc)
      readWords c k (fun s ws =>
        bobWrite s c k (bPhys k.desc) (off (bDaddr k.desc) (u * eb)) (bytesOf eb (planeWord ws (u % 64))) eb)
        (bWidth k.desc) (off (bSaddr k.desc) (8 * bWidth k.desc * (u / 64))) [] s⟩,
   ⟨.mxsplit, 5, fun d => [(bSaddr d, 16)], fun d => groupUnits (bCount d) 32,
    fun c k u s =>
      let w := bWidth k.desc
      let size := mxBlockBytes w
      let gb := off (bSaddr k.desc) (u / 16 * (16 + 16 * size))
      bobRead s c k (bPhys k.desc) (off gb (u % 16)) 1 1 (fun s scale =>
        readBlock c k (fun s bs =>
          let vs := mxElems bs w (min 32 (bCount k.desc - 32 * u))
          let s1 := (vs.mapIdx (fun i v => (i, v))).foldl
            (fun s x => s.sliceWrite c k (bRow0 k.desc) w (bLane0 k.desc + 32 * u + x.1) x.2) s
          bobWrite s1 c k (bPhys k.desc) (off (bScales k.desc) u) scale 1)
          (size + 1) size (off gb (16 + u % 16 * size)) [] s)⟩]

/-- The units of a command that are not performed yet (R244). -/
def unitsLeft (row : BobRow) (k : EngCmd) : List (Nat × Nat) := (row.units k.desc).filter (fun u => decide (k.done ≤ u.2))

/-- A command of Bobbin that has started: the next one of the package to start, its destination lines in no L1 (R244, R315). -/
def bobStarted (s : State) (c : CoreId) (k : EngCmd) : State :=
  let k1 := { k with started := true, stamp := s.starts }
  ({ s with starts := s.starts + 1 }.takeLines c k1 (bPhys k.desc) (bDest k.desc)).setBobbin c k1

/-- A command of Bobbin as a turn leaves it: it owns the lines that it has still to write, and the parts that it has written
whole since a count of them was done are clean (R244, R315, R350). -/
def bobPut (s : State) (c : CoreId) (before : Nat) (k : EngCmd) : State :=
  let k' := { k with got := [(0, bWritten k.desc k.done)] }
  (s.setBobbin c k').clearWritten c k' before

/-- What a turn of a started command of Bobbin leaves once a run over units has gone so: paused after a count of elements, its
end when that is all of them, or ended at a failing unit with its status and address (R244, R245). -/
def bobRun (c : CoreId) (k : EngCmd) : BobEnd → State
  | .ended s st done a => bobPut s c k.done { k with ended := true, status := BitVec.ofNat 8 st, done := done, faddr := a }
  | .paused s done => bobPut s c k.done { k with done := done, ended := decide (done = bCount k.desc) }

/-- A command of a link engine that has started: it is the next one to start, takes its port, its path may count as down from
now on, and its opening flit is on its way (R398, R399; the flit is laid out by the model, notes/assumptions/45.md). -/
def linkStarted (s : State) (c : CoreId) (k : EngCmd) : State :=
  let port := if xPort k.desc = 15 then assocFind s.mgmt.routes (xNode k.desc) else some (xPort k.desc)
  let k1 := { k with started := true, stamp := s.starts, port := port, downSince := some s.gts }
  (({ s with starts := s.starts + 1 }.takeLines c k1 (xPhys k.desc) (xDest k.desc)).setXcopy c k1).sendPort port
    (xNode k.desc) (openPayload k (coreNum c))

/-- The record of a command's end: ticket, status, count; the faulting address (R245, R399). -/
def endRecord (s : State) (typ : BitVec 8) (source : BitVec 16) (gts : Nat) (k : EngCmd) : EvRec :=
  { mkRec s typ source (word (k.ticket.toNat + k.status.toNat * 2 ^ 16 + k.done % 2 ^ 32 * 2 ^ 32))
      (word (k.faddr.toNat % 2 ^ 57)) with gts := gts }

end Sys2Proof.Claims

namespace Sys2Proof.Claims

open Sys2Proof.Machine

/-- The service order takes a record at the head of a queue: the record, and the state with HEAD advanced and stored
(R357, R359, R361). -/
def Consumes (s : State) (q : Nat) (r : List Word) (t : State) : Prop :=
  ∃ s0 s1 s2, s.peek q = .record r s0 ∧ s.select = some (.start q, s1) ∧ s1.peek q = .record r s2 ∧
    t = { s2.advanceHead q with orders := s.orders + 1 }

/-- The versioned word and the version that a record names (R362). -/
def verAddr (r : List Word) : Word := addr57 (dw r 2)

/-- A command that names a versioned word joins those that wait when the word is one of a declared region, and completes with
status 3 when it is none (R362). -/
def joinsOr3 (t : State) (c : Cmd) : State :=
  if (verAddr c.record).toNat % 8 = 0 ∧ (t.regionOf c.ctx (verAddr c.record)).isSome = true then t.addCmd c else t.complete c 3

end Sys2Proof.Claims

namespace Sys2Proof.Claims

open Sys2Proof.Machine

/-- The thread in focus once a trap has been noted in it (R99). -/
def trapThread (s : State) (c : Cause) (val pc : Word) : Thread :=
  { s.thr with
    tcause := c.code, tval := val, tpc := pc &&& 0x01FF_FFFF_FFFF_FFFF#64
    plvl := s.thr.super, pfxp := (decide (s.who ≠ .a) && s.est.pfx.pend)
    busy := true, super := true, clvl := s.thr.clvl + 1, wait := none
    full := s.thr.endWait.full
    tmt := (match s.who with | .mt k => BitVec.ofNat 4 k.val | _ => 0) }

/-- The state once a trap has been noted, before a handler is known: PFXS.PEND is 0 in E's state, and while E is split the
hart knows which micro-thread traps (R99, R100). -/
def trapNoted (s : State) (c : Cause) (val pc : Word) : State :=
  let s0 := if s.who = .a then s else s.setEst { s.est with pfx := { s.est.pfx with pend := false } }
  let s1 := s0.setThr (trapThread s c val pc)
  match s.who with
  | .mt k => s1.setHart { s1.hart with trapMt := some k }
  | _ => s1

/-- The word of an instruction as TVAL holds it (R38). -/
def wordVal (i : Instr) : Word := (encode i).setWidth 64

/-- The privileged encodings of R45. -/
noncomputable def privTable (d a : BitVec 5) (r : BitVec 1) (n : BitVec 12) : List Instr :=
  [.rett, .tlbinvAll a r, .tlbinvPage a r, .tlbinvContext a r] ++
    (if 0x100 ≤ n.toNat then [.csrrd d n, .csrwr a n, .csrset a n, .csrclr a n] else [])

/-- Words that the spec writes out, and the instructions that it says they are (R77, R79, R96, R207, and the examples of the
chapters). -/
noncomputable def wordTable : List (Nat × Instr) :=
  [(0x04611000, .add 3 1 2 0 0), (0x054B6005, .div 10 11 12 0 0), (0x18434007, .sari 2 3 0 7),
   (0x08217FFF, .addi 1 1 0 (-1)), (0x24200005, .ldi 1 5), (0x20700008, .ins16 3 2 1), (0x2C864010, .stq 2 6 0 16),
   (0x30890FFD, .bne 4 9 0 0 (-3)), (0x30003802, .boq 2), (0x34000001, .jmp 1), (0x3C000000, .ret),
   (0x3C000003, .lexit), (0x3C000007, .nop), (0x3C000006, .yield), (0x3C030008, .bopush 3), (0x3C200024, .lidx 1 2),
   (0x44630004, .loopi 99 4), (0x48000006, .halt), (0x48800000, .csrrd 4 0), (0x49000008, .evrd 2),
   (0x4805005E, .tlbinvPage 5 1), (0x54821008, .ldfe 4 2 0 8), (0x54A22008, .stef 5 2 0 8), (0x54C35000, .feq 6 3 0 0),
   (0x5C450000, .qpush 2 5), (0x5CC10001, .qpop 6 1), (0x5C680002, .spbind 3 8), (0x5D2A0006, .bcopy 9 10),
   (0x5C820008, .tenq 4 2), (0x60221880, .vadd 1 2 3 4), (0x64A63804, .vmacs 5 6 7 0), (0x69091806, .vhad 8 9 3 0),
   (0x6C5FE040, .vidx 2 0xFF 2), (0x7451870A, .pfilt 5 6 7), (0x70531C0C, .fclt 5 6 7 0), (0x786428C0, .vredsum 3 4 5 6),
   (0x7C650044, .vcompress 3 5 2), (0x80221883, .fma 1 2 3 4), (0x84450003, .emov 2 5), (0x8822180C, .vvrld 1 2 3 0),
   (0x90090002, .vkill 9), (0x94C5FC00, .setew 3 1 15 1 1 1), (0xA0981800, .pfx 9 1 0 0 1 1 0)]

end Sys2Proof.Claims

namespace Sys2Proof.Claims

open Sys2Proof.Machine

/-! ## Faults of an access (R65, R350) -/

/-- An access of `size` bytes whose resolution fails traps with the cause, the effective address as value and the instruction's
address as TPC; one that reads a poisoned part takes DATA_POISON (R65, R97, R350). -/
def Faults (i : Instr) (acc : Access) (a : Word) (size : Nat) (s : State) : Prop :=
  (∀ c s', resolveThr s acc a size = .fail c s' → exec i s = .next (s'.takeTrap c a s'.thr.pc)) ∧
  (acc ≠ .write → ∀ p s', resolveThr s acc a size = .ok p s' → s'.poisonedAt p size = true →
    exec i s = .next (s'.takeTrap .dataPoison a s'.thr.pc))

/-- The cause that the address of an access names, in the order of R65, and the state that the check leaves. -/
def ResolveFails (s : State) (acc : Access) (a : Word) (size : Nat) : Prop :=
  (canonical a = false → resolveThr s acc a size = .fail .xlate s) ∧
  (canonical a = true → a.toNat % size ≠ 0 → resolveThr s acc a size = .fail .misalign s) ∧
  (canonical a = true → a.toNat % size = 0 → windowBase ≤ a.toNat →
    let o := a.toNat - windowBase
    ((98304 ≤ o ∧ o < 1048576) ∨ 2097152 ≤ o ∨
        (1048576 ≤ o ∧ (s.hart.teamsize ≤ (o - 1048576) / 131072 ∨ 98304 ≤ (o - 1048576) % 131072)) →
      resolveThr s acc a size = .fail .spadRange s)) ∧
  (canonical a = true → a.toNat % size = 0 → a.toNat < windowBase →
    ∀ r, s.xlate none s.core.tlb 256 s.hart.ctx (!s.thr.super) acc a = r →
      (∀ c t, r = .fail c t → resolveThr s acc a size = .fail c t ∧ (c = .xlate ∨ c = .perm) ∧ t.thr = s.thr) ∧
      (∀ e, tlbHit s.core.tlb s.hart.ctx (!s.thr.super) acc (a.toNat % 2 ^ 57) = some e →
        allowed (!s.thr.super) acc e = false → r = .fail .perm s) ∧
      (tlbHit s.core.tlb s.hart.ctx (!s.thr.super) acc (a.toNat % 2 ^ 57) = none →
        (s.rootOf s.hart.ctx = none → r = .fail .xlate s) ∧
        ∀ root, s.rootOf s.hart.ctx = some root →
          (∀ l ∈ walkLines s.mem (a.toNat % 2 ^ 57) walkLevels root, s.owned none (.phys (64 * l)) = false) →
          (walkFrom s.mem (a.toNat % 2 ^ 57) walkLevels root = .none → ∃ t, r = .fail .xlate t) ∧
          ∀ at' e n, walkFrom s.mem (a.toNat % 2 ^ 57) walkLevels root = .leaf at' e n → e.getLsbD 56 = false →
            ((s.thr.super = false ∧ e.getLsbD 4 = false) ∨ (acc = .read ∧ e.getLsbD 1 = false) ∨
              (acc = .write ∧ e.getLsbD 2 = false) ∨ (acc = .rmw ∧ (e.getLsbD 1 = false ∨ e.getLsbD 2 = false))) →
            ∃ t, r = .fail .perm t))

/-! ## The checks of R38 before the operands -/

/-- The major opcode of a word (R36). -/
def opc (w : BitVec 32) : Nat := w.toNat / 2 ^ 26

/-- The low `n` bits of a word: FN of the short formats (R39). -/
def fn (w : BitVec 32) (n : Nat) : Nat := w.toNat % 2 ^ n

/-- Words that only E executes (R13). -/
def executeOnly (w : BitVec 32) : Prop :=
  (24 ≤ opc w ∧ opc w ≤ 38) ∨ opc w = 40 ∨ (opc w = 39 ∧ fn w 11 ≤ 1) ∨ (opc w = 12 ∧ 6 ≤ w.toNat / 2 ^ 11 % 8)

/-- Words that only A executes (R13). -/
def accessOnly (w : BitVec 32) : Prop := opc w = 15 ∧ fn w 4 = 8

/-- Privileged words: RETT, TLBINV, the CSR forms on numbers from 0x100 (R45). -/
def privWord (w : BitVec 32) : Prop :=
  opc w = 18 ∧ (fn w 4 = 5 ∨ fn w 4 = 14 ∨ (fn w 4 ≤ 3 ∧ 256 ≤ w.toNat / 16 % 4096))

/-- Control transfers (R75): the branches, JMP, CALL, RET, CALLR, JMPR, LEXIT, LOOP, LOOPI and RETT, and the words of
major 0x23 (R143). -/
def transferWord (w : BitVec 32) : Prop :=
  opc w = 12 ∨ opc w = 13 ∨ opc w = 14 ∨ (opc w = 15 ∧ fn w 4 ≤ 3) ∨ opc w = 16 ∨ opc w = 17 ∨ opc w = 35 ∨
    (opc w = 18 ∧ fn w 4 = 5)

/-- The word reads a v register through va (R43, R48). -/
def takesVa (w : BitVec 32) : Prop :=
  opc w ∈ [24, 26, 28, 30, 31, 32] ∨ (opc w = 25 ∧ fn w 5 ≠ 12) ∨ (opc w = 33 ∧ fn w 5 ≠ 3)

/-- The word reads a v register through its second vector field (R43, R48). -/
def takesVb (w : BitVec 32) : Prop :=
  opc w = 24 ∨ (opc w = 28 ∧ (fn w 4 ≤ 3 ∨ 10 ≤ fn w 4)) ∨ (opc w = 31 ∧ fn w 5 = 6) ∨
    (opc w = 32 ∧ (fn w 5 ≤ 5 ∨ fn w 5 = 13)) ∨ (opc w = 33 ∧ fn w 5 = 2)

/-- A word that PFX's pending fields may be lent to (R48). -/
def takesPfx (x : Pfx) (w : BitVec 32) : Prop :=
  opc w ∈ [24, 25, 26, 27, 28, 30, 31, 32, 33] ∧ ¬(opc w = 33 ∧ fn w 5 = 3) ∧
    (x.ce = true → opc w ≠ 28 ∧ opc w ≠ 30) ∧ (x.lua = true → takesVa w) ∧ (x.lub = true → takesVb w)

/-- The PC stands at the end of the innermost body of the call level (R74, R75). -/
def atEnd (t : Thread) : Prop := ∃ x r, t.loops = x :: r ∧ x.lvl = t.clvl ∧ x.fin = t.pc

/-- LOOP or LOOPI, with an end beyond that of the innermost body of the call level (R73). -/
def endsBeyond (t : Thread) (w : BitVec 32) : Prop :=
  (opc w = 16 ∨ opc w = 17) ∧ ∃ x r, t.loops = x :: r ∧ x.lvl = t.clvl ∧
    x.fin.toNat < (t.pc + 4 + 4 * BitVec.ofNat 64 (fn w 16)).toNat

/-- What the checks of R38 before the operands say of a word in a state. -/
def ChecksSay (w : BitVec 32) (s : State) : Prop :=
  let wrong := (s.who = .a ∧ executeOnly w) ∨ (s.who = .e ∧ accessOnly w)
  let denied := s.thr.super = false ∧ privWord w
  let illPfx := (s.who ≠ .a ∧ s.est.pfx.pend = true ∧ ¬takesPfx s.est.pfx w) ∨ (atEnd s.thr ∧ opc w = 40)
  let illEnd := (atEnd s.thr ∧ transferWord w) ∨ endsBeyond s.thr w
  (wrong → gate w s = some .ill) ∧
  (¬wrong → denied → gate w s = some .priv) ∧
  (¬wrong → ¬denied → illPfx → gate w s = some .illPfx) ∧
  (¬wrong → ¬denied → ¬illPfx → illEnd → gate w s = some .illLoopend) ∧
  (¬wrong → ¬denied → ¬illPfx → ¬illEnd → gate w s = none)

/-- A CSR form whose number makes it ILL (R24, R37). -/
def csrFails (i : Instr) (s : State) : Bool :=
  match i with
  | .csrrd _ n => csrIll s n.toNat 0
  | .csrwr _ n => csrIll s n.toNat 1
  | .csrset _ n => csrIll s n.toNat 2
  | .csrclr _ n => csrIll s n.toNat 3
  | _ => false

/-- The first empty source of an instruction, read through a field with mode bit 1, raises REG_EMPTY; read through one with 0 it
makes the instruction wait, and in a wait that has reached WAITTIMEOUT raise WAIT_TIMEOUT (R17, R19, R42). -/
def Empties (i : Instr) (srcs : List (BitVec 5 × BitVec 1)) (s : State) : Prop :=
  s.core.resident = true → gate (encode i) s = none →
  ∀ pre r m post, srcs = pre ++ (r, m) :: post → (∀ x ∈ pre, s.thr.isFull x.1 = true) → s.thr.isFull r = false →
    let late := s.takeTrap .waitTimeout (word (8 * r.toNat)) s.thr.pc
    (s.thr.wait = none →
      (m = 1 → exec i s = .next (s.takeTrap .regEmpty (word r.toNat) s.thr.pc)) ∧
      (m = 0 → s.hart.waittimeout ≠ 0 → exec i s = .next (s.setThr { s.thr with
        wait := some { kind := .reg, num := word r.toNat, since := s.gts, bound := s.hart.waittimeout.toNat } })) ∧
      (m = 0 → s.hart.waittimeout = 0 → exec i s = .next late)) ∧
    (m = 0 → ∀ w, s.thr.wait = some w → w.kind = .reg → w.num = word r.toNat → w.holds = [] →
      exec i s = .next (if w.since + w.bound * 1000 ≤ s.gts then late else s))

/-! ## The fields of the CSRs (R27, R98, R276) -/

/-- A field of a CSR: its number, its lowest bit, its width, where the state holds it, and for a RW or W1C field what it holds after a
write, from its old value and the bits written. -/
structure CsrField where
  num : Nat
  lo : Nat
  width : Nat
  get : State → Nat
  put : Option (Nat → Nat → Nat)

/-- A field that only the hardware changes. -/
def csrRo (num lo width : Nat) (get : State → Nat) : CsrField := ⟨num, lo, width, get, none⟩

/-- A field that takes what is written. -/
def csrRw (num lo width : Nat) (get : State → Nat) : CsrField := ⟨num, lo, width, get, some (fun _ v => v)⟩

/-- A field that takes what is written only within limits. -/
def csrIf (num lo width : Nat) (ok : Nat → Prop) [DecidablePred ok] (get : State → Nat) : CsrField :=
  ⟨num, lo, width, get, some (fun old v => if ok v then v else old)⟩

/-- The fields of the CSRs but MODE, BANKROLE and CLKPAT (R27, R98). -/
def csrFields : List CsrField :=
  [csrRo 0x000 0 15 (fun s => s.est.vl), csrRo 0x001 0 15 (fun s => vlmaxOf s.hart s.who),
   csrRo 0x002 0 15 (fun s => (s.die s.loc.die).gvl),
   csrRw 0x003 15 1 (fun s => s.est.ew.toNat / 32768), csrRw 0x003 14 1 (fun s => s.est.ew.toNat / 16384 % 2),
   csrRw 0x003 13 1 (fun s => s.est.ew.toNat / 8192 % 2), csrRw 0x003 8 5 (fun s => s.est.wd - 1),
   csrRw 0x003 4 4 (fun s => s.est.wb - 1), csrRw 0x003 0 4 (fun s => s.est.wa - 1),
   csrRw 0x004 16 12 (fun s => s.est.esel.toNat), csrIf 0x004 8 4 (· ≤ 10) (fun s => s.est.fd),
   csrIf 0x004 4 4 (· ≤ 10) (fun s => s.est.fb), csrIf 0x004 0 4 (· ≤ 10) (fun s => s.est.fa),
   csrRw 0x005 0 15 (fun s => s.est.vstart.toNat), csrRw 0x006 0 64 (fun s => s.est.vrstate.toNat),
   csrRo 0x007 0 5 (fun s => s.est.msdepth),
   csrRw 0x008 16 1 (fun s => s.est.pfx.pend.toNat), csrRw 0x008 10 6 (fun s => s.est.pfx.pm.toNat),
   csrRw 0x008 9 1 (fun s => s.est.pfx.inv.toNat), csrRw 0x008 4 5 (fun s => s.est.pfx.vc.toNat),
   csrRw 0x008 3 1 (fun s => s.est.pfx.ce.toNat), csrRw 0x008 2 1 (fun s => s.est.pfx.pe.toNat),
   csrRw 0x008 1 1 (fun s => s.est.pfx.lua.toNat), csrRw 0x008 0 1 (fun s => s.est.pfx.lub.toNat),
   csrRw 0x009 0 15 (fun s => s.est.ccnt.toNat), csrRw 0x00A 1 5 (fun s => s.est.seamctl.toNat / 2),
   csrRw 0x00A 0 1 (fun s => s.est.seamctl.toNat % 2), csrRw 0x00B 0 2 (fun s => s.est.sampstat.toNat),
   csrRw 0x00C 8 4 (fun s => s.est.esel.toNat / 256), csrRw 0x00C 4 4 (fun s => s.est.esel.toNat / 16 % 16),
   csrRw 0x00C 0 4 (fun s => s.est.esel.toNat % 16),
   csrIf 0x00D 10 9 (fun v => 1 ≤ v ∧ v ≤ 256) (fun s => s.est.tilecols),
   csrIf 0x00D 0 10 (fun v => 1 ≤ v ∧ v ≤ 512) (fun s => s.est.tilerows),
   csrRw 0x00E 0 4 (fun s => s.est.fstat.toNat), csrRw 0x00F 0 2 (fun s => s.est.rcls.toNat),
   csrRo 0x010 0 3 (fun s => s.hart.hartid), csrRo 0x011 0 16 (fun s => s.hart.teamid),
   csrRo 0x012 0 4 (fun s => s.hart.teamsize), csrRo 0x013 0 10 (fun s => s.clCount),
   csrRo 0x014 0 12 (fun s => s.hart.corelid),
   csrRo 0x015 0 4 (fun s => match s.who with | .mt k => k.val | _ => 0),
   csrRo 0x020 0 64 (fun s => s.gts), csrRo 0x021 0 64 (fun s => s.hart.cycles),
   csrRw 0x031 0 32 (fun s => s.hart.fetimeout.toNat), csrRw 0x032 0 32 (fun s => s.hart.vtimeout.toNat),
   csrRw 0x033 0 32 (fun s => s.hart.waittimeout.toNat),
   ⟨0x034, 0, 32, fun s => s.hart.predeadline.toNat, some (fun _ v => min 1000 v)⟩,
   csrRw 0x100 0 8 (fun s => s.thr.tcause.toNat), csrRw 0x101 0 64 (fun s => s.thr.tval.toNat),
   csrRw 0x102 2 55 (fun s => s.thr.tpc.toNat / 4 % 2 ^ 55),
   csrRw 0x103 63 1 (fun s => (s.hart.tvecOf s.who).toNat / 2 ^ 63),
   csrRw 0x103 2 55 (fun s => (s.hart.tvecOf s.who).toNat / 4 % 2 ^ 55),
   csrRo 0x104 8 4 (fun s => s.thr.tmt.toNat), csrRw 0x104 3 1 (fun s => s.thr.busy.toNat),
   csrRo 0x104 2 1 (fun s => s.thr.super.toNat), csrRw 0x104 1 1 (fun s => s.thr.pfxp.toNat),
   csrRw 0x104 0 1 (fun s => s.thr.plvl.toNat), csrRw 0x105 0 64 (fun s => s.thr.tkeep.toNat),
   csrRw 0x106 16 36 (fun s => s.hart.ctxbase / 65536), csrRo 0x107 16 3 (fun s => s.loc.die),
   csrRo 0x107 9 7 (fun s => s.loc.cluster), csrRo 0x107 0 3 (fun s => s.loc.core)]

/-- The CSRs that belong to E's side (R25). -/
def csrOfE : List Nat := [0, 1, 3, 4, 5, 6, 7, 8, 9, 10, 11, 12, 13, 14, 15, 0x15]

/-- The CSR numbers that are assigned. -/
def csrNums : List Nat := csrFields.map (·.num) ++ [0x030, 0x108, 0x109]

/-- The fields of a CSR hold values of their widths. -/
def csrFits (s : State) (n : Nat) : Prop := ∀ f ∈ csrFields, f.num = n → f.get s < 2 ^ f.width

/-- A field of ESEL, which FMT names too (R27). -/
def eselField (f : CsrField) : Prop := f.num = 0x00C ∨ (f.num = 0x004 ∧ f.lo = 16)

end Sys2Proof.Claims

namespace Sys2Proof.Claims

open Sys2Proof.Machine

/-! ## Tile tasks (R266, R269, R270) -/

/-- A record that is in an event queue since now. -/
def posted (s : State) (r : EvRec) : EvItem := { record := r, arrived := s.gts, settled := false }

/-- The TILE_DONE record of a slot that ends (R247, R270). -/
def tileDone (s : State) (d c n status w : Nat) (a : Word) : EvRec :=
  { typ := 3, flags := 0, source := BitVec.ofNat 16 (0x1000 * d + 0x400 + c), seq := 0, gts := s.gts
    p0 := word (n + 64 * (s.slot d c n).gen + status * 2 ^ 16 + w * 2 ^ 32), p1 := a &&& 0x01FF_FFFF_FFFF_FFFF#64 }

/-- A task ends with a status: its slot is FREE with the next generation, no slot but it changes, its rows and pinned lines are given
up, its completion version waits no longer, and TILE_DONE is in the queue of the enqueuing hart, or held for it (R105, R267, R269,
R270). -/
def TaskEnds (s : State) (d c n status : Nat) (a : Word) : Prop :=
  let t := s.slot d c n
  let u := s.endTask d c n status a
  (d < 8 → c < 66 → n < 64 → u.slot d c n = { gen := if t.gen % 1024 = 1023 then 1 else t.gen % 1024 + 1 }) ∧
  (∀ d' c' n', ¬(d' = d ∧ c' = c ∧ n' = n) → u.slot d' c' n' = s.slot d' c' n') ∧
  (t.state = .running ∨ t.state = .hold ∨ t.state = .drain →
    (∀ p ∈ t.parts, (u.getCore ⟨d, c, p.core⟩).hart.ex.tile = []) ∧
    ∀ (x : Fin 8) (p : OpPin), p ∈ u.dies[x].opPins ↔ p ∈ s.dies[x].opPins ∧ ¬(p.die = d ∧ p.cluster = c ∧ p.slot = n)) ∧
  (∀ m, m ∈ u.making ↔ m ∈ s.making ∧ m.maker ≠ .tile d c n) ∧ u.mem = s.mem ∧
  ∀ w, (t.parts = [] → w = 0) → (∀ p ∈ t.parts, w ≤ p.committed) → (t.parts ≠ [] → ∃ p ∈ t.parts, p.committed = w) →
    ∀ x, assocFind s.teams t.team = some x →
      (∀ k, x.state = .running ∨ x.state = .parking → x.cores[t.hart]? = some k →
        (s.getCore ⟨x.die, x.cluster, k⟩).hart.evq.length < 256 →
        (u.getCore ⟨x.die, x.cluster, k⟩).hart.evq =
          (s.getCore ⟨x.die, x.cluster, k⟩).hart.evq ++ [posted s (tileDone s d c n status w a)]) ∧
      (∀ h, x.state = .saved → x.saved[t.hart]? = some h → ∃ y, assocFind u.teams t.team = some y ∧
        ∃ g, y.saved[t.hart]? = some g ∧ g.evHeld = h.evHeld ++ [tileDone s d c n status w a])

/-- A task in DRAIN whose last window every part has released ends; with a completion version, once every access of the parts' streams
before the final TRELs is performed and the version exists (R269, R270, R339). -/
def TaskDrains (s : State) (d c n : Nat) : Prop :=
  let t := s.slot d c n
  let v := tVers t.record 12
  let quiet := ∀ p ∈ t.parts, ∀ o ∈ p.owed, (s.getCore ⟨d, c, p.core⟩).stillOwes o = false
  let freed := ∀ p ∈ t.parts, p.released = tWindows t.record
  (¬(t.state = .drain ∧ freed) → s.drainTask d c n = s) ∧
  (t.state = .drain → freed →
    (v.1 = false → s.drainTask d c n = s.endTask d c n 0 0) ∧
    (v.1 = true → ¬quiet → s.drainTask d c n = s) ∧
    (v.1 = true → quiet →
      (s.regionOf t.ctx v.2.1 = none → s.drainTask d c n = s.endTask d c n 2 0) ∧
      ∀ r, s.regionOf t.ctx v.2.1 = some r → s.madeBy (.tile d c n) = none → (∀ m ∈ s.making, m.maker ≠ .tile d c n) →
        let x := r.word v.2.1
        (verGone (r.floorAt v.2.1) x v.2.2 = true → s.drainTask d c n = s.endTask d c n 2 0) ∧
        (verGone (r.floorAt v.2.1) x v.2.2 = false →
          (x.find v.2.2 ≠ none → s.drainTask d c n = s.endTask d c n 6 0) ∧
          (x.find v.2.2 = none →
            (x.live.length ≤ r.depth → s.entryFree (versHome v.2.1) = true → s.drainTask d c n =
              (s.setRegion (r.setWord { x with live := x.live ++ [(v.2.2, dw t.record 14)] })).wakeVers.endTask d c n 0 0) ∧
            (¬(x.live.length ≤ r.depth ∧ s.entryFree (versHome v.2.1) = true) →
              (s.drainTask d c n).slot d c n = t ∧ ∃ m ∈ (s.drainTask d c n).making, m.maker = .tile d c n)))))

/-- The window in progress enters the registers of part `q` once the part has released the one before, while its hart is on its core, E is
not split and MODE.DS is 0: PREG at width 32 and XREG at width 8, signed, every lane written, 0 where no element of the tile lies; the
part has committed one window more, and TILE_WINDOW is posted if EVW is 1 (R269, R270). -/
def PartCommits (s : State) (d c n q : Nat) : Prop :=
  let t := s.slot d c n
  ∀ p, t.parts[q]? = some p →
    let id : CoreId := ⟨d, c, p.core⟩
    let h := (s.getCore id).hart
    let may := p.committed = t.window ∧ p.released = t.window ∧ (s.getCore id).resident = true ∧ h.split = 0 ∧ h.ds = false
    let u := s.commitPart d c n q
    (¬may → u = s) ∧
    (may → d < 8 → c < 66 → n < 64 → tPreg t.record ≠ tXreg t.record → (h.ex.freshRows 40).length = 40 →
      let g := (u.getCore id).hart
      let holds := fun (r : BitVec 5) (w : Nat) (vs : List (Nat × Nat)) =>
        (g.ex.vreg r).planes.length = w ∧ (g.ex.vreg r).sd = true ∧ (g.ex.vreg r).merged = false ∧
          (∀ v ∈ vs, rawAt v.1 (g.ex.vreg r).planes = v.2) ∧
          ∀ l, l ∉ vs.map (·.1) → rawAt l (g.ex.vreg r).planes = 0
      let wrap := (t.lanes q).any (fun v => v.2.2.2)
      holds (tPreg t.record) 32 ((t.lanes q).map (fun v => (v.1, v.2.1.toNat))) ∧
      holds (tXreg t.record) 8 ((t.lanes q).map (fun v => (v.1, v.2.2.1.toNat))) ∧
      (∀ r, r ≠ tPreg t.record → r ≠ tXreg t.record → g.ex.vreg r = h.ex.vreg r) ∧
      u.slot d c n = { t with parts := t.parts.set q { p with committed := p.committed + 1, wrap := wrap } } ∧
      u.mem = s.mem ∧
      (bit (dw t.record 0) 42 = false → g.evq = h.evq) ∧
      (bit (dw t.record 0) 42 = true → h.evq.length < 256 → g.evq = h.evq ++ [posted s
        { typ := 2, flags := 0, source := BitVec.ofNat 16 (0x1000 * d + 0x400 + c), seq := 0, gts := s.gts
          p0 := word (n + 64 * t.gen + q * 2 ^ 16 + t.window * 2 ^ 32)
          p1 := word ((if wrap then 1 else 0) + if t.window + 1 = tWindows t.record then 2 else 0) }]))

/-- Once a k-step has been broadcast, the slot keeps the parts of the lines that a later k-step uses, and pins those lines alone; the
pins of the other slots, the memory and the cores stay (R266). -/
def Broadcasts (s : State) (d c n k : Nat) (t : TileSlot) : Prop :=
  ∃ u x, s.broadcast d c n k t = (u, x) ∧
    x = { t with fetched := x.fetched, starved := false } ∧ (∀ f, f ∈ x.fetched ↔ f ∈ t.fetched ∧ k < t.lineUse f.1) ∧
    (∀ (i : Fin 8) (p : OpPin), p ∈ u.dies[i].opPins ↔ p ∈ s.dies[i].opPins ∧
      (p.die = d → p.cluster = c → p.slot = n → ∃ f ∈ t.fetched, k < t.lineUse f.1 ∧ f.2.1 = p.line)) ∧
    u.mem = s.mem ∧ u.core = s.core ∧ u.others = s.others

/-! ## Teams (R104, R105, R366-R368, R370) -/

/-- Areas of memory (address, length) that do not meet. -/
def Apart (l : List (Nat × Nat)) : Prop := l.Pairwise (fun a b => a.1 + a.2 ≤ b.1 ∨ b.1 + b.2 ≤ a.1)

/-- What the image of a hart takes lies within its area (R104). -/
def Tame (h : Hart) : Prop :=
  h.split ≤ 16 ∧ (∀ e : Fin 16, h.scales[e].length = 512) ∧ h.a.rets.length ≤ 1040 ∧ h.e.rets.length ≤ 1040 ∧
    ∀ m ∈ h.mts, m.thr.rets.length ≤ 1040

/-- A saved team: each part is off its core, whose hart the Drover keeps; CTXBASE of each holds what R104 lays out of the scratchpad,
the pool, the predicates, the mask stack, the slice, the scale registers and the seam mask, lane i at bit i; the slots of the team are
free and the Drover keeps them; the team is SAVED, or failed where its context has failed (R104, R269, R370). -/
def TeamSaved (s : State) (tid : Nat) (t : Team) : Prop :=
  let u := s.saveTeam tid t
  (∀ k ∈ t.ids, (u.getCore k).resident = false ∧ (u.getCore k).hart = {}) ∧
  (∃ x, assocFind u.teams tid = some x ∧ x.state = (if t.failing then .failed else .saved) ∧ x.parkedAt = s.gts ∧
    x.slots = s.teamSlots tid t ∧ x.saved.length = t.ids.length ∧
    ∀ (i : Nat) k h, t.ids[i]? = some k → x.saved[i]? = some h →
      let g := (s.getCore k).hart
      h.ctxbase = g.ctxbase ∧ h.corelid = g.corelid ∧ h.teamid = g.teamid ∧ h.hartid = g.hartid ∧ h.a.pc = g.a.pc ∧
        h.e.pc = g.e.pc ∧ h.ex = g.ex ∧ h.evHeld = g.evHeld ∧ h.park = none ∧ ∀ n : Fin 16, h.spools[n].buf = []) ∧
  (t.die < 8 → t.cluster < 66 → ∀ n, n < 64 → u.slot t.die t.cluster n =
    (let y := s.slot t.die t.cluster n
     if y.state ≠ .free ∧ y.team = tid then { gen := if y.gen % 1024 = 1023 then 1 else y.gen % 1024 + 1 } else y)) ∧
  ((∀ k ∈ t.ids, Tame (s.getCore k).hart) → Apart (t.ids.map (fun k => ((s.getCore k).hart.ctxbase, 0x21_C000)) ++
      (s.teamSlots tid t).map (fun y => ((t.areas.getLastD (0, 0)).1 + 2048 * y.1, 2048))) →
    ∀ k ∈ t.ids,
      let h := (s.getCore k).hart
      let rowIs := fun (at' : Nat) (p : Plane) => ∀ l, l < 16384 →
        (memGet u.mem (h.ctxbase + at' + l / 8)).getLsbD (l % 8) = p.getLsbD l
      (∀ o, o < 0x1_8000 → memGet u.mem (h.ctxbase + 0x1_4000 + o) = memGet h.spad o) ∧
      (∀ r, r < 640 → rowIs (0x3_4000 + 2048 * r) (h.poolRow r)) ∧
      (∀ p : Fin 64, p ≠ 0 → rowIs (0x17_4000 + 2048 * p.val) h.preds[p]) ∧
      (∀ r : Fin 256, rowIs (0x19_C000 + 2048 * r.val) h.slice[r]) ∧ rowIs 0x0_8000 h.seam ∧
      ∀ (e : Fin 16) (i : Nat), i < 512 → some (memGet u.mem (h.ctxbase + 0x0_6000 + 512 * e.val + i)) = h.scales[e][i]?) ∧
  ∀ x, (∀ k ∈ t.ids, Tame (s.getCore k).hart) → (∀ k ∈ t.ids, let b := (s.getCore k).hart.ctxbase; x < b ∨ b + 0x21_C000 ≤ x) →
    (∀ y ∈ s.teamSlots tid t, let b := (t.areas.getLastD (0, 0)).1 + 2048 * y.1; x < b ∨ b + 2048 ≤ x) →
    memGet u.mem x = memGet s.mem x

/-- A restored team: its parts are on the lowest free cores of the cluster with their logical numbers, each at its saved PC and with
what its save area holds of its scratchpad, predicates, mask stack and slice; its tasks are back in their slots, a parked one READY; then
withdrawn group posts are sent again and iterations go on (R105, R269, R366, R401). -/
def TeamRestored (s : State) (tid : Nat) (t : Team) (d c : Nat) : Prop :=
  let cores := (s.freeCores d c).take t.cores.length
  cores.length = t.saved.length → cores.Nodup → ∃ u : State,
    s.restoreTeam tid t d c =
      ((bellGroups t.saved).foldl (fun v g => match v.group g with | some x => v.bwRepost x v.gts | none => v) u).goOn tid ∧
    u.mem = s.mem ∧
    (∃ x, assocFind u.teams tid = some x ∧ x.state = .running ∧ x.die = d ∧ x.cluster = c ∧ x.cores = cores ∧ x.saved = [] ∧
      x.slots = [] ∧ x.teamid = t.teamid ∧ x.areas = t.areas) ∧
    (∀ (i : Nat) k h, cores[i]? = some k → t.saved[i]? = some h →
      let g := (u.getCore ⟨d, c, k⟩).hart
      (u.getCore ⟨d, c, k⟩).resident = true ∧ g.corelid = h.corelid ∧ g.teamid = h.teamid ∧ g.hartid = h.hartid ∧
        g.ctxbase = h.ctxbase ∧ g.a.pc = h.a.pc ∧ g.e.pc = h.e.pc ∧ g.a.g = h.a.g ∧ g.e.g = h.e.g ∧ g.a.fills = h.a.fills ∧
        g.park = none ∧ (h.a.run = .parked → g.a.run = .running) ∧ (h.e.run = .parked → g.e.run = .running) ∧
        (∀ o, o < 0x1_8000 → memGet g.spad o = memGet s.mem (h.ctxbase + 0x1_4000 + o)) ∧
        (∀ (p : Fin 64) l, p ≠ 0 → l < 16384 →
          g.preds[p].getLsbD l = (memGet s.mem (h.ctxbase + 0x17_4000 + 2048 * p.val + l / 8)).getLsbD (l % 8)) ∧
        ∀ (j : Fin 24) l, l < 16384 → g.levels[j].getLsbD l =
          (memGet s.mem (h.ctxbase + (if j.val < 16 then 0x19_4000 + 2048 * j.val else 0x3_0000 + 2048 * (j.val - 16)) + l / 8)).getLsbD
            (l % 8)) ∧
    (d < 8 → c < 66 → (t.slots.map (·.1)).Nodup → ∀ x ∈ t.slots, x.1 < 64 →
      let y := u.slot d c x.1
      y.state ≠ .parked ∧ y.team = x.2.team ∧ y.hart = x.2.hart ∧
        y.record = (List.range 16).map (fun i => word (ofBytes (memRead s.mem ((t.areas.getLastD (0, 0)).1 + 2048 * x.1 + 8 * i) 8))))

/-- A new team of a launch: its parts are on the lowest free cores of the cluster, with HARTIDs from 0, the next TEAMID of the launch,
the lowest logical core numbers that the context does not use, and TVEC of the context; its areas are taken from the save pool; then free
harts take iterations (R354, R366, R367). -/
def TeamPlaced (s : State) (id : Nat) (l : Launch) (d c : Nat) (areas : List (Nat × Nat)) : Prop :=
  let cores := (s.freeCores d c).take l.teamSize
  cores.length = l.teamSize → cores.Nodup → assocFind s.teams (s.nextId + 1) = none → ∃ (u : State) (lids : List Nat),
    s.placeTeam id l d c areas = u.handOut id (u.farm id) ∧ u.mem = s.mem ∧ u.nextId = s.nextId + 1 ∧
    (∃ x, assocFind u.teams (s.nextId + 1) = some x ∧ x.state = .running ∧ x.launch = id ∧ x.ctx = l.ctx ∧ x.teamid = l.nextTeam ∧
      x.die = d ∧ x.cluster = c ∧ x.cores = cores ∧ x.areas = areas) ∧
    (∃ m, assocFind u.launches id = some m ∧ m = { l with placed := true, nextTeam := l.nextTeam + 1, readySince := some s.gts }) ∧
    (∀ x ∈ s.ctxs, x.num = l.ctx → { x with pool := x.pool ++ areas } ∈ u.ctxs) ∧
    lids.length = l.teamSize ∧ lids.Pairwise (· < ·) ∧ (∀ n ∈ lids, n ∉ s.corelids l.ctx) ∧
    (∀ n ∈ lids, ∀ m, m < n → m ∉ lids → m ∈ s.corelids l.ctx) ∧
    ∀ (i : Nat) k, cores[i]? = some k →
      let g := (u.getCore ⟨d, c, k⟩).hart
      (u.getCore ⟨d, c, k⟩).resident = true ∧ g.team = s.nextId + 1 ∧ g.ctx = l.ctx ∧ g.hartid = i ∧ g.teamid = l.nextTeam ∧
        g.teamsize = l.teamSize ∧ some g.corelid = lids[i]? ∧ g.ctxbase = (areas.getD (2 * i) (0, 0)).1 ∧
        g.backing = (areas.getD (2 * i + 1) (0, 0)).1 ∧ g.inIter = false ∧ g.iters = [] ∧ g.split = 0 ∧
        (∀ x, s.ctxs.find? (fun y => decide (y.num = l.ctx)) = some x →
          g.a.tvec = dw x.desc 5 &&& 0x81FF_FFFF_FFFF_FFFC#64 ∧ g.e.tvec = g.a.tvec)

/-- A command completes with a status: its completion word, the tag below the status, is stored at the address of its record if it has
one and that can be written, and the command is gone; behind a line that an engine owns or a page that migrates the word is due (R298,
R315, R360). -/
def Completes (s : State) (k : Cmd) (status : Nat) : Prop :=
  let u := s.complete k status
  let s1 := { s with cmds := s.cmds.filter (fun x => decide (x.order ≠ k.order))
                     making := s.making.filter (fun x => decide (x.maker ≠ .command k.order)) }
  let a := addr57 (dw k.record 7 &&& ~~~7#64)
  (cCw k.record = false → u = s1) ∧
  (cCw k.record = true →
    (∀ pa tlb s2, drvXlate s1 none k.ctx .write a = .ok pa tlb s2 → s2.owned none (.phys pa) = false →
      memRead u.mem pa 8 = bytesOf 8 (field (dw k.record 0) 32 32 + status * 2 ^ 32) ∧ u.cmds = s2.cmds ∧
        ∀ x, (x < pa ∨ pa + 8 ≤ x) → memGet u.mem x = memGet s2.mem x) ∧
    (∀ e s2, drvXlate s1 none k.ctx .write a = .fail e s2 → u = s2) ∧
    (∀ pa tlb s2, drvXlate s1 none k.ctx .write a = .ok pa tlb s2 → s2.owned none (.phys pa) = true →
      u = { s1 with cmds := s1.cmds ++ [{ k with started := true, ended := some status }] }) ∧
    (∀ s2, drvXlate s1 none k.ctx .write a = .stall s2 →
      u = { s1 with cmds := s1.cmds ++ [{ k with started := true, ended := some status }] }))

/-- A launch ends: it is complete, its completion version waits no longer, and its command completes with the status (R339, R368). -/
def LaunchEnds (s : State) (n : Nat) (l : Launch) (status : Nat) : Prop :=
  ∃ v : State, assocFind v.launches n = some { l with state := .complete } ∧
    (∀ m, m ≠ n → assocFind v.launches m = assocFind s.launches m) ∧
    (∀ m, m ∈ v.making ↔ m ∈ s.making ∧ m.maker ≠ .launch n) ∧
    v = { s with launches := v.launches, making := v.making } ∧
    s.endLaunch n l status = v.complete { order := l.order, q := l.q, ctx := l.ctx, record := l.record } status

end Sys2Proof.Claims

namespace Sys2Proof.Claims

open Sys2Proof.Machine

/-! ## Recording instructions that stop and go on (R137, R138, R175, R176) -/

/-- An instruction that goes on at element `start`, or begins at 0, can read its source from there on: a register, or a read spool with
the rest of its strip present, no element of it marked faulted, of which earlier runs have passed the elements before; and the lanes have
nothing to report (R111, R175, R237, R238). -/
def StartsAt (s : State) (a : BitVec 5) (x : VSrc) (start : Nat) : Prop :=
  start = s.est.vstart.toNat / 1024 * 1024 ∧ CleanLanes s ∧
  ((start = 0 ∧ Source s (some a) x) ∨
   (0 < start ∧ aliasOf s.hart s.who a = none ∧ x = { planes := (s.est.vreg a).planes }) ∨
   (0 < start ∧ ∃ n, ∃ es : List Nat, aliasOf s.hart s.who a = some n ∧ (s.hart.spool n).isWrite = false ∧
      (s.hart.spool n).buf.take (s.est.vl - start) = es.map SpEl.data ∧ es.length = s.est.vl - start ∧
      (s.hart.spool n).past.length = start ∧
      x = { planes := stripPlanes (laneBase s.hart s.who) (s.hart.spool n).width 0 ((s.hart.spool n).past ++ es.map SpEl.data)
            sign := some (s.hart.spool n).sign, spool := some n }))

/-- The sub-strip at which a forced pre-emption that lands on element `n` stops an instruction that began at `start`, if that is before
VL (R103, R175). -/
def cutsAt (s : State) (start : Nat) : Option Nat :=
  match s.thr.cut with
  | none => none
  | some n => if 1024 * max (start / 1024) (n / 1024) < s.est.vl then some (max (start / 1024) (n / 1024)) else none

/-- The first element of the row of an element (R163). -/
def rowFirst (s : State) (e : Nat) : Nat := ((List.range s.est.vl).find? (sameRow s e)).getD 0

/-- The running state of an instruction, and how VRSTATE holds it (R175): the state at the start of a row, the state after some active
elements of the row, what a row gives at the end (by its state, its first element and its active elements), the scalars, the scalars when
no element of the row is active, and the states that VRSTATE may hold. -/
structure Running (α : Type) where
  enc : α → Word
  first : α
  step : α → List Nat → α
  row : α → Nat → List Nat → Nat := fun _ _ _ => 0
  out : α → List Word := fun _ => []
  none : List Word := []
  ok : α → Prop := fun _ => True

/-- The running state of the row of element `e` after its active elements below `n`, when the instruction began at `start` with the
state `r0` (R137, R138, R175). -/
def runTo {α : Type} (s : State) (i : VIn) (R : Running α) (start : Nat) (r0 : α) (e n : Nat) : α :=
  R.step (if start ≤ rowFirst s e then R.first else r0)
    ((rowActs s i e).filter (fun k => decide (start ≤ k) && decide (k < n)))

/-- The per-row register's planes, committed or pending, once the rows that end from `start` up to `n` have their results; those that
earlier runs wrote are as the pending destination had them (R169, R176). -/
def RowPlanes {α : Type} (s : State) (i : VIn) (R : Running α) (start n : Nat) (r0 : α) (ps : List Plane) (wd : Nat) : Prop :=
  let base := laneBase s.hart s.who
  (∀ e ∈ lastOnes s, start ≤ e → e < n →
    rawAt (base + e) ps = R.row (runTo s i R start r0 e s.est.vl) (rowFirst s e) (rowActs s i e)) ∧
  ∀ q, s.est.pending = some q → q.perRow.length = wd → ∀ e, e < start → e < s.est.vl →
    rawAt (base + e) ps = rawAt (base + e) q.perRow

/-- A reduction that begins at element 0 or goes on at VSTART with the running state of VRSTATE, over an integer or float destination of
`wd` bits: uncut, it completes with the same scalars and rows as if it had never stopped; cut by a forced pre-emption at a sub-strip, it
stands there with the running state of the row in progress, no scalar written, and its thread is parked (R103, R137, R138, R169, R175,
R176). -/
def GoesOn {α : Type} (ins : Instr) (ds : List (BitVec 5)) (a b : BitVec 5) (p : BitVec 6) (s : State) (wd : Nat)
    (mk : VIn → Running α) : Prop :=
  Ready ins [b] s → Free ds s → s.thr.fillRoom = true → laneBase s.hart s.who + s.est.vl ≤ primaryLanes s →
  ∀ x start r0, StartsAt s a x start →
    let i := recIn s x none p
    let R := mk i
    (0 < start → s.est.vrstate = R.enc r0 ∧ R.ok r0) →
    let vrow := BitVec.ofNat 5 (s.est.seamctl.toNat / 2)
    (cutsAt s start = none → ∃ t : State, exec ins s = .next (done t) ∧
      t.thr = filling s ds (if rowActs s i (s.est.vl - 1) = [] then R.none
        else R.out (runTo s i R start r0 (s.est.vl - 1) s.est.vl)) ∧
      RestKept s t a ∧ (rowsOn s = true → s.est.vl ≠ 0 → RowPlanes s i R start s.est.vl r0 (t.est.vreg vrow).planes wd)) ∧
    (∀ c, cutsAt s start = some c → ∃ (u : State) (fl : BitVec 4) (ps : List Plane),
      exec ins s = .next (u.setThr { s.thr with run := .parked, cut := none, wait := none }) ∧
      StandsAt s i start (1024 * c) (R.enc (runTo s i R start r0 (1024 * c) (1024 * c))) fl
        (if rowsOn s = true then some (vrow, [], ps) else none) u ∧
      (rowsOn s = true → RowPlanes s i R start (1024 * c) r0 ps wd))

/-- The seed's bits at a width (R166-R168). -/
def seedBits (s : State) (b : BitVec 5) (w : Nat) : Nat := ((s.thr.reg b).setWidth w).toNat

/-- The running value of VREDSUM, VREDAND and VREDOR: WD bits (R138, R175). -/
def sumRun (f : EState → Int → List Int → Nat) (s : State) (b : BitVec 5) (i : VIn) : Running Nat where
  enc v := word v
  first := seedBits s b s.est.wd
  step v js := f s.est v (js.map (valA s.est i))
  row v _ _ := v
  out v := [extended s.est v]
  none := [s.thr.reg b]
  ok v := v < 2 ^ s.est.wd

/-- The value of a running best: the seed's WD bits, or an element's WA bits (R175). -/
def bestOf (x : EState) (r : Bool × Nat) : Int := if r.1 = true then intVal x.wd x.sd r.2 else intVal x.wa x.sa r.2

/-- As `bestOf` for floats: the seed in format D, an element in format A (R175). -/
def bestFloat (x : EState) (r : Bool × Nat) : Machine.Num := if r.1 = true then numInD x r.2 else numOf x.fa x.wa x.sa r.2

/-- A running best as VRSTATE holds it: bit 62 for the seed, the index, the bits (R175). -/
def bestEnc (r : Bool × Nat) (idx : Nat) : Word := word ((if r.1 then 2 ^ 62 else 0) + idx * 2 ^ 32 + r.2)

/-- The running value of VREDMIN and VREDMAX (R166, R175). -/
def bestRun (better : Int → Int → Bool) (s : State) (b : BitVec 5) (i : VIn) : Running (Bool × Nat) where
  enc r := bestEnc r 0
  first := (true, seedBits s b s.est.wd)
  step r js := js.foldl (fun r j =>
    if better (valA s.est i j) (bestOf s.est r) then (false, i.rawA s.est.wa s.est.sa j) else r) r
  row r _ _ := (BitVec.ofInt s.est.wd (bestOf s.est r)).toNat
  out r := [extended s.est (BitVec.ofInt s.est.wd (bestOf s.est r)).toNat]
  none := [s.thr.reg b]
  ok r := r.2 < 2 ^ 32

/-- PART of a float sum as VRSTATE holds it (R137). -/
def partEnc : Option Nat → Word
  | none => word (2 ^ 63)
  | some r => word r

/-- The running part of FREDSUM (R136, R137, R168). -/
def fsumRun (s : State) (b : BitVec 5) (i : VIn) : Running (Option Nat) where
  enc := partEnc
  first := some (seedBits s b s.est.fwd)
  step r js := (treeSum s.est i r js).1
  row r _ _ := r.getD 0
  out r := [word (r.getD 0)]
  none := [s.thr.reg b]
  ok r := ∀ v, r = some v → v < 2 ^ s.est.fwd

/-- The running value of FREDMAX (R168, R175). -/
def fmaxRun (s : State) (b : BitVec 5) (i : VIn) : Running (Bool × Nat) where
  enc r := bestEnc r 0
  first := (true, seedBits s b s.est.fwd)
  step r js := js.foldl (fun r j =>
    if numBetter (numA s.est i j) (bestFloat s.est r) then (false, i.rawA s.est.fwa s.est.sa j) else r) r
  row r _ js := if js = [] then r.2 % 2 ^ s.est.fwd else (s.est.toD (bestFloat s.est r)).1
  out r := [word (s.est.toD (bestFloat s.est r)).1]
  none := [s.thr.reg b]
  ok r := r.2 < 2 ^ 32

/-- The running winner of an arg reduction: its index, none while the seed wins, and the bits (R167, R175). -/
def argRun (better : VIn → Nat → Bool × Nat → Bool) (raw : VIn → Nat → Nat) (value : Bool × Nat → Word) (seed : Nat)
    (s : State) (b : BitVec 5) (i : VIn) : Running (Option Nat × Nat) where
  enc r := bestEnc (r.1.isNone, r.2) (r.1.getD 0)
  first := (none, seed)
  step r js := js.foldl (fun r j => if better i j (r.1.isNone, r.2) then (some j, raw i j) else r) r
  row r e _ := match r.1 with | some j => j - e | none => 0xFFFF
  out r := [match r.1 with | some j => word j | none => BitVec.allOnes 64, value (r.1.isNone, r.2)]
  none := [BitVec.allOnes 64, s.thr.reg b]
  ok r := r.2 < 2 ^ 32 ∧ ∀ j, r.1 = some j → j < 2 ^ 15

/-! ## Scans, compaction and expansion that stop and go on -/

/-- As `StripPositions`, for an instruction that began at `start`. -/
def StripsFrom (dst : Option Nat) (start : Nat) : List (List (Nat × Nat)) → State → State → Prop
  | [], s, t => t = s
  | r :: rs, s, t =>
    match dst with
    | none => t = s
    | some n => ∃ s', checkWrites s s.loc n start (r.map (·.1)) = .ok s' ∧ StripsFrom dst start rs s' t

/-- A scan, compaction or expansion that begins at element 0 or goes on at VSTART: `chunk` gives the elements that a sub-strip adds to the
destination, `at'` the running state as VRSTATE holds it before a sub-strip. Uncut, the elements from VSTART on join those of the pending
destination; cut, the instruction stands at the sub-strip and its thread is parked (R103, R137, R170-R172, R175, R176). -/
def ScansOn {α : Type} (ins : Instr) (d a : BitVec 5) (p : BitVec 6) (s : State) (wd : Nat) (enc : α → Word) (ok : α → Prop)
    (bound : α → Nat → Nat) (chunk : VIn → Nat → α → Nat → List (Nat × Nat)) (at' : VIn → Nat → α → Nat → α)
    (fl : BitVec 4 → Prop) (after : VIn → Nat → α → State → State) : Prop :=
  Ready ins [] s → ∀ x dst start r0, StartsAt s a x start → Dest s d dst → (0 < start → s.est.vrstate = enc r0 ∧ ok r0) →
    let i := recIn s x dst p
    let chunks := fun (c : Nat) => ((List.range c).filter (fun c => decide (start / 1024 ≤ c))).map (chunk i start r0)
    let planes := fun (t : State) (c : Nat) => writeElems t.hart i.base
      (destPlanes t i (some a) d wd s.est.sd start (if start = 0 then 0 else bound r0 start)) (chunks c).flatten
    (cutsAt s start = none →
      let n := (s.est.vl + 1023) / 1024
      ∀ t, StripsFrom dst start (chunks n) s t → CleanLanes t → ∃ f, fl f ∧
        let t1 := appended t t i start wd s.est.sd (chunks n).flatten
        let rows := destRows t start wd
        exec ins s = .next (done (after i start r0 (completed
          (commitDest t1 i (some a) d (planes t n) s.est.sd rows (t.est.freshBeside rows wd)) i start f)))) ∧
    (∀ c, cutsAt s start = some c → ∀ t, StripsFrom dst start (chunks c) s t → CleanLanes t → ∃ f u, fl f ∧
      exec ins s = .next (u.setThr { s.thr with run := .parked, cut := none, wait := none }) ∧
      StandsAt (appended t t i start wd s.est.sd (chunks c).flatten) i start (1024 * c) (enc (at' i start r0 c)) f
        (some (d, planes t c, [])) u)

/-- A scan by its running state and its value at an active element: the state of the element's row before the sub-strip, and the row's
active elements of the sub-strip up to it (R170). -/
def RowScans {α : Type} (ins : Instr) (d a : BitVec 5) (p : BitVec 6) (s : State) (wd : Nat) (mk : VIn → Running α)
    (val : VIn → α → List Nat → Nat → Nat) (fl : BitVec 4 → Prop) : Prop :=
  ScansOn ins d a p s wd (mk {}).enc (mk {}).ok (fun _ n => n)
    (fun i start r0 c => (stripActs i c).map (fun j =>
      (j, val i (runTo s i (mk i) start r0 j (1024 * c)) ((stripActs i c).filter (fun k => sameRow s j k && decide (k ≤ j))) j)))
    (fun i start r0 c => runTo s i (mk i) start r0 (1024 * c) (1024 * c)) fl (fun _ _ _ t => t)

/-- The running sum of VSCANSUM (R138, R170). -/
def scanSumRun (s : State) (i : VIn) : Running Nat where
  enc v := word v
  first := 0
  step v js := (BitVec.ofInt s.est.wd (v + (js.map (valA s.est i)).sum)).toNat
  ok v := v < 2 ^ s.est.wd

/-- The running value of VSCANMAX and VSCANMIN: an element's bits, none before the first of a row (R170, R175). -/
def scanBestRun (better : Int → Int → Bool) (s : State) (i : VIn) : Running (Option Nat) where
  enc := partEnc
  first := none
  step r js := js.foldl (fun r j => match r with
    | none => some (i.rawA s.est.wa s.est.sa j)
    | some b => if better (valA s.est i j) (intVal s.est.wa s.est.sa b) then some (i.rawA s.est.wa s.est.sa j) else r) r
  ok r := ∀ v, r = some v → v < 2 ^ 32

/-- The running part of FSCANSUM (R136, R137). -/
def fscanRun (s : State) (i : VIn) : Running (Option Nat) where
  enc := partEnc
  first := none
  step r js := (treeSum s.est i r js).1
  ok r := ∀ v, r = some v → v < 2 ^ s.est.fwd

/-- VCOMPRESS and VEXPAND by their running count k: the elements that a sub-strip adds, given the count before it (R171, R172, R175). -/
def PacksOn (ins : Instr) (d a : BitVec 5) (p : BitVec 6) (s : State) (bound : Nat → Nat → Nat)
    (chunk : VIn → Nat → List Nat → List (Nat × Nat)) : Prop :=
  let k := fun (i : VIn) (start r0 c : Nat) =>
    (if start = 0 then 0 else r0) + (i.act.filter (fun j => decide (start ≤ j) && decide (j < 1024 * c))).length
  ScansOn ins d a p s s.est.wd word (· < 2 ^ 15) bound (fun i start r0 c => chunk i (k i start r0 c) (stripActs i c)) k (· = 0)
    (fun i start r0 t => t.setEst { t.est with ccnt := BitVec.ofNat 15 (k i start r0 ((s.est.vl + 1023) / 1024)) })

end Sys2Proof.Claims


open Sys2Proof Sys2Proof.Machine Sys2Proof.Claims

/-- Two-source integer instructions write the result that R60 gives them. (R60, R18) -/
def Obligations.IntegerResults : Prop :=
  ∀ row ∈ int2Table, ∀ (d a b : BitVec 5) (f g : BitVec 1) (s : State),
    Ready (row.1 d a b f g) [a, b] s → Free [d] s →
      exec (row.1 d a b f g) s = .next (wrote s d (row.2 (s.thr.reg a) (s.thr.reg b)))

/-- Division and remainder, with the fixed results for a zero divisor and for the one overflow. (R61) -/
def Obligations.DivisionResults : Prop :=
  ∀ (d a b : BitVec 5) (f g : BitVec 1) (s : State), s.core.resident = true →
    (∀ r ∈ [a, b], s.thr.isFull r = true) → Free [d] s →
    let x := s.thr.reg a
    let y := s.thr.reg b
    let low : Prop := x = BitVec.intMin 64 ∧ y = BitVec.allOnes 64
    (gate (encode (.div d a b f g)) s = none → ∃ q, exec (.div d a b f g) s = .next (wrote s d q) ∧
      (y = 0 → q = BitVec.allOnes 64) ∧ (low → q = x) ∧ (y ≠ 0 → ¬low → q.toInt = x.toInt.tdiv y.toInt)) ∧
    (gate (encode (.rem d a b f g)) s = none → ∃ q, exec (.rem d a b f g) s = .next (wrote s d q) ∧
      (y = 0 → q = x) ∧ (low → q = 0) ∧ (y ≠ 0 → ¬low → q.toInt = x.toInt.tmod y.toInt)) ∧
    (gate (encode (.divn d a b f g)) s = none → ∃ q, exec (.divn d a b f g) s = .next (wrote s d q) ∧
      (y = 0 → q = BitVec.allOnes 64) ∧ (y ≠ 0 → q.toNat = x.toNat / y.toNat)) ∧
    (gate (encode (.remn d a b f g)) s = none → ∃ q, exec (.remn d a b f g) s = .next (wrote s d q) ∧
      (y = 0 → q = x) ∧ (y ≠ 0 → q.toNat = x.toNat % y.toNat))

/-- CLZ, CTZ and POPC count as R60 says, and MOV copies. (R60) -/
def Obligations.BitCountResults : Prop :=
  ∀ (d a : BitVec 5) (f : BitVec 1) (s : State),
    (Ready (.clz d a f) [a] s → Free [d] s →
      ∃ n, exec (.clz d a f) s = .next (wrote s d (word n)) ∧ ZeroRun true (s.thr.reg a) n) ∧
    (Ready (.ctz d a f) [a] s → Free [d] s →
      ∃ n, exec (.ctz d a f) s = .next (wrote s d (word n)) ∧ ZeroRun false (s.thr.reg a) n) ∧
    (Ready (.popc d a f) [a] s → Free [d] s → exec (.popc d a f) s =
      .next (wrote s d (word ((List.range 64).countP (fun i => (s.thr.reg a).getLsbD i))))) ∧
    (Ready (.mov d a f) [a] s → Free [d] s → exec (.mov d a f) s = .next (wrote s d (s.thr.reg a)))

/-- The immediate forms write the results of R63; GFULL and GEMPTY read and clear full bits. (R18, R40, R62, R63) -/
def Obligations.ImmediateAndFullBitResults : Prop :=
  (∀ (d a : BitVec 5) (s : State),
    (Ready (.gfull d a) [] s → Free [d] s → s.thr.wait = none →
      exec (.gfull d a) s = .next (wrote s d (if s.thr.isFull a then 1 else 0))) ∧
    (Ready (.gempty d) [] s → Free [d] s → ∃ t : State, exec (.gempty d) s = .next (done t) ∧
      t = s.setThr (s.thr.setEmpty d) ∧ t.thr.reg d = s.thr.reg d ∧ t.thr.isFull d = false ∧
      ∀ r, r ≠ d → t.thr.isFull r = s.thr.isFull r)) ∧
    (∀ row ∈ immTable, ∀ (d a : BitVec 5) (f : BitVec 1) (i : BitVec 15) (s : State),
      Ready (row.1 d a f i) [a] s → Free [d] s →
        exec (row.1 d a f i) s = .next (wrote s d (row.2 (s.thr.reg a) i))) ∧
    (∀ (d a : BitVec 5) (f : BitVec 1) (n : BitVec 6) (s : State),
      (Ready (.shli d a f n) [a] s → Free [d] s →
        exec (.shli d a f n) s = .next (wrote s d (s.thr.reg a <<< n.toNat))) ∧
      (Ready (.shri d a f n) [a] s → Free [d] s →
        exec (.shri d a f n) s = .next (wrote s d (s.thr.reg a >>> n.toNat))) ∧
      (Ready (.sari d a f n) [a] s → Free [d] s →
        exec (.sari d a f n) s = .next (wrote s d ((s.thr.reg a).sshiftRight n.toNat)))) ∧
    (∀ (d : BitVec 5) (i : BitVec 21) (s : State), Ready (.ldi d i) [] s → Free [d] s →
      exec (.ldi d i) s = .next (wrote s d (i.signExtend 64))) ∧
    (∀ (d : BitVec 5) (k : BitVec 2) (i : BitVec 16) (s : State), Ready (.ins16 d k i) [d] s → Free [d] s →
      ∃ v, exec (.ins16 d k i) s = .next (wrote s d v) ∧
        ∀ n, n < 64 → v.getLsbD n =
          if n / 16 = k.toNat then i.getLsbD (n % 16) else (s.thr.reg d).getLsbD n)

/-- A load reads the bytes at its address, extended as its form says. (R66, R17, R65, R97, R215, R296, R350) -/
def Obligations.LoadResults : Prop :=
  (∀ row ∈ loadTable, ∀ (d a : BitVec 5) (f : BitVec 1) (o : BitVec 12) (s : State) (p : Place) (s' : State),
      Ready (row.op d a f o) [a] s → s.held false = false → Free [d] s →
      resolveThr s .read (addr s a o) row.size = .ok p s' → s'.poisonedAt p row.size = false →
      (s'.near p = true ∨ s.thr.fillRoom = true) →
        exec (row.op d a f o) s =
          .next (loaded (s'.touchPlace false p) (s'.near p) [d] [row.conv (s'.loadAt p row.size)])) ∧
    (∀ (d : BitVec 4) (a : BitVec 5) (f : BitVec 1) (o : BitVec 12) (s : State) (p : Place) (s' : State),
      Ready (.ldq d a f o) [a] s → s.held false = false → Free [d ++ 0#1, d ++ 1#1] s →
      resolveThr s .read (addr s a o) 16 = .ok p s' → s'.poisonedAt p 16 = false →
      (s'.near p = true ∨ s.thr.fillRoom = true) →
        exec (.ldq d a f o) s = .next (loaded (s'.touchPlace false p) (s'.near p) [d ++ 0#1, d ++ 1#1]
          [word (ofBytes ((s'.loadAt p 16).take 8)), word (ofBytes ((s'.loadAt p 16).drop 8))])) ∧
    (∀ row ∈ loadTable, ∀ (d a : BitVec 5) (f : BitVec 1) (o : BitVec 12) (s : State),
      Ready (row.op d a f o) [a] s → s.held false = false → Free [d] s →
        Faults (row.op d a f o) .read (addr s a o) row.size s) ∧
    (∀ (d : BitVec 4) (a : BitVec 5) (f : BitVec 1) (o : BitVec 12) (s : State),
      Ready (.ldq d a f o) [a] s → s.held false = false → Free [d ++ 0#1, d ++ 1#1] s →
        Faults (.ldq d a f o) .read (addr s a o) 16 s) ∧
    (∀ (s : State) (acc : Access) (a : Word) (size : Nat), acc ≠ .fetch → ResolveFails s acc a size)

/-- A store writes exactly its bytes at its address. (R67, R65, R97) -/
def Obligations.StoreResults : Prop :=
  (∀ row ∈ storeTable, ∀ (v a : BitVec 5) (f : BitVec 1) (o : BitVec 12) (s : State) (p : Place) (s' : State),
      Ready (row.1 v a f o) [a, v] s → s.held false = false →
      resolveThr s .write (addr s a o) row.2 = .ok p s' →
        ∃ t : State, exec (row.1 v a f o) s = .next t ∧
          t = done ((s'.touchPlace true p).storeAt (some s.loc) p (bytesOf row.2 (s.thr.reg v).toNat)) ∧
          ∀ x, memGet t.mem x = match p with
            | .spad _ _ => memGet s'.mem x
            | .phys pa => if pa ≤ x ∧ x < pa + row.2 then BitVec.ofNat 8 ((s.thr.reg v).toNat / 256 ^ (x - pa))
              else memGet s'.mem x) ∧
    (∀ (v : BitVec 4) (a : BitVec 5) (f : BitVec 1) (o : BitVec 12) (s : State) (p : Place) (s' : State),
      Ready (.stq v a f o) [a, v ++ 0#1, v ++ 1#1] s → s.held false = false →
      resolveThr s .write (addr s a o) 16 = .ok p s' →
        exec (.stq v a f o) s = .next (done ((s'.touchPlace true p).storeAt (some s.loc) p
          (bytesOf 8 (s.thr.reg (v ++ 0#1)).toNat ++ bytesOf 8 (s.thr.reg (v ++ 1#1)).toNat)))) ∧
    (∀ row ∈ storeTable, ∀ (v a : BitVec 5) (f : BitVec 1) (o : BitVec 12) (s : State),
      Ready (row.1 v a f o) [a, v] s → s.held false = false → Faults (row.1 v a f o) .write (addr s a o) row.2 s) ∧
    (∀ (v : BitVec 4) (a : BitVec 5) (f : BitVec 1) (o : BitVec 12) (s : State),
      Ready (.stq v a f o) [a, v ++ 0#1, v ++ 1#1] s → s.held false = false →
        Faults (.stq v a f o) .write (addr s a o) 16 s)

/-- Branches, jumps, calls and returns move PC, the return stack, the call level and the loops. (R69, R76, R70, R95,
R161, R21, R23) -/
def Obligations.BranchAndJumpResults : Prop :=
  (∀ row ∈ branchTable, ∀ (a b : BitVec 5) (f g : BitVec 1) (o : BitVec 11) (s : State),
    Ready (row.1 a b f g o) [a, b] s →
      (row.2 (s.thr.reg a) (s.thr.reg b) →
        exec (row.1 a b f g o) s = .next (jumped s (target s.thr.pc 11 o))) ∧
      (¬row.2 (s.thr.reg a) (s.thr.reg b) → exec (row.1 a b f g o) s = .next (done s))) ∧
  (∀ (s : State) (a : BitVec 5),
    (∀ o, Ready (.jmp o) [] s → exec (.jmp o) s = .next (jumped s (target s.thr.pc 26 o))) ∧
    (Ready (.jmpr a) [a] s → (s.thr.reg a).toNat % 4 = 0 → exec (.jmpr a) s = .next (jumped s (s.thr.reg a))) ∧
    (∀ o, Ready (.call o) [] s → s.thr.rets.length < retLimit s → exec (.call o) s = .next (s.setThr
      { s.thr with rets := (s.thr.pc + 4) :: s.thr.rets, clvl := s.thr.clvl + 1, pc := target s.thr.pc 26 o, wait := none })) ∧
    (Ready (.callr a) [a] s → (s.thr.reg a).toNat % 4 = 0 → s.thr.rets.length < retLimit s →
      exec (.callr a) s = .next (s.setThr
        { s.thr with rets := (s.thr.pc + 4) :: s.thr.rets, clvl := s.thr.clvl + 1, pc := s.thr.reg a, wait := none })) ∧
    (∀ p r, Ready .ret [] s → s.thr.rets = p :: r → exec .ret s = .next (s.setThr
      { s.thr with
        rets := r, clvl := s.thr.clvl - 1, loops := dropAbove (s.thr.clvl - 1) s.thr.loops, pc := p, wait := none })) ∧
    (∀ o, Ready (.bmz o) [] s → exec (.bmz o) s = .next
      (if ∀ j, j < s.est.vl → topAt s.hart s.est (laneBase s.hart s.who) j = false
        then jumped s (target s.thr.pc 11 o) else done s)) ∧
    (∀ o x r, Ready (.boq o) [] s → (∀ k, s.who ≠ .mt k) → s.hart.bo = x :: r →
      exec (.boq o) s = .next
        (if x then jumped (s.setHart { s.hart with bo := r }) (target s.thr.pc 11 o)
          else done (s.setHart { s.hart with bo := r }))) ∧
    (Ready (.jmpr a) [a] s → (s.thr.reg a).toNat % 4 ≠ 0 →
      exec (.jmpr a) s = .next (s.takeTrap .misalign (s.thr.reg a) s.thr.pc)) ∧
    (Ready (.callr a) [a] s → (s.thr.reg a).toNat % 4 ≠ 0 →
      exec (.callr a) s = .next (s.takeTrap .misalign (s.thr.reg a) s.thr.pc)) ∧
    (∀ o, Ready (.call o) [] s → retLimit s ≤ s.thr.rets.length →
      exec (.call o) s = .next (s.takeTrap .stackOvf 0 s.thr.pc)) ∧
    (Ready (.callr a) [a] s → (s.thr.reg a).toNat % 4 = 0 → retLimit s ≤ s.thr.rets.length →
      exec (.callr a) s = .next (s.takeTrap .stackOvf 0 s.thr.pc)) ∧
    (Ready .ret [] s → s.thr.rets = [] → exec .ret s = .next (s.takeTrap .stackOvf 1 s.thr.pc)) ∧
    ((∀ k, s.who ≠ .mt k) → retLimit s = 1040) ∧
    (∀ k, s.who = .mt k → retLimit s = 16 / s.hart.split + 1024 / s.hart.split) ∧
    (∀ o, Ready (.boq o) [] s → (∀ k, s.who ≠ .mt k) → s.hart.bo = [] → s.thr.wait = none → s.hart.waittimeout ≠ 0 →
      exec (.boq o) s = .next (s.setThr { s.thr with
        wait := some { kind := .branch, num := 0, since := s.gts, bound := s.hart.waittimeout.toNat } })))

/-- Hardware loops, their indices, and the control words that only advance. (R73, R78, R79, R95, R106) -/
def Obligations.LoopResults : Prop :=
  ∀ (s : State) (a d : BitVec 5),
    (∀ e : BitVec 16, Ready (.loop a e) [a] s → (s.thr.reg a = 0 ∨ s.thr.loops.length < 6) → exec (.loop a e) s = .next (s.setThr
      (if s.thr.reg a = 0 then { s.thr with pc := s.thr.pc + 8 + 4 * e.setWidth 64, wait := none }
       else { s.thr with
        pc := s.thr.pc + 4, wait := none
        loops := { start := s.thr.pc + 4, fin := s.thr.pc + 4 + 4 * e.setWidth 64, count := s.thr.reg a, index := 0,
                   lvl := s.thr.clvl } :: s.thr.loops }))) ∧
    (∀ (c : BitVec 10) (e : BitVec 16), Ready (.loopi c e) [] s → s.thr.loops.length < 6 →
      exec (.loopi c e) s = .next (s.setThr { s.thr with
        pc := s.thr.pc + 4, wait := none
        loops := { start := s.thr.pc + 4, fin := s.thr.pc + 4 + 4 * e.setWidth 64, count := word (c.toNat + 1), index := 0,
                   lvl := s.thr.clvl } :: s.thr.loops })) ∧
    (∀ l : BitVec 3, Ready (.lidx d l) [] s → Free [d] s → exec (.lidx d l) s =
      .next (wrote s d ((s.thr.loops[l.toNat]?.map (fun x => x.index)).getD 0))) ∧
    (∀ l : BitVec 3, Ready (.lcnt d l) [] s → Free [d] s → exec (.lcnt d l) s =
      .next (wrote s d ((s.thr.loops[l.toNat]?.map (fun x => x.count)).getD 0))) ∧
    (Ready .nop [] s → exec .nop s = .next (done s)) ∧
    (Ready .yield [] s → exec .yield s = .next (s.setThr
      (if s.hart.park.isSome then { s.thr.advance true with run := .parked } else s.thr.advance false))) ∧
    (Ready (.bopush a) [a] s → (∀ k, s.who ≠ .mt k) → s.hart.bo.length < 32 →
      exec (.bopush a) s = .next (done (s.setHart { s.hart with bo := s.hart.bo ++ [(s.thr.reg a).getLsbD 0] }))) ∧
    (∀ e : BitVec 16, Ready (.loop a e) [a] s → s.thr.reg a ≠ 0 → 6 ≤ s.thr.loops.length →
      exec (.loop a e) s = .next (s.takeTrap .loopDepth 0 s.thr.pc)) ∧
    (∀ (c : BitVec 10) (e : BitVec 16), Ready (.loopi c e) [] s → 6 ≤ s.thr.loops.length →
      exec (.loopi c e) s = .next (s.takeTrap .loopDepth 0 s.thr.pc))

/-- CSR instructions read a register and write its writable fields. (R80, R25, R27, R28, R30, R98, R276, R287) -/
def Obligations.CsrResults : Prop :=
  (∀ (c : BitVec 12) (d a : BitVec 5) (s : State),
    (∀ i ∈ [Instr.csrwr a c, .csrset a c, .csrclr a c], Ready i [a] s → csrFails i s = false →
      (c = 0x030#12 → s.hart.split ≠ 0 → exec i s = .next (s.takeTrap .splitIll (wordVal i) s.thr.pc)) ∧
      (c = 0x108#12 → (s.die s.loc.die).bankBusy = true → exec i s = .next (stalled s))) ∧
    (Ready (.csrrd d c) [] s → csrIll s c.toNat 0 = false → Free [d] s →
      exec (.csrrd d c) s = .next (wrote s d (word (csrGet s c.toNat)))) ∧
    (¬(c = 0x030#12 ∧ s.hart.split ≠ 0) → ¬(c = 0x108#12 ∧ (s.die s.loc.die).bankBusy = true) →
      let old := word (csrGet s c.toNat)
      let v := s.thr.reg a
      let w1c := c = 0x00B#12 ∨ c = 0x00E#12
      (Ready (.csrwr a c) [a] s → csrIll s c.toNat 1 = false → exec (.csrwr a c) s =
        .next (done (csrPut s c.toNat (if w1c then old &&& ~~~v else v)))) ∧
      (Ready (.csrset a c) [a] s → csrIll s c.toNat 2 = false → exec (.csrset a c) s =
        .next (done (csrPut s c.toNat (if w1c then old &&& ~~~v else old ||| v)))) ∧
      (Ready (.csrclr a c) [a] s → csrIll s c.toNat 3 = false → exec (.csrclr a c) s =
        .next (done (csrPut s c.toNat (if w1c then old else old &&& ~~~v)))))) ∧
  (∀ (s : State) (n k : Nat), csrIll s n k = true ↔ ¬(256 ≤ n ∧ s.thr.super = false) ∧
    (n ∉ csrNums ∨ (s.who = .a ∧ n ∈ csrOfE) ∨ (n = 0x108 ∧ 2 ≤ k) ∨
      (k ≠ 0 ∧ n ∉ [0x030, 0x108, 0x109] ∧ ∀ f ∈ csrFields, f.num = n → f.put = none))) ∧
  (∀ (s : State) (n : Nat), n ∉ [0x030, 0x108, 0x109] → csrFits s n →
    (∀ f ∈ csrFields, f.num = n → csrGet s n / 2 ^ f.lo % 2 ^ f.width = f.get s) ∧
    ∀ i, (∀ f ∈ csrFields, f.num = n → i < f.lo ∨ f.lo + f.width ≤ i) → (csrGet s n).testBit i = false) ∧
  (∀ (s : State) (n : Nat) (v : Word), n ∉ [0x030, 0x108, 0x109] →
    ∀ f ∈ csrFields, (eselField f → (n ≠ 0x004 ∧ n ≠ 0x00C) ∨ f.num = n) → f.get (csrPut s n v) =
      (match (if f.num = n then f.put else none) with
        | some g => g (f.get s) (v.toNat / 2 ^ f.lo % 2 ^ f.width)
        | none => f.get s)) ∧
  (∀ s : State, csrGet s 0x030 = (s.hart.dsPending.getD s.hart.ds).toNat ∧
    ∀ v : Word, (s.who = .a → csrPut s 0x030 v = s.setHart { s.hart with dsPending := some (v.getLsbD 0) }) ∧
      (s.who ≠ .a → let t := csrPut s 0x030 v
        t.hart.ds = v.getLsbD 0 ∧ t.hart.dsPending = none ∧ t.hart.ex.vl ≤ (if v.getLsbD 0 = true then 8192 else 16384))) ∧
  (∀ s : State, s.loc.die < 8 → let d := s.die s.loc.die
    csrGet s 0x108 / 2 ^ 63 % 2 = d.bankSel.toNat ∧ csrGet s 0x108 / 2 ^ 62 % 2 = d.bankBusy.toNat ∧
    (∀ k, k < 16 → csrGet s 0x108 / 2 ^ (3 * k) % 8 = (d.roles.toList.getD (k + (if d.bankSel = true then 16 else 0)) 0).toNat) ∧
    ∀ v : Word, let e := (csrPut s 0x108 v).die s.loc.die
      e.bankSel = v.getLsbD 63 ∧ e.roles = d.roles ∧ (e.bankBusy = true ↔ e.newRoles ≠ []) ∧
      ∀ b r, (b, r) ∈ e.newRoles ↔ ∃ k, k < 16 ∧ b = k + (if v.getLsbD 63 = true then 16 else 0) ∧
        r.toNat = v.toNat / 2 ^ (3 * k) % 8 ∧ r.toNat ≤ 4 ∧ d.roles.toList.getD b 0 ≠ r) ∧
  (∀ s : State, s.loc.die < 8 → s.loc.cluster < 66 → let k := s.cluster s.loc.die s.loc.cluster
    csrGet s 0x109 = k.eff.toNat * 2 ^ 32 + (s.limOf k).toNat * 2 ^ 16 + k.pattern.toNat ∧
    ∀ v : Word, (csrPut s 0x109 v).cluster s.loc.die s.loc.cluster =
      { k with pattern := if v.toNat % 2 ^ 16 = 0 then k.pattern else v.setWidth 16 })

/-- TRAP enters the handler with SYSCALL; RETT restores what the entry saved. (R81, R82, R99, R50) -/
def Obligations.TrapReturnResults : Prop :=
  ∀ (n : BitVec 12) (s : State),
    (Ready (.trap n) [] s → s.thr.busy = false → (s.hart.tvecOf s.who).getLsbD 63 = false →
      ∃ t : State, exec (.trap n) s = .next t ∧
        t.thr.tcause = 21 ∧ t.thr.tval = n.setWidth 64 ∧
        t.thr.tpc = ((done s).thr.pc &&& 0x01FF_FFFF_FFFF_FFFF#64) ∧ t.thr.plvl = s.thr.super ∧
        t.thr.super = true ∧ t.thr.busy = true ∧ t.thr.clvl = s.thr.clvl + 1 ∧
        t.thr.pc = tvecAddr (s.hart.tvecOf s.who) ∧ (s.who ≠ .a → t.est.pfx.pend = false ∧ t.thr.pfxp = s.est.pfx.pend) ∧
        t.thr.g = s.thr.g ∧ t.thr.full = s.thr.full ∧ t.mem = s.mem) ∧
    (Ready .rett [] s →
      ∃ t : State, exec .rett s = .next t ∧
        t.thr.pc = sext57 (s.thr.tpc &&& ~~~3#64) ∧ t.thr.super = s.thr.plvl ∧ t.thr.busy = false ∧
        t.thr.clvl = s.thr.clvl - 1 ∧ (s.who ≠ .a → t.est.pfx.pend = s.thr.pfxp) ∧
        t.thr.tcause = s.thr.tcause ∧ t.thr.tpc = s.thr.tpc ∧ t.thr.g = s.thr.g ∧ t.thr.full = s.thr.full ∧
        t.mem = s.mem)

/-- HALT, GTSRD, EVRD, EVWAIT and WAITA. (R83, R84, R85, R86, R87) -/
def Obligations.SystemResults : Prop :=
  ∀ (s : State) (d a : BitVec 5),
    (Ready .halt [] s → (∀ k, s.who ≠ .mt k) → s.thr.fills = [] →
      ∃ t : State, exec .halt s = .next (State.noWait (t.endIter s.loc)) ∧
        t.thr.run = .halted ∧ t.thr.loops = [] ∧ t.thr.rets = [] ∧ (s.who ≠ .a → t.est.msdepth = 0) ∧
        t.loc = s.loc ∧ t.who = s.who ∧ t.mem = s.mem ∧ t.thr.g = s.thr.g) ∧
    (Ready (.gtsrd d) [] s → s.thr.fills = [] → s.thr.posted = [] → s.core.unstarted s.who = false →
      exec (.gtsrd d) s = .next (wrote s d (word s.gts))) ∧
    (∀ e : BitVec 3, Ready (.evrd e) [] s → Free [e ++ 0#2, e ++ 1#2, e ++ 2#2, e ++ 3#2] s → s.thr.fillRoom = true →
      exec (.evrd e) s = .next (done (s.startFill [e ++ 0#2, e ++ 1#2, e ++ 2#2, e ++ 3#2] .event))) ∧
    (Ready .evwait [] s → (leastRemovable s.gts s.hart.evq).isSome = true → exec .evwait s = .next (done s)) ∧
    (∀ p s', Ready (.waita d a) [a, d] s → s.held false = false → resolveThr s .read (s.thr.reg a) 8 = .ok p s' →
      s'.poisonedAt p 8 = false → word (ofBytes (s'.loadAt p 8)) ≠ s'.thr.reg d →
      exec (.waita d a) s = .next (wrote s' d (word (ofBytes (s'.loadAt p 8)))))

/-- FENCE, SBAR, IFENCE and the three TLBINV forms complete as R89 to R92 say, and wait where they say. (R89, R90,
R91, R92, R295) Choice of the model: that FENCE, SBAR and IFENCE end when nothing is outstanding, stores being
performed at every scope at once (notes/assumptions/11.md). -/
def Obligations.OrderingResults : Prop :=
  ∀ (s : State) (a : BitVec 5),
    (∀ (o : BitVec 4) (sc : BitVec 3), Ready (.fence o sc) [] s →
      (¬FenceWaits s o → exec (.fence o sc) s = .next (done s)) ∧
      (FenceWaits s o → exec (.fence o sc) s = .next (stalled s))) ∧
    (Ready (.sbar a) [a] s →
      let listed := (if (s.thr.reg a).getLsbD 16 then s.core.owes false true else []) ++
        (if (s.thr.reg a).getLsbD 17 then s.core.owes true true else [])
      (orderLeft s listed = [] → exec (.sbar a) s = .next (done s)) ∧
      (orderLeft s listed ≠ [] → exec (.sbar a) s = .next (orderHeld s listed))) ∧
    (Ready .ifence [] s →
      let listed := s.core.owes false false ++ s.core.owes true false
      (orderLeft s listed = [] → exec .ifence s = .next (done { s with core := { s.core with icache := [] } })) ∧
      (orderLeft s listed ≠ [] → exec .ifence s = .next (orderHeld s listed))) ∧
    (∀ (k : Core) (x : Who × Owed), k.stillOwes x = true ↔
      (∃ f ∈ (k.hart.thr x.1).fills, f.owed true = true ∧ x.2 = .fill f.id) ∨
      (∃ p ∈ (k.hart.thr x.1).posted, x.2 = .posted p.id) ∨
      (∃ w, (k.hart.thr x.1).wait = some w ∧ w.open true = true ∧ x.2 = .wait w.kind w.num w.since) ∨
      (∃ c ∈ k.bobbin, c.started = false ∧ c.who = x.1 ∧ c.team = k.hart.team ∧ x.2 = .command false c.ticket) ∨
      (∃ c ∈ k.xcopy, c.started = false ∧ c.who = x.1 ∧ c.team = k.hart.team ∧ x.2 = .command true c.ticket)) ∧
    (∀ r : BitVec 1,
      (Ready (.tlbinvAll a r) [a] s → Invalidates (.tlbinvAll a r) r (fun _ => False) s) ∧
      (Ready (.tlbinvPage a r) [a] s → Invalidates (.tlbinvPage a r) r (fun e => ¬(e.ctx = s.hart.ctx ∧
        e.base ≤ (s.thr.reg a).toNat % 2 ^ 57 ∧ (s.thr.reg a).toNat % 2 ^ 57 < e.base + e.size)) s) ∧
      (Ready (.tlbinvContext a r) [a] s → Invalidates (.tlbinvContext a r) r (fun e =>
        e.glob = true ∨ e.ctx ≠ (s.thr.reg a).toNat % 2 ^ 16) s))

/-- Atomics write the result of their operation and return the old word. (R302, R299, R300, R65) -/
def Obligations.AtomicResults : Prop :=
  (∀ row ∈ atomTable, ∀ (d a b : BitVec 5) (f g : BitVec 1) (o : BitVec 2) (sc : BitVec 3) (s s' : State) (p : Place),
      Ready (row.1 d a b f g o sc) [a, b] s → s.held (releases o) = false → Free [d] s → s.thr.fillRoom = true →
      resolveThr s .rmw (s.thr.reg a) 8 = .ok p s' → s'.poisonedAt p 8 = false →
        let t := s'.contendAt p
        exec (row.1 d a b f g o sc) s = .next (done
          ((putWord t p (row.2 (wordAt t p) (s'.thr.reg b))).startFill [d] (.value [wordAt t p])))) ∧
    (∀ (d a b : BitVec 5) (f g : BitVec 1) (o : BitVec 2) (sc : BitVec 3) (s s' : State) (p : Place),
      Ready (.atcas d a b f g o sc) [a, b, d] s → s.held (releases o) = false → Free [d] s → s.thr.fillRoom = true →
      resolveThr s .rmw (s.thr.reg a) 8 = .ok p s' → s'.poisonedAt p 8 = false →
        let t := s'.contendAt p
        exec (.atcas d a b f g o sc) s = .next (done
          ((if s'.thr.reg d = wordAt t p then putWord t p (s'.thr.reg b) else t).startFill [d] (.value [wordAt t p])))) ∧
    (∀ row ∈ atomTable, ∀ (d a b : BitVec 5) (f g : BitVec 1) (o : BitVec 2) (sc : BitVec 3) (s : State),
      Ready (row.1 d a b f g o sc) [a, b] s → s.held (releases o) = false → Free [d] s → s.thr.fillRoom = true →
        Faults (row.1 d a b f g o sc) .rmw (s.thr.reg a) 8 s) ∧
    (∀ (d a b : BitVec 5) (f g : BitVec 1) (o : BitVec 2) (sc : BitVec 3) (s : State),
      Ready (.atcas d a b f g o sc) [a, b, d] s → s.held (releases o) = false → Free [d] s → s.thr.fillRoom = true →
        Faults (.atcas d a b f g o sc) .rmw (s.thr.reg a) 8 s)

/-- Posted and performed reductions, LDA and STL. (R302, R304, R65) -/
def Obligations.ReductionAndOrderedAccessResults : Prop :=
  (∀ row ∈ redTable, ∀ (a b : BitVec 5) (f g o : BitVec 1) (sc : BitVec 3) (s : State),
      Ready (row.op a b f g o sc) [a, b] s → s.held (o == 1) = false → canonical (s.thr.reg a) = true →
      (s.thr.reg a).toNat % 8 = 0 →
      let cached := windowBase ≤ (s.thr.reg a).toNat ∨
        (tlbFind s.core.tlb s.hart.ctx ((s.thr.reg a).toNat % 2 ^ 57)).isSome = true
      (∀ p s', cached → resolveThr s .rmw (s.thr.reg a) 8 = .ok p s' → s'.poisonedAt p 8 = false →
        exec (row.op a b f g o sc) s = .next (done
          (putWord (s'.contendAt p) p (row.new (wordAt (s'.contendAt p) p) (s'.thr.reg b))))) ∧
      (¬cached → s.thr.posted.length < 8 → s.walksOn s.loc.die < 608 → exec (row.op a b f g o sc) s = .next (done (s.setHart
        (Hart.setThr { s.hart with fillSeq := s.hart.fillSeq + 1 } { s.thr with posted := s.thr.posted ++
          [{ id := s.hart.fillSeq, op4 := row.code, va := s.thr.reg a, operand := s.thr.reg b, user := !s.thr.super }] }
          s.who))))) ∧
    (∀ (d a : BitVec 5) (f : BitVec 1) (sc : BitVec 3) (s s' : State) (p : Place),
      Ready (.lda d a f sc) [a] s → Idle [d] s → resolveThr s .read (s.thr.reg a) 8 = .ok p s' →
      s'.poisonedAt p 8 = false →
        exec (.lda d a f sc) s = .next (done ((s'.touchPlace false p).startFill [d] (.value [wordAt s' p])))) ∧
    (∀ (a b : BitVec 5) (f g : BitVec 1) (sc : BitVec 3) (s s' : State) (p : Place),
      Ready (.stl a b f g sc) [a, b] s → s.held true = false → resolveThr s .write (s.thr.reg a) 8 = .ok p s' →
        exec (.stl a b f g sc) s = .next (done
          ((s'.touchPlace true p).storeAt (some s.loc) p (bytesOf 8 (s.thr.reg b).toNat)))) ∧
    (∀ (d a b : BitVec 5) (f g : BitVec 1) (sc : BitVec 3) (s : State),
      (Ready (.lda d a f sc) [a] s → Idle [d] s → Faults (.lda d a f sc) .read (s.thr.reg a) 8 s) ∧
      (Ready (.stl a b f g sc) [a, b] s → s.held true = false → Faults (.stl a b f g sc) .write (s.thr.reg a) 8 s)) ∧
    (∀ row ∈ redTable, ∀ (a b : BitVec 5) (f g o : BitVec 1) (sc : BitVec 3) (s : State),
      Ready (row.op a b f g o sc) [a, b] s → s.held (o == 1) = false →
      (canonical (s.thr.reg a) = false → exec (row.op a b f g o sc) s =
        .next (s.takeTrap .xlate (s.thr.reg a) s.thr.pc)) ∧
      (canonical (s.thr.reg a) = true → (s.thr.reg a).toNat % 8 ≠ 0 → exec (row.op a b f g o sc) s =
        .next (s.takeTrap .misalign (s.thr.reg a) s.thr.pc)) ∧
      (windowBase ≤ (s.thr.reg a).toNat ∨ (tlbFind s.core.tlb s.hart.ctx ((s.thr.reg a).toNat % 2 ^ 57)).isSome = true →
        Faults (row.op a b f g o sc) .rmw (s.thr.reg a) 8 s))

/-- Sync registers: test-and-set, fetch-and-add, read, write and wait. (R341, R342, R343, R344) -/
def Obligations.SyncRegisterResults : Prop :=
  ∀ (d a b : BitVec 5) (f g : BitVec 1) (s : State) (p : Nat), SyncReg s a p →
    (Ready (.sytas d a f) [a] s → s.held true = false → Free [d] s → s.thr.fillRoom = true →
      exec (.sytas d a f) s = .next (done
        (if s.syncAt p = 0 then (s.syncPut p 1).1.startFill [d] (.sync p (s.syncPut p 1).2 0)
         else s.startFill [d] (.sync p 0 (s.syncAt p))))) ∧
    (Ready (.syfadd d a b f g) [a, b] s → s.held true = false → Free [d] s → s.thr.fillRoom = true →
      exec (.syfadd d a b f g) s = .next (done
        ((s.syncPut p (s.syncAt p + s.thr.reg b)).1.startFill [d]
          (.sync p (s.syncPut p (s.syncAt p + s.thr.reg b)).2 (s.syncAt p))))) ∧
    (Ready (.syrd d a f) [a] s → Idle [d] s →
      exec (.syrd d a f) s = .next (done (s.startFill [d] (.value [s.mirrorAt s.loc.die p])))) ∧
    (Ready (.sywr a b f g) [a, b] s → s.held true = false → s.thr.syncWait = none →
      ∃ t : State, exec (.sywr a b f g) s = .next t ∧ t.syncAt p = s.thr.reg b ∧
        t = (s.syncPut p (s.thr.reg b)).1.setThr { s.thr with
          wait := some { kind := .update, num := word (s.syncPut p (s.thr.reg b)).2, since := s.gts, bound := 0 } }) ∧
    (∀ u, Ready (.sywr a b f g) [a, b] s → s.thr.syncWait = some u → s.syncDone u = true →
      exec (.sywr a b f g) s = .next (done s)) ∧
    (Ready (.sywait a b f g) [a, b] s → s.held false = false →
      (s.thr.reg b).toNat ≤ (s.mirrorAt s.loc.die p).toNat → exec (.sywait a b f g) s = .next (done s))

/-- Tagged scratchpad words: requests join and are served, and none held is left with its condition met. (R216, R218,
R219, R220, R221) -/
def Obligations.TaggedWordResults : Prop :=
  (∀ (d v a : BitVec 5) (f : BitVec 1) (off : BitVec 12) (s : State) (o : CoreId) (n : Nat),
    TagWord s (addr s a off) o n →
    (∀ op, Idle [d] s →
      let s1 : State := { s.startFill [d] .tagged with nextId := s.nextId + 1 }
      let r : TagReq :=
        { id := s.nextId, core := s.loc, who := s.who, fill := s.hart.fillSeq, op := op, word := n, ea := addr s a off
          since := s.gts, bound := s.hart.fetimeout.toNat }
      s.hart.fetimeout ≠ 0 ∨ tagHeld (tagRequest s1 o r) o r.id = false →
      (op = .ldff → Ready (.ldff d a f off) [a] s → exec (.ldff d a f off) s = .next (done (tagRequest s1 o r))) ∧
      (op = .ldfe → Ready (.ldfe d a f off) [a] s → exec (.ldfe d a f off) s = .next (done (tagRequest s1 o r)))) ∧
    (Ready (.stef v a f off) [a, v] s → s.thr.wait = none → s.held true = false →
      let r : TagReq :=
        { id := s.nextId, core := s.loc, who := s.who, fill := 0, op := .stef (s.thr.reg v), word := n, ea := addr s a off
          since := s.gts, bound := s.hart.fetimeout.toNat }
      let s2 := tagRequest { s with nextId := s.nextId + 1 } o r
      tagHeld s2 o r.id = false → exec (.stef v a f off) s = .next (done s2)) ∧
    (∀ w, Ready (.stef v a f off) [a, v] s → s.thr.wait = some w → w.kind = .tagged → w.served = true →
      exec (.stef v a f off) s = .next (done s)) ∧
    (Ready (.stff v a f off) [a, v] s → s.held true = false →
      exec (.stff v a f off) s = .next (done (serve (s.onHart o (fun h =>
        { h with spad := memWrite h.spad (8 * n) (bytesOf 8 (s.thr.reg v).toNat) }.setWordFull n true)) o n))) ∧
    (Ready (.feclr a f off) [a] s → s.held false = false →
      exec (.feclr a f off) s = .next (done (serve (s.onHart o (fun h => h.setWordFull n false)) o n))) ∧
    (Ready (.feq d a f off) [a] s → s.held false = false → Free [d] s → (o = s.loc ∨ s.thr.fillRoom = true) →
      exec (.feq d a f off) s = .next (loaded s (decide (o = s.loc)) [d]
        [if (s.getCore o).hart.wordFull n then 1 else 0]))) ∧
  ((∀ (s : State) (o : CoreId) (n : Nat),
    ∀ r ∈ ((serve s o n).getCore o).hart.spadWait, r.word = n →
      r.op.ready (((serve s o n).getCore o).hart.wordFull n) = false) ∧
  (∀ (s : State) (o : CoreId) (r : TagReq),
    let t := serveOne s o r
    let old := (s.getCore o).hart
    let new := (t.getCore o).hart
    let v := word (ofBytes (memRead old.spad (8 * r.word) 8))
    new.spadWait = old.spadWait.filter (fun x => decide (x.id ≠ r.id)) ∧
    (r.op = .ldff ∨ r.op = .ldfe → new.spad = old.spad ∧
      ((t.getCore r.core).hart.thr r.who).fills = ((s.getCore r.core).hart.thr r.who).fills.map
        (fun f => if f.id = r.fill then { f with src := .value [v] } else f)) ∧
    (r.op = .ldff → ∀ n, new.wordFull n = old.wordFull n) ∧
    (r.op = .ldfe → ∀ n, new.wordFull n = (decide (n ≠ r.word) && old.wordFull n)) ∧
    (∀ x, r.op = .stef x → (∀ n, new.wordFull n = (decide (n = r.word) || old.wordFull n)) ∧
      new.spad = memWrite old.spad (8 * r.word) (bytesOf 8 x.toNat))) ∧
  (∀ (s : State) (o : CoreId) (n k : Nat) (r : TagReq),
    ((s.getCore o).hart.spadWait.find? (fun x => decide (x.word = n) && x.op.ready ((s.getCore o).hart.wordFull n)) = some r →
      serveWord s o n (k + 1) = serveWord (serveOne s o r) o n k) ∧
    ((s.getCore o).hart.spadWait.find? (fun x => decide (x.word = n) && x.op.ready ((s.getCore o).hart.wordFull n)) = none →
      serveWord s o n (k + 1) = s)))

/-- The version instructions read, create and retire versions. (R326, R327, R330, R331, R332, R333, R334, R337) -/
def Obligations.VersionResults : Prop :=
  ∀ (a b : BitVec 5) (f g : BitVec 1) (s : State) (r : Region), s.held false = false →
    let ea := s.thr.reg a
    let v : BitVec 32 := (s.thr.reg b).setWidth 32
    let x := r.word ea
    let fl := r.floorAt ea
    (∀ d y, VersionedAt s ea r → Ready (.vrld d a b f g) [a, b] s → Idle [d] s → s.thr.versDone ea = none →
      verGone fl x v = false → x.find v = some y → exec (.vrld d a b f g) s = .next (filled s [d] [y])) ∧
    (∀ d y, Ready (.vrld d a b f g) [a, b] s → s.thr.versDone ea = some (.served y) →
      exec (.vrld d a b f g) s = .next (filled (s.setThr s.thr.endWait) [d] [y])) ∧
    (∀ d : BitVec 4, VersionedAt s ea r → Ready (.vrldle d a b f g) [a, b] s → Idle [d ++ 0#1, d ++ 1#1] s →
      exec (.vrldle d a b f g) s = .next (filled s [d ++ 0#1, d ++ 1#1]
        (match x.atMost fl v with | some e => [e.2, e.1.setWidth 64] | none => [0, BitVec.allOnes 64]))) ∧
    (∀ d, VersionedAt s ea r → Ready (.vrtop d a f) [a] s → Idle [d] s →
      exec (.vrtop d a f) s = .next (filled s [d]
        [match x.top fl with | some e => e.1.setWidth 64 | none => BitVec.allOnes 64])) ∧
    (∀ d, VersionedAt s ea r → Ready (.vrpoll d a b f g) [a, b] s → Idle [d] s →
      exec (.vrpoll d a b f g) s = .next (filled s [d]
        [if (x.find v).isSome = true ∧ 0 ≤ relTo fl v then 1 else if verGone fl x v then 2 else 0])) ∧
    (∀ d, VersionedAt s ea r → Ready (.vrst d a b f g) [a, b, d] s → s.held true = false → s.thr.versDone ea = none →
      verGone fl x v = false → x.find v = none → x.live.length ≤ r.depth → s.entryFree (versHome ea) = true →
      exec (.vrst d a b f g) s = .next (done
        (s.setRegion (r.setWord { x with live := x.live ++ [(v, s.thr.reg d)] })).wakeVers)) ∧
    (∀ d, Ready (.vrst d a b f g) [a, b, d] s → s.thr.versDone ea = some .made →
      exec (.vrst d a b f g) s = .next (done s)) ∧
    (s.regions.find? (fun q => decide (q.ctx = s.hart.ctx) && decide (q.num = ea.toNat)) = some r →
      Ready (.vrfloor a b f g) [a, b] s →
      (∀ x, s.thr.floorWait = some x → (∀ die : Fin 8, x ∉ r.raised[die]) → exec (.vrfloor a b f g) s = .next (done s)) ∧
      (s.thr.floorWait = none → s.held true = false →
        let r1 := if 0 < relTo r.floor v then { r with floor := v, raised := r.raised.map (· ++ [v]) } else r
        let s1 := { s with regions := s.regions.map (fun q => if q.ctx = r.ctx ∧ q.num = r.num then r1 else q) }
        ((∀ die : Fin 8, r1.floor ∉ r1.raised[die]) → exec (.vrfloor a b f g) s = .next (done s1)) ∧
        ((∃ die : Fin 8, r1.floor ∈ r1.raised[die]) → exec (.vrfloor a b f g) s = .next (s1.setThr { s.thr with
          wait := some { kind := .floor, num := r1.floor.setWidth 64, since := s.gts, bound := 0 } }))))

/-- Data queues and the spool instructions. (R94, R236, R239) -/
def Obligations.QueueAndSpoolResults : Prop :=
  ∀ (s : State) (r d a : BitVec 5) (q : BitVec 2) (n : BitVec 4),
    ((∀ k, s.who ≠ .mt k) →
      (Ready (.qpush q r) [r] s → (s.who = .a ↔ q.toNat ≤ 1) → (s.hart.qs[q.toNat]'q.isLt).length < 64 →
        ∃ t : State, exec (.qpush q r) s = .next (done t) ∧ t = s.setHart t.hart ∧
          t.hart.qs[q.toNat]'q.isLt = (s.hart.qs[q.toNat]'q.isLt) ++ [s.thr.reg r] ∧
          ∀ m : Fin 4, m.val ≠ q.toNat → t.hart.qs[m] = s.hart.qs[m]) ∧
      (Ready (.qpop d q) [] s → (s.who = .a ↔ 2 ≤ q.toNat) → Free [d] s → s.thr.fillRoom = true →
        exec (.qpop d q) s = .next (done (s.startFill [d] (.queue q))))) ∧
    (∀ desc s', Ready (.spbind n a) [a] s → DescAt s (s.thr.reg a) 64 desc s' →
      (privFields desc = false ∨ s'.thr.super = true) → spoolBad (s'.hart.setSpool n.toNat {}) n.toNat desc = false →
        ∃ t : State, exec (.spbind n a) s = .next (done t) ∧ t = s'.setHart t.hart ∧
          t.hart.spool n.toNat = { bound := true, desc := desc, super := s'.thr.super
                                   ibase := ((s'.hart.setSpool n.toNat {}).spool (field (dw desc 0) 19 4)).pos } ∧
          ∀ m, m ≠ n.toNat → t.hart.spool m = s'.hart.spool m) ∧
    (Ready (.spunb n) [] s → ∃ t : State, exec (.spunb n) s = .next (done t) ∧ t = s.setHart t.hart ∧
      (t.hart.spool n.toNat).bound = false ∧ ∀ m, m ≠ n.toNat → t.hart.spool m = s.hart.spool m) ∧
    (Ready (.spdrain n) [] s → exec (.spdrain n) s = .next (done s)) ∧
    (Ready (.spstat d n) [] s → Free [d] s → exec (.spstat d n) s = .next (wrote s d (s.hart.spool n.toNat).status))

/-- BCOPY, XCOPY, PGMIG and BWRED issue their command. (R243, R378, R398, R401) -/
def Obligations.EngineCommandResults : Prop :=
  ∀ (s : State) (d a b : BitVec 5),
    (∀ desc s', DescAt s (s.thr.reg a) 64 desc s' → (privFields desc = false ∨ s'.thr.super = true) → Free [d] s' →
      let k : EngCmd :=
        { ticket := s'.hart.nextTicket, desc := desc, super := s'.thr.super, who := s'.who
          team := s'.hart.team, hartid := s'.hart.hartid, ctx := s'.hart.ctx }
      let nt := if s'.hart.nextTicket = 0xFFFF#16 then 1#16 else s'.hart.nextTicket + 1
      (Ready (.bcopy d a) [a] s → bobbinBad s'.hart.hartid desc = false → s'.core.bobbin.length < 8 →
        exec (.bcopy d a) s = .next (wrote { s' with core := { s'.core with
          bobbin := s'.core.bobbin ++ [k], hart := { s'.hart with nextTicket := nt } } } d (k.ticket.setWidth 64))) ∧
      (Ready (.xcopy d a) [a] s → (∀ m, s.who ≠ .mt m) → xcopyBad desc = false → s'.core.xcopy.length < 4 →
        exec (.xcopy d a) s = .next (wrote { s' with core := { s'.core with
          xcopy := s'.core.xcopy ++ [k], hart := { s'.hart with nextTicket := nt } } } d (k.ticket.setWidth 64)))) ∧
    (Ready (.pgmig a b) [a, b] s → canonical (s.thr.reg a) = true → (s.thr.reg b).toNat % 4 ≤ 1 →
      let other := (s.thr.reg b).getLsbD 63
      let ctx := if other then (s.thr.reg b).toNat / 2 ^ 32 % 2 ^ 16 else s.hart.ctx
      (ctx = s.hart.ctx ∨ s.thr.super = true) → s.held false = false →
      exec (.pgmig a b) s = .next (done (s.migPost
        { va := s.thr.reg a, ctx := ctx, tier := (s.thr.reg b).setWidth 2, notify := (s.thr.reg b).getLsbD 62
          core := s.loc, team := s.hart.team, hart := s.hart.hartid, user := !s.thr.super }))) ∧
    (∀ (e : BitVec 4) (gr : Group) (m : Nat), Ready (.bwred d a e) [a, e ++ 0#1, e ++ 1#1] s → (∀ k, s.who ≠ .mt k) →
      s.group ((s.thr.reg a).toNat % 1024) = some gr → memberBit s gr s.loc = m → m ≠ 0 →
      s.held true = false → Free [d, d + 1] s → s.thr.fillRoom = true →
      let n := (s.thr.reg a).toNat % 1024
      let q := BitVec.ofNat 32 ((s.thr.reg a).toNat / 2 ^ 32)
      let i := s.thr.reg (e ++ 0#1)
      let v := s.thr.reg (e ++ 1#1)
      exec (.bwred d a e) s = .next (done
        ((s.startFill [d, d + 1] (.bell n q i v ((s.thr.reg a).getLsbD 10) s.gts)).bwPost n q m (i, v))))

/-- Two-source vector integer instructions compute the results of R147 to R150 at their active elements. (R146, R147,
R148, R149, R150, R119) -/
def Obligations.VectorIntegerResults : Prop :=
  ∀ (d a b : BitVec 5) (p : BitVec 6) (s : State),
    (∀ row ∈ vintTable, Computes (row.op d a b p) [] (some a) (some b) d row.acc (fun s => actives s p) EState.wd
      (fun s' i j => low s'.est (row.val s'.est (valD s' i d j) (valA s'.est i j) (valB s'.est i j))) s) ∧
    Computes (.vssa d a b p) [] (some a) (some b) d true (fun s => actives s p) EState.wd
      (fun s' i j => low s'.est (valD s' i d j + (if ternBits i j = 1 then valA s'.est i j
        else if ternBits i j = 3 then -valA s'.est i j else 0))) s ∧
    Computes (.vshl d a b p) [] (some a) (some b) d false (fun s => actives s p) EState.wd
      (fun s' i j => low s'.est (valA s'.est i j * 2 ^ i.rawB (min s'.est.wb 5) false j)) s ∧
    Computes (.vshr d a b p) [] (some a) (some b) d false (fun s => actives s p) EState.wd
      (fun s' i j => low s'.est (shiftDown s'.est (i.rawB (min s'.est.wb 5) false j) (valA s'.est i j))) s ∧
    Computes (.vsel d a b p) [] (some a) (some b) d false
      (fun s => topJs s.hart s.est (laneBase s.hart s.who)) EState.wd
      (fun s' i j => low s'.est (if predAt s'.hart s'.est i.base p j then valA s'.est i j else valB s'.est i j)) s

/-- Vector instructions with a scalar compute the results of R151, R152 and R174. (R151, R152, R174, R192) -/
def Obligations.VectorScalarResults : Prop :=
  ∀ (d a b : BitVec 5) (p : BitVec 6) (s : State),
    (∀ row ∈ vintsTable, Computes (row.op d a b p) [b] (some a) none d row.acc (fun s => actives s p) EState.wd
      (fun s' i j => low s'.est (row.val s'.est (valD s' i d j) (valA s'.est i j) (valS s'.est (s'.thr.reg b)))) s) ∧
    Computes (.vshls d a b p) [b] (some a) none d false (fun s => actives s p) EState.wd
      (fun s' i j => low s'.est (valA s'.est i j * 2 ^ ((s'.thr.reg b).toNat % 64))) s ∧
    Computes (.vshrs d a b p) [b] (some a) none d false (fun s => actives s p) EState.wd
      (fun s' i j => low s'.est (shiftDown s'.est ((s'.thr.reg b).toNat % 64) (valA s'.est i j))) s ∧
    Computes (.vbcast d b p) [b] none none d false (fun s => actives s p) EState.wd
      (fun s' _ _ => low s'.est (valS s'.est (s'.thr.reg b))) s ∧
    Computes (.vrand d a b p) [b] (some a) none d false (fun s => actives s p) EState.wd
      (fun s' i j => ((mix (s'.thr.reg b) (word (i.rawA s'.est.wa false j))).toNat / 2 ^ (64 - s'.est.wd), 0)) s ∧
    (Ready (.vslup d a b p) [b] s → ∀ s' i t, ReadsOut s (some a) none (some d) (actives s p)
        ((actives s p).filter (fun j => decide ((s.thr.reg b).toNat ≤ j))) s' i →
      Put s' i (some a) none d s'.est.wd ((i.act.filter (fun j => decide ((s'.thr.reg b).toNat ≤ j))).map
        (fun j => (j, (low s'.est (valA s'.est i (j - (s'.thr.reg b).toNat))).1))) 0 t →
          exec (.vslup d a b p) s = .next (done t)) ∧
    Computes (.vsldn d a b p) [b] (some a) none d false (fun s => actives s p) EState.wd
      (fun s' i j => low s'.est (if j + (s'.thr.reg b).toNat < s'.est.vl then valA s'.est i (j + (s'.thr.reg b).toNat)
        else 0)) s

/-- One-source vector instructions, VIDX and VPERM compute the results of R153 to R155 and R173. (R153, R154, R155,
R173) -/
def Obligations.VectorUnaryResults : Prop :=
  ∀ (d a b k : BitVec 5) (p : BitVec 6) (f t : BitVec 8) (s : State),
    let one := fun (ins : Instr) (v : EState → VIn → Nat → Int) =>
      Computes ins [] (some a) none d false (fun s => actives s p) EState.wd (fun s' i j => low s'.est (v s'.est i j)) s
    one (.vmov d a p) (fun x i j => i.rawA x.wd x.sa j) ∧
    one (.vnot d a p) (fun x i j => -valA x i j - 1) ∧
    one (.vneg d a p) (fun x i j => -valA x i j) ∧
    one (.vabs d a p) (fun x i j => ((valA x i j).natAbs : Int)) ∧
    one (.vcvt d a p) (fun x i j => valA x i j) ∧
    one (.vsatc d a p) (fun x i j =>
      if x.sd then max (-(2 ^ (x.wd - 1))) (min (valA x i j) (2 ^ (x.wd - 1) - 1))
      else max 0 (min (valA x i j) (2 ^ x.wd - 1))) ∧
    one (.vhad d a k p) (fun x i j => ((List.range (2 ^ k.toNat)).map (fun n =>
      let e := j / 2 ^ k.toNat * 2 ^ k.toNat + n
      if e ∈ i.act then
        (if (List.range 64).countP (fun c => (j % 2 ^ k.toNat).testBit c && n.testBit c) % 2 = 0 then valA x i e
          else -valA x i e)
      else 0)).sum) ∧
    Computes (.vidx d f t) [] none none d false (fun s => topJs s.hart s.est (laneBase s.hart s.who)) EState.wd
      (fun s' _ j => low s'.est (f.toInt + j * t.toInt)) s ∧
    Computes (.vperm d a b p) [] (some a) (some b) d false (fun s => actives s p) EState.wd
      (fun s' i j => low s'.est (if i.rawB s'.est.wb false j < s'.est.vl then valA s'.est i (i.rawB s'.est.wb false j)
        else 0)) s

/-- Float instructions compute an exact value and convert it once to format D. (R178, R179, R180, R181, R182, R187,
R189) -/
def Obligations.VectorFloatResults : Prop :=
  ∀ (d a b : BitVec 5) (p : BitVec 6) (s : State),
    let two := fun (ins : Instr) (acc : Bool) (v : State → VIn → Nat → Nat × BitVec 4) =>
      Computes ins [] (some a) (some b) d acc (fun s => actives s p) EState.fwd v s
    let one := fun (ins : Instr) (v : State → VIn → Nat → Nat × BitVec 4) =>
      Computes ins [] (some a) none d false (fun s => actives s p) EState.fwd v s
    two (.fadd d a b p) false (fun s' i j => asD s'.est (numAdd (numA s'.est i j) (numB s'.est i j))) ∧
    two (.fsub d a b p) false (fun s' i j => asD s'.est (numAdd (numA s'.est i j) (numB s'.est i j).neg)) ∧
    two (.fmul d a b p) false (fun s' i j => asD s'.est (numMul (numA s'.est i j) (numB s'.est i j))) ∧
    two (.fma d a b p) true (fun s' i j =>
      let q := numMul (numA s'.est i j) (numB s'.est i j)
      let r := numAdd (numD s' i d j) q.1
      asD s'.est (r.1, r.2 ||| q.2)) ∧
    two (.fmin d a b p) false (fun s' i j => ((s'.est.toD (numMin (numA s'.est i j) (numB s'.est i j))).1, 0)) ∧
    two (.fmax d a b p) false (fun s' i j => ((s'.est.toD (numMax (numA s'.est i j) (numB s'.est i j))).1, 0)) ∧
    two (.fscl d a b p) false (fun s' i j => s'.est.toD ((numA s'.est i j).scale (valB s'.est i j))) ∧
    one (.fabs d a p) (fun s' i j => ((s'.est.toD (numA s'.est i j).abs).1, 0)) ∧
    one (.fneg d a p) (fun s' i j => ((s'.est.toD (numA s'.est i j).neg).1, 0)) ∧
    one (.fcvt d a p) (fun s' i j => s'.est.toD (numA s'.est i j)) ∧
    one (.fcvtf d a p) (fun s' i j => s'.est.toD (.ofInt (valA s'.est i j) 0)) ∧
    one (.fexp2 d a p) (fun s' i j => fexp2 s'.est.fd s'.est.wd s'.est.sd (numA s'.est i j)) ∧
    one (.frcp d a p) (fun s' i j => frcp s'.est.fd s'.est.wd s'.est.sd (numA s'.est i j)) ∧
    one (.mxscl d a p) (fun s' i j =>
      s'.est.toD (scaled (numA s'.est i j) (scaleByte s'.hart s'.est.eA (i.base + j)))) ∧
    one (.vqnt d a p) (fun s' i j => quantize s'.est.fd s'.est.wd s'.est.sd (numA s'.est i j)) ∧
    Computes (.fcvti d a p) [] (some a) none d false (fun s => actives s p) EState.wd
      (fun s' i j => Machine.toD 0 s'.est.wd s'.est.sd (numA s'.est i j)) s

/-- The sum and the product of two finite values are exact, comparison follows the values, and FEXP2 and FRCP truncate
exact values. (R126, R127, R128, R131, R132, R134, R182, R183) -/
def Obligations.ExactFloatArithmetic : Prop :=
  ∀ (na nb : Bool) (ma mb : Nat) (ea eb : Int),
    let x := Machine.Num.fin na ma ea
    let y := Machine.Num.fin nb mb eb
    (∃ n m e, numAdd x y = (.fin n m e, 0) ∧
      (∀ b, b ≤ e → b ≤ ea → b ≤ eb → units b n m e = units b na ma ea + units b nb mb eb) ∧
      (ma ≠ 0 → mb ≠ 0 → m = 0 → n = false)) ∧
    (∃ n m e, numMul x y = (.fin n m e, 0) ∧ n = (na ^^ nb) ∧
      ∀ b c, b ≤ ea → c ≤ eb → units (b + c) n m e = units b na ma ea * units c nb mb eb) ∧
    (∀ b, b ≤ ea → b ≤ eb →
      (numLt x y = true ↔ units b na ma ea < units b nb mb eb) ∧
      (numEq x y = true ↔ units b na ma ea = units b nb mb eb)) ∧
    (∀ z, numLt .nan z = false ∧ numLt z .nan = false ∧ numEq .nan z = false ∧ numEq z .nan = false) ∧
    (∀ (wd : Nat) (sd : Bool), ∀ code ≤ 10, Exp2Says code wd sd ∧ RcpSays code wd sd) ∧
    fexp2 1 32 false (.fin true 3 (-1)) = (0x3EB504F3, flagNX) ∧ frcp 1 32 false (.fin false 3 0) = (0x3EAAAAAA, flagNX)

/-- A value converted to a format is truncated toward zero, or takes what its range and special values give. (R126,
R127, R128, R129, R131, R132, R189) -/
def Obligations.FloatConversionTruncates : Prop :=
  (∀ (wd : Nat) (sd : Bool), ∀ code ≤ 10, ConversionSays code wd sd ∧ QuantizeSays code wd sd) ∧
    quantize 9 2 false (numOf 1 32 true 0x4039999A) = (1, flagOF ||| flagNX) ∧
    quantize 9 2 false (numOf 1 32 true 0xBF19999A) = (0, flagNX) ∧
    quantize 9 2 false (numOf 1 32 true 0xBFC00000) = (3, flagNX)

/-- MXQNT, MXBDOT and EMOV work on blocks of 32 elements. (R130, R134, R184, R188, R190, R191) Choice of the model:
the NV flag of a block whose terms hold a NaN beside infinities of both signs, and the spool append of an inactive
element (notes/assumptions/58.md). -/
def Obligations.MxBlockResults : Prop :=
  ∀ (d a b : BitVec 5) (p : BitVec 6) (s : State),
    (Ready (.mxqnt d a p) [] s → ∀ s' i t, Reads s (some a) none (some d) false (actives s p) s' i →
      let q := mxQuantize s'.est i
      Put s' i (some a) none d s'.est.fwd q.2.1 q.2.2 t →
        exec (.mxqnt d a p) s =
          .next (done (t.setHart (t.hart.setScales s'.est.eD (q.1.map (fun k => (i.base / 32 + k.1, k.2))))))) ∧
    (Ready (.mxbdot d a b p) [] s → ∀ s' i t,
      ReadsOut s (some a) (some b) (some d) (actives s p) (List.range ((s.est.vl + 31) / 32)) s' i →
      let rs := (List.range ((s'.est.vl + 31) / 32)).map (fun k =>
        (k, asD s'.est (blockDot s'.hart s'.est i (i.act.filter (fun j => decide (j / 32 = k))))))
      Put s' i (some a) (some b) d s'.est.fwd (rs.map (fun r => (r.1, r.2.1))) (orAll (rs.map (fun r => r.2.2))) t →
        exec (.mxbdot d a b p) s = .next (done t)) ∧
    (∀ e f : BitVec 4, Ready (.emov e f) [] s → ∃ t : State, exec (.emov e f) s = .next (done t) ∧ t = s.setHart t.hart ∧
      (∀ lane, lane / 32 < (s.hart.scales[e.toNat]'e.isLt).length → (s.hart.ds = true → lane < 8192) → scaleByte t.hart e lane =
        if laneBase s.hart s.who / 32 ≤ lane / 32 ∧ lane / 32 < laneBase s.hart s.who / 32 + vlmaxOf s.hart s.who / 32
        then scaleByte s.hart f lane else scaleByte s.hart e lane) ∧
      ∀ g, g ≠ e → ∀ lane, scaleByte t.hart g lane = scaleByte s.hart g lane) ∧
    (∀ code emax, (code, emax) ∈ mxKinds → SatSays code) ∧
    (∀ (x : EState) (i : VIn), MxQuantizeSays x i) ∧
    (∀ (h : Hart) (x : EState) (i : VIn) (js : List Nat), BlockDotSays h x i js)

/-- Vector compares and predicate instructions write the elements they name. (R156, R183, R116, R157, R158, R159) -/
def Obligations.CompareAndPredicateResults : Prop :=
  (∀ (d : BitVec 6) (a b : BitVec 5) (p : BitVec 6) (s s' : State) (i : VIn),
    let writes := fun (ins : Instr) (va vb : Option (BitVec 5)) (holds : Nat → Prop) =>
      ∃ ones : List Nat, exec ins s = .next (done (putPred s' i va vb d ones)) ∧ ∀ j, j ∈ ones ↔ j ∈ i.act ∧ holds j
    (∀ row ∈ cmpTable, Ready (row.1 d a b p) [] s → Reads s (some a) (some b) none false (actives s p) s' i →
      writes (row.1 d a b p) (some a) (some b) (fun j => row.2 (valA s'.est i j) (valB s'.est i j))) ∧
    (∀ row ∈ cmpsTable, Ready (row.1 d a b p) [b] s → Reads s (some a) none none false (actives s p) s' i →
      writes (row.1 d a b p) (some a) none (fun j => row.2 (valA s'.est i j) (valS s'.est (s'.thr.reg b)))) ∧
    (∀ row ∈ fcmpTable, Ready (row.1 d a b p) [] s → Reads s (some a) (some b) none false (actives s p) s' i →
      writes (row.1 d a b p) (some a) (some b) (fun j => row.2 (numA s'.est i j) (numB s'.est i j)))) ∧
  (∀ (d a b : BitVec 6) (g : BitVec 5) (s : State), CleanLanes s →
    let q := pred s
    (Ready (.pand d a b) [] s → exec (.pand d a b) s = .next (done (setTop s d (fun j => q a j && q b j)))) ∧
    (Ready (.por d a b) [] s → exec (.por d a b) s = .next (done (setTop s d (fun j => q a j || q b j)))) ∧
    (Ready (.pxor d a b) [] s → exec (.pxor d a b) s = .next (done (setTop s d (fun j => q a j != q b j)))) ∧
    (Ready (.pandn d a b) [] s → exec (.pandn d a b) s = .next (done (setTop s d (fun j => q a j && !q b j)))) ∧
    (Ready (.pnot d a) [] s → exec (.pnot d a) s = .next (done (setTop s d (fun j => !q a j)))) ∧
    (Ready (.pmov d a) [] s → exec (.pmov d a) s = .next (done (setTop s d (q a)))) ∧
    (Ready (.pall d) [] s → exec (.pall d) s = .next (done (setTop s d (fun _ => true)))) ∧
    (Ready (.pclr d) [] s → exec (.pclr d) s = .next (done (setTop s d (fun _ => false)))) ∧
    (Ready (.seamrd d) [] s → exec (.seamrd d) s = .next (done (setTop s d (seamAt s)))) ∧
    (Ready (.mtop d) [] s → exec (.mtop d) s = .next (done (s.setHart
      (s.hart.setPred (laneBase s.hart s.who) d (List.range s.est.vl) (topList s))))) ∧
    (Ready (.seamwr a) [] s → ∃ t : State, exec (.seamwr a) s = .next (done t) ∧
      t = s.setHart { s.hart with seam := t.hart.seam } ∧
      ∀ l, l < 16384 → t.hart.seam.getLsbD l =
        if (vlLanes s).getLsbD l then (predPlane s a).getLsbD l else s.hart.seam.getLsbD l) ∧
    (Ready (.pcnt g a) [] s → Free [g] s → s.thr.fillRoom = true →
      exec (.pcnt g a) s = .next (done (s.startFill [g] (.value [word ((topList s).countP (q a))])))) ∧
    (Ready (.pffs g a) [] s → Free [g] s → s.thr.fillRoom = true → ∃ v,
      exec (.pffs g a) s = .next (done (s.startFill [g] (.value [v]))) ∧
      ((∀ j ∈ topList s, q a j = false) → v = BitVec.allOnes 64) ∧
      (∀ j ∈ topList s, q a j = true → (∀ k ∈ topList s, q a k = true → j ≤ k) → v = word j)) ∧
    (Ready (.pfilt d a b) [] s →
      ((∃ j ∈ topList s, q a j = true ∧ q b j = true) →
        exec (.pfilt d a b) s = .next (done (setTop s d (fun j => q a j && q b j)))) ∧
      ((∀ j ∈ topList s, ¬(q a j = true ∧ q b j = true)) →
        let bit : BitVec 2 := if ∃ j ∈ topList s, q a j = true then 1 else 2
        let s1 := setTop s d (q a)
        exec (.pfilt d a b) s = .next (done (s1.setEst { s1.est with sampstat := s.est.sampstat ||| bit })))))

/-- MPUSH, MINV and MPOP move the mask stack over the lanes of their thread, and trap at its ends. (R117, R160) -/
def Obligations.MaskStackResults : Prop :=
  ∀ (a : BitVec 6) (s : State), CleanLanes s →
    (Ready (.mpush a) [] s → s.est.msdepth < 24 → ∃ t : State, exec (.mpush a) s = .next (done t) ∧
      t.est = { s.est with msdepth := s.est.msdepth + 1 } ∧
      ∀ l, l < 16384 → (levelAt t.hart (s.est.msdepth + 1)).getLsbD l =
        if (ownLanes s).getLsbD l then ((topPlane s.hart s.est).getLsbD l && (predPlane s a).getLsbD l)
        else (levelAt s.hart (s.est.msdepth + 1)).getLsbD l) ∧
    (Ready .minv [] s → s.est.msdepth ≠ 0 → s.est.msdepth ≤ 24 → ∃ t : State, exec .minv s = .next (done t) ∧ t.est = s.est ∧
      ∀ l, l < 16384 → (topPlane t.hart t.est).getLsbD l =
        if (ownLanes s).getLsbD l then
          ((levelAt s.hart (s.est.msdepth - 1)).getLsbD l && !(topPlane s.hart s.est).getLsbD l)
        else (topPlane s.hart s.est).getLsbD l) ∧
    (Ready .mpop [] s → s.est.msdepth ≠ 0 →
      exec .mpop s = .next (done (s.setEst { s.est with msdepth := s.est.msdepth - 1 }))) ∧
    (Ready (.mpush a) [] s → s.est.msdepth = 24 → exec (.mpush a) s = .next (s.takeTrap .stackOvf 2 s.thr.pc)) ∧
    (Ready .minv [] s → s.est.msdepth = 0 → exec .minv s = .next (s.takeTrap .stackOvf 2 s.thr.pc)) ∧
    (Ready .mpop [] s → s.est.msdepth = 0 → exec .mpop s = .next (s.takeTrap .stackOvf 2 s.thr.pc))

/-- Vector operands are read from registers and read spools, each element extended by its side. (R111, R146, R236,
R237, R238) -/
def Obligations.VectorOperandReads : Prop :=
  (∀ (s : State) (va vb : Option (BitVec 5)) (vd : BitVec 5) (a b : VSrc) (dst : Option Nat) (acc : Bool) (act : List Nat),
    Source s va a → Source s vb b →
    let base := laneBase s.hart s.who
    (Dest s vd dst → ∀ s', (match dst with | none => s' = s | some n => checkWrites s s.loc n 0 act = .ok s') →
      CleanLanes s' → laneBase s'.hart s'.who = base →
      Reads s va vb (some vd) acc act s' { a := a, b := b, dst := dst, act := act, base := base }) ∧
    (∀ out, Dest s vd dst → ∀ s', (match dst with
        | none => s' = s
        | some n => checkWrites s s.loc n 0 ((List.range s.est.vl).filter (fun j => act.contains j || out.contains j)) = .ok s') →
      CleanLanes s' → laneBase s'.hart s'.who = base →
      ReadsOut s va vb (some vd) act out s' { a := a, b := b, dst := dst, act := act, base := base }) ∧
    (acc = false → CleanLanes s →
      Reads s va vb none false act s { a := a, b := b, dst := none, act := act, base := base })) ∧
    (∀ (ps : List Plane) (w lane k : Nat) (sg : Bool), (rawAt lane (planesAt ps w sg)).testBit k =
      if h : k < w then
        if h' : k < ps.length then ps[k].getLsbD lane else sg && (ps.getLastD 0).getLsbD lane
      else false) ∧
    (∀ (base width j : Nat) (es : List Nat), j < es.length → base + es.length ≤ 16384 → (∀ e ∈ es, e < 2 ^ width) →
      some (rawAt (base + j) (stripPlanes base width 0 (es.map SpEl.data))) = es[j]?) ∧
    (∀ (w raw : Nat), 0 < w → raw < 2 ^ w →
      intVal w false raw = raw ∧ intVal w true raw = if raw < 2 ^ (w - 1) then (raw : Int) else (raw : Int) - 2 ^ w)

/-- A masked write changes exactly the listed elements of its destination, register or predicate. (R113, R116, R119,
R125, R133) -/
def Obligations.MaskedWriteRules : Prop :=
  (∀ (s : State) (i : VIn) (va vb : Option (BitVec 5)) (vd : BitVec 5) (wd : Nat) (res : List (Nat × Nat)) (fl : BitVec 4),
    i.dst = none → s.est.pfx.pend = false → (res.map (·.1)).Nodup →
    (∀ e ∈ res, i.base + e.1 < primaryLanes s ∧ e.2 < 2 ^ wd) →
      let t := putVec s i va vb vd wd res fl
      let kept := keptPlanes (s.est.vreg vd) wd s.est.sd
      (t.est.vreg vd).planes.length = wd ∧ (t.est.vreg vd).sd = s.est.sd ∧
      (∀ j v, (j, v) ∈ res → rawAt (i.base + j) (t.est.vreg vd).planes = v ∧
        (s.hart.ds = true → rawAt (i.base + j + 8192) (t.est.vreg vd).planes = v)) ∧
      (∀ l, l < primaryLanes s → (∀ e ∈ res, l ≠ i.base + e.1) →
        rawAt l (t.est.vreg vd).planes = rawAt l kept) ∧
      (∀ r, r ≠ vd → (t.est.vreg r).planes = (s.est.vreg r).planes) ∧
      t.thr = s.thr ∧ t.hart.preds = s.hart.preds ∧ t.mem = s.mem ∧ t.others = s.others ∧
      t.est.fstat = s.est.fstat ||| fl) ∧
    (∀ (h : Hart) (x : EState) (base : Nat) (p q : BitVec 6) (js ones : List Nat) (j : Nat),
    (∀ k ∈ js, base + k < if h.ds then 8192 else 16384) → (∀ k ∈ ones, k ∈ js) → base + j < (if h.ds then 8192 else 16384) →
      let h' := h.setPred base p js ones
      (p ≠ 0 → predAt h' x base p j = if j ∈ js then decide (j ∈ ones) else predAt h x base p j) ∧
      (q ≠ p → predAt h' x base q j = predAt h x base q j) ∧ predAt h' x base 0 j = decide (j < x.vl))

/-- A prefix lends its predicate, frees last-used sources and makes a copy of the destination. (R48, R49, R118) -/
def Obligations.PrefixEffects : Prop :=
  (∀ (s : State) (p : BitVec 6) (j : Nat), j ∈ actives s p ↔ j < s.est.vl ∧ pred s p j = true ∧
      (s.est.pfx.pend = true → s.est.pfx.pe = true → pred s s.est.pfx.pm j = !s.est.pfx.inv) ∧
      topAt s.hart s.est (laneBase s.hart s.who) j = true) ∧
    (∀ (s : State) (i : VIn) (va vb : Option (BitVec 5)) (vd : BitVec 5) (wd : Nat) (res : List (Nat × Nat)) (fl : BitVec 4),
      i.dst = none → s.est.pfx.pend = true →
        let t := putVec s i va vb vd wd res fl
        let x := s.est.pfx
        t.est.pfx.pend = false ∧
        (∀ r, va = some r → x.lua = true → r ≠ vd → (x.ce = true → r ≠ x.vc) → (t.est.vreg r).planes = []) ∧
        (∀ r, vb = some r → x.lub = true → r ≠ vd → (x.ce = true → r ≠ x.vc) → (t.est.vreg r).planes = []) ∧
        (x.ce = true → x.vc ≠ vd → res.map (·.1) = i.act → i.act.Nodup →
          (∀ e ∈ res, i.base + e.1 < primaryLanes s ∧ e.2 < 2 ^ wd) →
          (∀ j v, (j, v) ∈ res → rawAt (i.base + j) (t.est.vreg x.vc).planes = v) ∧
          ∀ l, l < primaryLanes s → (∀ j ∈ i.act, l ≠ i.base + j) → (va = some x.vc → x.lua = false) →
            (vb = some x.vc → x.lub = false) →
            rawAt l (t.est.vreg x.vc).planes = rawAt l (keptPlanes (s.est.vreg x.vc) wd s.est.sd)))

/-- Vector loads give each active element the value at its address, stop before an element that faults, and go on
there. (R65, R176, R223, R224, R237, R350) -/
def Obligations.VectorLoadResults : Prop :=
  (∀ (d a b : BitVec 5) (p : BitVec 6) (s : State), ∀ row ∈ vloadTable d a b p,
      Ready row.1 row.2.1 s → ∀ s1 i start js s2 vals t,
      MemReads (encode row.1) s p none row.2.2.1 (some d) (actives s p) s1 i start js →
      memLoop (readOne (row.2.2.2 s1 i) (memClass s1.est row.2.2.1) (ebOf s1.est.wd) s1.est.wd) js s1 [] = .all s2 vals →
      Positions s2 i start vals t →
        exec row.1 s = .next (done (loadedVec s t i start d s1.est.wd s1.est.sd vals))) ∧
    (∀ (d a b : BitVec 5) (p : BitVec 6) (s : State), ∀ row ∈ vloadTable d a b p,
      Ready row.1 row.2.1 s → ∀ s1 i start js s2 vals j why t,
      MemReads (encode row.1) s p none row.2.2.1 (some d) (actives s p) s1 i start js →
      memLoop (readOne (row.2.2.2 s1 i) (memClass s1.est row.2.2.1) (ebOf s1.est.wd) s1.est.wd) js s1 [] = .stop s2 vals j why →
      Positions s2 i start vals t → ∃ u v,
        StandsAt (appended t t i start s1.est.wd s1.est.sd vals) i start j t.est.vrstate 0 (some (d,
          writeElems t.hart i.base (destPlanes t i none d s1.est.wd s1.est.sd start start) vals, [])) u ∧
        stopsWith u why = some v ∧ exec row.1 s = .next v) ∧
    (∀ (f : Nat → Word) (cls : BitVec 2) (eb wd : Nat), InOrder (readOne f cls eb wd) ∧ ∀ (s s' : State) (j : Nat),
      (∀ c, resolveThr s .read (f j) eb = .fail c s' → readOne f cls eb wd s j = .stop s' (.trap c (f j))) ∧
      (resolveThr s .read (f j) eb = .stall s' → readOne f cls eb wd s j = .stop s' .hold) ∧
      (∀ p, resolveThr s .read (f j) eb = .ok p s' → s'.lostAt s'.loc p eb = true →
        ∃ t, readOne f cls eb wd s j = .stop t (.trap .dataPoison (f j)))) ∧
    (∀ (s : State) (i : VIn) (va : Option (BitVec 5)) (d : BitVec 5) (wd : Nat) (sd : Bool) (start j : Nat) (q : Pending),
      i.dst = none → 0 < start → s.est.pending = some q → q.vd = d → q.planes.length = wd → j < start →
      laneBase s.hart s.who + j < 16384 →
        rawAt (laneBase s.hart s.who + j) (destPlanes s i va d wd sd start start) =
          rawAt (laneBase s.hart s.who + j) q.planes) ∧
    (∀ (f : Nat → Word) (cls : BitVec 2) (eb wd : Nat) (s s' : State) (j : Nat) (p : Place),
      resolveThr s .read (f j) eb = .ok p s' →
      s'.lostAt s'.loc p eb = false → ∃ t, readOne f cls eb wd s j = .ok t (ofBytes (s'.loadAt p eb) % 2 ^ wd) ∧ t.mem = s'.mem)

/-- Vector stores write each active element at its address and no other byte, and stop before an element that faults.
(R65, R223, R224, R226) -/
def Obligations.VectorStoreResults : Prop :=
  (∀ (v a b : BitVec 5) (p : BitVec 6) (s : State), ∀ row ∈ vstoreTable v a b p,
      Ready row.1 row.2.1 s → ∀ s1 i start js s2 vals,
      MemReads (encode row.1) s p (some v) row.2.2.1 none (actives s p) s1 i start js →
      memLoop (checkOne (row.2.2.2 s1 i) (ebOf s1.est.wd)) js s1 [] = .all s2 vals →
        exec row.1 s = .next (done (storedVec s s2 i start
          (fun t j => writeOne (row.2.2.2 s1 i j) (memClass s1.est row.2.2.1) (elementBytes s1.est i j) t) (vals.map (·.1))
          (vals.map (fun e => (e.2, ebOf s1.est.wd)))))) ∧
    (∀ (v a b : BitVec 5) (p : BitVec 6) (s : State), ∀ row ∈ vstoreTable v a b p,
      Ready row.1 row.2.1 s → ∀ s1 i start js s2 vals j why,
      MemReads (encode row.1) s p (some v) row.2.2.1 none (actives s p) s1 i start js →
      memLoop (checkOne (row.2.2.2 s1 i) (ebOf s1.est.wd)) js s1 [] = .stop s2 vals j why → ∃ u v,
        StandsAt ((vals.map (·.1)).foldl
          (fun t j => writeOne (row.2.2.2 s1 i j) (memClass s1.est row.2.2.1) (elementBytes s1.est i j) t)
          (s2.clearWhole (vals.map (fun e => (e.2, ebOf s1.est.wd))))) i start j s2.est.vrstate 0 none u ∧
        stopsWith u why = some v ∧ exec row.1 s = .next v) ∧
    (∀ (f : Nat → Word) (eb : Nat), InOrder (checkOne f eb) ∧ ∀ (s s' : State) (j : Nat),
      (∀ c, resolveThr s .write (f j) eb = .fail c s' → checkOne f eb s j = .stop s' (.trap c (f j))) ∧
      (resolveThr s .write (f j) eb = .stall s' → checkOne f eb s j = .stop s' .hold) ∧
      (∀ p, resolveThr s .write (f j) eb = .ok p s' → ∃ n, checkOne f eb s j = .ok s' n ∧ ∀ pa, p = .phys pa → n = pa)) ∧
    (∀ (a : Word) (cls : BitVec 2) (bs : List Byte) (s s' : State) (p : Place), resolveThr s .write a bs.length = .ok p s' →
      ∀ x, memGet (writeOne a cls bs s).mem x = match p with
        | .spad _ _ => memGet s'.mem x
        | .phys pa => if h : pa ≤ x ∧ x < pa + bs.length then bs[x - pa]'(by omega) else memGet s'.mem x)

/-- VLDL and VSTL move slice rows; PLD and PST move predicates in packed bytes. (R227, R228, R244) -/
def Obligations.SliceAndPredicateMemoryResults : Prop :=
  ∀ (s : State) (v a : BitVec 5) (p : BitVec 6),
    (Ready (.vldl v a p) [a] s → (s.thr.reg a).toNat + s.est.wd ≤ 256 →
      sliceHeld s (s.thr.reg a).toNat s.est.wd = false → ∀ s' i t,
      Reads s none none (some v) false (actives s p) s' i →
      Put s' i none none v s'.est.wd (i.act.map (fun j =>
        (j, rawAt (i.base + j) (((s'.hart.slice.toList.drop (s.thr.reg a).toNat).take s'.est.wd))))) 0 t →
        exec (.vldl v a p) s = .next (done t)) ∧
    (Ready (.vstl v a p) [a] s → (s.thr.reg a).toNat + s.est.wd ≤ 256 →
      sliceHeld s (s.thr.reg a).toNat s.est.wd = false → ∀ s' i,
      Reads s (some v) none none false (actives s p) s' i → s'.est.wd = s.est.wd →
      ∃ t : State, exec (.vstl v a p) s = .next (done (vdone t i 0)) ∧ t = s'.setHart { s'.hart with slice := t.hart.slice, damaged := t.hart.damaged } ∧
        ∀ r l, r < 256 → l < primaryLanes s' → (t.hart.slice[r]!).getLsbD l =
          if (s.thr.reg a).toNat ≤ r ∧ r < (s.thr.reg a).toNat + s.est.wd ∧ i.base ≤ l ∧ l - i.base ∈ i.act
          then (i.rawA s'.est.wd s'.est.sd (l - i.base)).testBit (r - (s.thr.reg a).toNat)
          else (s'.hart.slice[r]!).getLsbD l) ∧
    (Ready (.pld a p) [a] s → s.held false = false → CleanLanes s → ∀ t,
      parts .read (s.thr.reg a) (loadPart (laneBase s.hart s.who) p)
        (predParts (s.thr.reg a) (s.est.vstart.toNat / 8) ((s.est.vl + 7) / 8)) s = some t →
        exec (.pld a p) s = .next (done (t.setEst { t.est with vstart := 0, pending := none }))) ∧
    (Ready (.pst a p) [a] s → s.held false = false → CleanLanes s → ∀ t,
      parts .write (s.thr.reg a) (storePart (laneBase s.hart s.who) p)
        (predParts (s.thr.reg a) (s.est.vstart.toNat / 8) ((s.est.vl + 7) / 8)) s = some t →
        exec (.pst a p) s = .next (done (t.setEst { t.est with vstart := 0, pending := none })))

/-- MXLD, MXST, VVRLD and VVRST act on their active blocks and elements and complete. (R130, R184, R229, R230, R329,
R330, R331, R335) -/
def Obligations.MxAndVersionedVectorResults : Prop :=
  ∀ (s : State) (v a b : BitVec 5) (e : BitVec 4) (p : BitVec 6) (s1 s2 : State) (i : VIn) (start : Nat) (js : List Nat)
    (vals : List (Nat × Nat)),
    let ga := s1.thr.reg a
    (Ready (.mxld v a e p) [a] s → (mxEmax s.est.fd).isSome = true → (s.thr.reg a).toNat % 16 = 0 →
      MemReads (encode (.mxld v a e p)) s p none none (some v) (actives s p) s1 i start js →
      mxLoad e ga s1.est.fwd i.base (blocksOf js) s1 [] = .all s2 vals → ∀ t, Positions s2 i start vals t →
        exec (.mxld v a e p) s = .next (done (loadedVec s t i start v s1.est.fwd (decide (s1.est.fd = 10)) vals))) ∧
    (Ready (.mxst v a e p) [a] s → (mxEmax s.est.fd).isSome = true → (s.thr.reg a).toNat % 16 = 0 →
      MemReads (encode (.mxst v a e p)) s p (some v) none none (actives s p) s1 i start js →
      mxStore e ga s1.est.fwd i s1.est.sd (blocksOf js) s1 [] = .all s2 vals →
        exec (.mxst v a e p) s = .next (done (sameVr s (completed
          ((vals.map (·.1)).foldl (fun t x => t.movedTo t.loc (.phys x) 1) (s2.clearWhole vals)) i start 0)))) ∧
    (Ready (.vvrld v a b p) [a, b] s → MemReads (encode (.vvrld v a b p)) s p none none (some v) (actives s p) s1 i start js →
      memLoop (versReadOne ga s1.est.wd (versAsks s1 ga ((s1.thr.reg b).setWidth 32) js)) js s1 [] = .all s2 vals →
      ∀ t, Positions s2 i start vals t →
        exec (.vvrld v a b p) s = .next (done (loadedVec s t i start v s1.est.wd s1.est.sd vals))) ∧
    (Ready (.vvrst v a b p) [a, b] s → s.held true = false →
      MemReads (encode (.vvrst v a b p)) s p (some v) none none (actives s p) s1 i start js →
      memLoop (versWriteOne ga ((s1.thr.reg b).setWidth 32)
        (fun j => BitVec.ofInt 64 (intVal s1.est.wd s1.est.sd (i.rawA s1.est.wd s1.est.sd j))) (srcSpools [i.a])) js s1 [] = .all s2 vals →
        exec (.vvrst v a b p) s = .next (done (sameVr s (completed s2 i start 0)))) ∧
    (∀ (off width base : Nat) (sd : Bool) (bl : List (Nat × List Nat)), SpadBlocks s ga off width base bl →
      MxLoads s e ga off width base bl ∧ (base = i.base → MxStores s e ga off width i sd bl)) ∧
    (∀ (w : BitVec 32) (width j : Nat) (val : Nat → Word) (ns : List Nat), s.thr.wait = none →
      (j ∈ js → VvrldElement s ga w js width j) ∧ VvrstElement s ga w val ns j)

/-- SETVL, SETVLX, SETVLF, VKILL and SETEW set the vector configuration. (R142, R143, R144, R145, R164) -/
def Obligations.VectorLengthResults : Prop :=
  ∀ (d a : BitVec 5) (s : State),
    let v := newVl s (s.thr.reg a)
    (Ready (.setvl d a) [a] s → Free [d] s → exec (.setvl d a) s = .next (done (vlSet s d v))) ∧
    (∀ o, Ready (.setvlx d a o) [a] s → Free [d] s → exec (.setvlx d a o) s = .next
      (if v = 0 then jumped (vlSet s d v) (target s.thr.pc 16 o) else done (vlSet s d v))) ∧
    (∀ x, Ready (.setvlf d a) [] s → Free [d] s → Source s (some a) x → CleanLanes s →
      laneBase s.hart s.who + vlmaxOf s.hart s.who ≤ primaryLanes s →
      let lens := (List.range s.est.vl).map (fun j => rawAt (laneBase s.hart s.who + j) x.planes)
      let lim := newVl s 16384
      ∃ (t : State) (k : Nat), exec (.setvlf d a) s = .next (done t) ∧ k ≤ lens.length ∧ (lens.take k).sum ≤ lim ∧
        (k < lens.length → lim < (lens.take (k + 1)).sum) ∧
        t.est.vl = (if k = 0 ∧ lens ≠ [] then lim else (lens.take k).sum) ∧ t.est.ccnt = BitVec.ofNat 15 k ∧
        t.thr.reg d = word t.est.vl ∧ t.thr.isFull d = true ∧ t.mem = s.mem ∧
        ∀ j, j < vlmaxOf s.hart s.who → (seamAt t j = true ↔
          (k = 0 ∧ lens ≠ [] ∧ j = 0) ∨ ∃ r, r < k ∧ 0 < lens.getD r 0 ∧ j = (lens.take r).sum)) ∧
    (Ready (.vkill a) [a] s → ∃ t : State, exec (.vkill a) s = .next (done t) ∧
      t = s.setEst { s.est with vregs := t.est.vregs } ∧
      ∀ r : BitVec 5, t.est.vreg r = if (s.thr.reg a).getLsbD r.toNat then {} else s.est.vreg r) ∧
    (∀ (wa wb : BitVec 4) (wd : BitVec 5) (x y z : BitVec 1), Ready (.setew wa wb wd x y z) [] s →
      exec (.setew wa wb wd x y z) s = .next (done (s.setEst { s.est with ew := z ++ y ++ x ++ wd ++ wb ++ wa })))

/-- SPLIT starts micro-threads, JOIN ends them, MTID and PFX. (R23, R47, R74, R208, R210, R213) Choice of the model:
that SPLIT at the end of a body also ends the iteration of the parent (notes/assumptions/47.md). -/
def Obligations.MicroThreadResults : Prop :=
  ∀ (s : State),
    (∀ n : BitVec 5, Ready (.split n) [] s → s.who = .e → s.thr.fills = [] → s.thr.posted = [] →
      s.core.unstarted .e = false → s.hart.dsPending = none → ∃ t : State, exec (.split n) s = .next t ∧ t.hart.split = n.toNat ∧
        t.hart.levels = s.hart.levels ∧ t.hart.seam = s.hart.seam ∧ t.mem = s.saveSplit.mem ∧
        (∃ sv, t.hart.splitSave = some sv ∧ sv.thr.g = s.thr.g ∧ sv.thr.full = s.thr.full ∧
          sv.thr.loops = (bodyEnd s.thr.clvl s.thr.pc s.thr.loops).1 ∧
          sv.thr.rets = s.thr.rets ∧ sv.thr.clvl = s.thr.clvl ∧ sv.ex = s.est) ∧
        ∀ k : Fin 16, k.val < n.toNat →
          let m := t.hart.mts[k]
          m.thr.pc = s.thr.pc + 4 ∧ m.thr.g = s.thr.g ∧ m.thr.full = s.thr.full ∧ m.thr.clvl = s.thr.clvl ∧
          m.thr.loops = [] ∧ m.thr.rets = [] ∧
          m.ex = { s.est with vl := min s.est.vl ((if s.hart.ds then 8192 else 16384) / n.toNat) }) ∧
    (∀ k, Ready .join [] s → s.who = .mt k → s.thr.fills = [] → s.thr.posted = [] → s.thr.isFull 0 = true →
      s.core.unstarted s.who = false →
      let s1 := s.setThr { s.thr with run := .joined, wait := none }
      (s1.hart.allJoined = false → exec .join s = .next s1) ∧
      (∀ sv, s1.hart.allJoined = true → s.hart.splitSave = some sv → ∃ t : State, exec .join s = .next t ∧
        let saved := s1.loadSplit sv
        let next := bodyEnd sv.thr.clvl s1.hart.mts[(0 : Fin 16)].thr.pc sv.thr.loops
        t.who = .e ∧ t.hart.split = 0 ∧ t.hart.splitSave = none ∧ t.hart.levels = saved.1 ∧ t.hart.seam = saved.2.1 ∧
        t.thr.rets = saved.2.2 ∧ t.thr.pc = next.2 ∧ t.thr.loops = next.1 ∧
        t.thr.clvl = sv.thr.clvl ∧ (s.hart.park = none → t.thr.run = .running) ∧ (∀ r, r ≠ 0 → t.thr.reg r = sv.thr.reg r) ∧
        ∀ b, b < 64 → (t.thr.reg 0).getLsbD b = ((sv.thr.reg 0).getLsbD b ||
          (b == 0 && (s.hart.mts.toList.take s.hart.split).any (fun m => (m.thr.reg 0).getLsbD 0))))) ∧
    (∀ d, Ready (.mtid d) [] s → Free [d] s → exec (.mtid d) s = .next (wrote s d (word (match s.who with
      | .mt k => k.val
      | _ => 0)))) ∧
    (∀ (p : BitVec 6) (i : BitVec 1) (v : BitVec 5) (c e l u : BitVec 1), Ready (.pfx p i v c e l u) [] s →
      exec (.pfx p i v c e l u) s = .next (done (s.setEst { s.est with
        pfx := { pend := true, pm := p, inv := i == 1, vc := v, ce := c == 1, pe := e == 1, lua := l == 1, lub := u == 1 } })))

/-- The pedigree instructions read and change the trees of the hart. (R196, R197, R201, R202, R203, R204, R205, R206)
-/
def Obligations.PedigreeResults : Prop :=
  (∀ (l : List PgNode) (x : Nat), Ordered l → x < l.length →
    (∀ k, k ∈ pathOf l x ↔ ∃ n, up l n x = some k) ∧ (pathOf l x).getLast? = some x ∧
    (∀ i a b, (pathOf l x)[i]? = some a → (pathOf l x)[i + 1]? = some b → up l 1 b = some a) ∧
    (∀ a, (pathOf l x)[0]? = some a → up l 1 a = none)) ∧
    (∀ (d a b c : BitVec 5) (t : BitVec 2) (s : State),
    let l := s.hart.tree t
    let x := (s.thr.reg a).toNat
    ((∀ k, s.who ≠ .mt k) →
      (Ready (.pgclr t) [] s → exec (.pgclr t) s = .next (done (s.setHart (s.hart.setTree t [])))) ∧
      (Ready (.pgadd d a b t) [a, b] s → Free [d] s → s.hart.liveNodes < 1024 →
        (s.thr.reg a = BitVec.allOnes 64 ∧ l = [] ∨
          s.thr.reg a ≠ BitVec.allOnes 64 ∧ x < l.length ∧ depthAt l x ≠ 255) →
        ∃ n : PgNode, exec (.pgadd d a b t) s = .next (wrote (s.setHart (s.hart.setTree t (l ++ [n]))) d (word l.length)) ∧
          n.token = (s.thr.reg b).setWidth 20 ∧ n.dlp = (s.thr.reg b >>> 20).setWidth 16 ∧
          n.uflags = (s.thr.reg b >>> 36).setWidth 6 ∧
          (s.thr.reg a = BitVec.allOnes 64 → n.parent = 0x3FF ∧ n.depth = 0) ∧
          (s.thr.reg a ≠ BitVec.allOnes 64 → n.parent = (s.thr.reg a).setWidth 10 ∧ n.depth = depthAt l x + 1)) ∧
      (Ready (.pgprune d a b t) [a] s → Free [d] s → x < l.length → ∀ s' i u,
        Reads s none none (some b) false (topList s) s' i →
        Put s' i none none b s'.est.wd (i.act.map (fun j => (j,
          (if j ∈ pathOf l x then depthAt l j else 2 ^ s'.est.wd - 1) % 2 ^ s'.est.wd))) 0 u →
          exec (.pgprune d a b t) s =
            .next (wrote (u.setHart (u.hart.setTree t (prune l x))) d (word (depthAt l x + 1))))) ∧
    (∀ q : BitVec 6, Ready (.pganc q a b t) [a, b] s → CleanLanes s → ∃ ones : List Nat,
      exec (.pganc q a b t) s = .next (done (s.setHart
        (s.hart.setPred (laneBase s.hart s.who) q (topList s) ones))) ∧
      ∀ j, j ∈ ones ↔ j ∈ topList s ∧ j / s.est.tilecols < s.est.tilerows ∧
        x + j / s.est.tilecols < l.length ∧ (s.thr.reg b).toNat + j % s.est.tilecols < l.length ∧
        (s.thr.reg b).toNat + j % s.est.tilecols ∈ pathOf l (x + j / s.est.tilecols)) ∧
    Computes (.pgpos d a t) [a] none none d false (fun s => nodeElems s l) EState.wd
      (fun s' _ j => (((s'.thr.reg a).toNat + depthAt l j) % 2 ^ s'.est.wd, 0)) s ∧
    (Ready (.pgcnt d a b t) [a] s → ∀ s' i u, Reads s none (some b) (some d) false (nodeElems s l) s' i →
      Put s' i none none d s'.est.wd (i.act.map (fun j => (j, (if x < l.length then
        (pathOf l x).countP (fun y => tokenAt l y == rawAt (i.base + j) i.b.planes % 2 ^ 20) else 0) % 2 ^ s'.est.wd))) 0 u →
        exec (.pgcnt d a b t) s = .next (done u)) ∧
    (Ready (.pgpath d a t) [a] s →
      (l.length ≤ x → exec (.pgpath d a t) s = .next (done (s.setEst { s.est with vl := 0 }))) ∧
      (x < l.length → let s1 := s.setEst { s.est with vl := depthAt l x + 1 }
        ∀ s' i u, Reads s1 none none (some d) false (topList s1) s' i →
        Put s' i none none d s'.est.wd
          (i.act.map (fun j => (j, tokenAt l ((pathOf l x).getD j 0) % 2 ^ s'.est.wd))) 0 u →
          exec (.pgpath d a t) s = .next (done u))) ∧
    (Ready (.pgrd d a c t) [a] s → Free [d] s → exec (.pgrd d a c t) s = .next (wrote s d
      (match l[x]? with | some n => n.read t x c.toNat | none => BitVec.allOnes 64))) ∧
    (Ready (.pgsize d t) [] s → Free [d] s → exec (.pgsize d t) s = .next (wrote s d (word l.length))))

/-- TENQ enqueues, TWIN reads the oldest committed window, TREL releases it, TCANCEL ends the task. (R267, R272, R273,
R274, R275) -/
def Obligations.TileInstructionResults : Prop :=
  ∀ (d a : BitVec 5) (s : State), (∀ k, s.who ≠ .mt k) →
    let h := s.thr.reg a
    let die := s.loc.die
    let cl := s.loc.cluster
    (∀ r s', Ready (.tenq d a) [a] s → Free [d] s → DescAt s h 128 r s' → (privFields r = false ∨ s'.thr.super = true) →
      tValid s' r = true → s'.loc = s.loc → Free [d] s' →
      ((∀ n, n < 64 → (s'.slot die cl n).state ≠ .free ∨ n ∈ s'.keptSlots die cl) → exec (.tenq d a) s = .next (wrote s' d 0)) ∧
      (∀ n, n < 64 → (s'.slot die cl n).state = .free → n ∉ s'.keptSlots die cl →
          (∀ m, m < n → (s'.slot die cl m).state ≠ .free ∨ m ∈ s'.keptSlots die cl) →
        ∃ k : TileSlot, exec (.tenq d a) s =
            .next (wrote (s'.setSlot die cl n (fun _ => k)) d (word (n + 64 * (s'.slot die cl n).gen))) ∧
          k.state = .waiting ∧ k.gen = (s'.slot die cl n).gen ∧ k.record = r ∧ k.team = s'.hart.team ∧
          k.hart = s'.hart.hartid ∧ k.ctx = s'.hart.ctx ∧ k.core = s'.loc ∧ k.parts = [])) ∧
    (Ready (.twin d a) [a] s → Free [d] s →
      (s.taskOf h = none → exec (.twin d a) s = .next (wrote s d (BitVec.allOnes 64))) ∧
      (∀ n k, s.taskOf h = some (n, k) → k.placed = true →
        (k.partOf s.hart.hartid = none → exec (.twin d a) s = .next (wrote s d (BitVec.allOnes 64))) ∧
        ∀ q p, k.partOf s.hart.hartid = some (q, p) → p.released < p.committed →
          exec (.twin d a) s = .next (wrote s d (word ((if p.released + 1 = tWindows k.record then 2 ^ 63 else 0) +
            (if p.wrap then 2 ^ 62 else 0) + q * 2 ^ 32 + p.released))))) ∧
    (Ready (.trel a) [a] s →
      (s.taskOf h = none → exec (.trel a) s = .next (done s)) ∧
      (∀ n k q p, s.taskOf h = some (n, k) → k.partOf s.hart.hartid = some (q, p) → p.released < p.committed →
        exec (.trel a) s = .next (done ((s.setSlot die cl n (fun k =>
          { k with parts := listSet k.parts q (fun p => { p with
              released := p.released + 1
              owed := if p.released + 1 = tWindows k.record then s.core.owes false true ++ s.core.owes true true
                else p.owed }) })).drainTask die cl n)))) ∧
    (Ready (.tcancel a) [a] s →
      (s.taskOf h = none → exec (.tcancel a) s = .next (done s)) ∧
      (∀ n k, s.taskOf h = some (n, k) → (k.state = .waiting ∨ k.state = .ready ∨ k.state = .running ∨ k.state = .hold) →
        exec (.tcancel a) s = .next (done (s.endTask die cl n 1 0))))

/-- Reductions to one scalar give the result of the last row, and of each row when rows are respected. (R103, R136,
R137, R138, R163, R165, R166, R168, R169, R175, R176) Choice of the model: what VRSTATE and PART hold when a stop
falls between two rows, as the state when cut gives them (notes/assumptions/59.md). -/
def Obligations.ReductionResults : Prop :=
  ∀ (d a b : BitVec 5) (p : BitVec 6) (s : State),
    (∀ row ∈ redIntTable, Reduces (row.1 d a b p) d a b p s s.est.wd
      (fun i js => row.2 s.est (seed s b) (js.map (valA s.est i))) (extended s.est)) ∧
    (s.est.fd ≤ 10 →
      Reduces (.fredsum d a b p) d a b p s s.est.fwd
        (fun i js => (treeSum s.est i (some ((s.thr.reg b).setWidth s.est.fwd).toNat) js).1.getD 0) word ∧
      Reduces (.fredmax d a b p) d a b p s s.est.fwd
        (fun i js => if js = [] then ((s.thr.reg b).setWidth s.est.fwd).toNat else
          (s.est.toD (js.foldl (fun v j => if numBetter (numA s.est i j) v then numA s.est i j else v)
            (numInD s.est ((s.thr.reg b).setWidth s.est.fwd).toNat))).1) word) ∧
    (∀ row ∈ [redIntTable[0], redIntTable[3], redIntTable[4]],
      GoesOn (row.1 d a b p) [d] a b p s s.est.wd (sumRun row.2 s b)) ∧
    GoesOn (.vredmin d a b p) [d] a b p s s.est.wd (bestRun (fun u v => decide (u < v)) s b) ∧
    GoesOn (.vredmax d a b p) [d] a b p s s.est.wd (bestRun (fun u v => decide (v < u)) s b) ∧
    (s.est.fd ≤ 10 → GoesOn (.fredsum d a b p) [d] a b p s s.est.fwd (fsumRun s b) ∧
      (s.est.fa ≤ 10 → GoesOn (.fredmax d a b p) [d] a b p s s.est.fwd (fmaxRun s b)))

/-- The arg reductions give the first element that is best and beats the seed, with its value. (R103, R163, R165,
R167, R169, R175, R176) Choice of the model: what VRSTATE and PART hold when a stop falls between two rows, as the
state when cut gives them (notes/assumptions/59.md). -/
def Obligations.ArgReductionResults : Prop :=
  ∀ (d a b : BitVec 5) (p : BitVec 6) (s : State) (x : VSrc),
    laneBase s.hart s.who + s.est.vl ≤ primaryLanes s → Fresh s a x → Free [d, d + 1] s → s.thr.fillRoom = true →
    let i := recIn s x none p
    let last := rowActs s i (s.est.vl - 1)
    let arg := fun (ins : Instr) (win : List Nat → Option Nat → Prop) (val : Option Nat → Word) =>
      Ready ins [b] s → ∃ (t : State) (w : Option Nat) (rows : Nat → Option Nat), exec ins s = .next (done t) ∧
        win last w ∧ (∀ e ∈ lastOnes s, win (rowActs s i e) (rows e)) ∧
        t.thr = filling s [d, d + 1] (if last = [] then [BitVec.allOnes 64, s.thr.reg b] else
          [match w with | some j => word j | none => BitVec.allOnes 64, val w]) ∧
        RestKept s t a ∧ RowsWritten s t 16 false (fun e => match rows e with
          | some j => j - ((List.range s.est.vl).find? (sameRow s e)).getD 0
          | none => 0xFFFF)
    let best := fun w => extended s.est (BitVec.ofInt s.est.wd (match w with
      | some j => valA s.est i j
      | none => seed s b)).toNat
    let fseed := numInD s.est ((s.thr.reg b).setWidth s.est.fwd).toNat
    arg (.vargmax d a b p) (Winner (fun u v => decide (v < u)) (valA s.est i) (seed s b)) best ∧
    arg (.vargmin d a b p) (Winner (fun u v => decide (u < v)) (valA s.est i) (seed s b)) best ∧
    arg (.fargmax d a b p) (Winner numBetter (numA s.est i) fseed) (fun w => word (s.est.toD (match w with
      | some j => numA s.est i j
      | none => fseed)).1) ∧
    let goes := fun (ins : Instr) (better : VIn → Nat → Bool × Nat → Bool) (raw : VIn → Nat → Nat) (value : Bool × Nat → Word)
        (w : Nat) => GoesOn ins [d, d + 1] a b p s 16 (argRun better raw value (seedBits s b w) s b)
    let value := fun r => extended s.est (BitVec.ofInt s.est.wd (bestOf s.est r)).toNat
    let raw := fun (i : VIn) j => i.rawA s.est.wa s.est.sa j
    goes (.vargmax d a b p) (fun i j r => decide (bestOf s.est r < valA s.est i j)) raw value s.est.wd ∧
    goes (.vargmin d a b p) (fun i j r => decide (valA s.est i j < bestOf s.est r)) raw value s.est.wd ∧
    (s.est.fa ≤ 10 → s.est.fd ≤ 10 → goes (.fargmax d a b p) (fun i j r => numBetter (numA s.est i j) (bestFloat s.est r))
      (fun i j => i.rawA s.est.fwa s.est.sa j) (fun r => word (s.est.toD (bestFloat s.est r)).1) s.est.fwd)

/-- Scans write running values of each row; VCOMPRESS packs and VEXPAND spreads elements and count them. (R103, R136,
R137, R138, R163, R170, R171, R172, R175, R176) Choice of the model: what VRSTATE and PART hold when a stop falls
between two rows, as the state when cut gives them (notes/assumptions/59.md). -/
def Obligations.ScanAndPackResults : Prop :=
  ∀ (d a : BitVec 5) (p : BitVec 6) (s : State),
    let at' := fun (x : EState) (v : Int) => (BitVec.ofInt x.wd v).toNat
    let count := fun (i : VIn) (c : Nat) => (i.act.filter (fun j => decide (j < 1024 * c))).length % 2 ^ 64
    let each := fun (val : VIn → Nat → Nat) (i : VIn) (c : Nat) => (stripActs i c).map (fun j => (j, val i j))
    let counted := fun (i : VIn) (t : State) => t.setEst { t.est with ccnt := BitVec.ofNat 15 i.act.length }
    Scans (.vscansum d a p) d a p s EState.wd
      (each (fun i j => at' s.est ((upTo s i j).map (valA s.est i)).sum)) (· = 0) (fun _ t => t) ∧
    Scans (.vscanmax d a p) d a p s EState.wd
      (each (fun i j => at' s.est (((upTo s i j).map (valA s.est i)).max?.getD 0))) (· = 0) (fun _ t => t) ∧
    Scans (.vscanmin d a p) d a p s EState.wd
      (each (fun i j => at' s.est (((upTo s i j).map (valA s.est i)).min?.getD 0))) (· = 0) (fun _ t => t) ∧
    (s.est.fd ≤ 10 → Scans (.fscansum d a p) d a p s EState.fwd
      (each (fun i j => (scanSum s i j).1.getD 0)) (fun _ => True) (fun _ t => t)) ∧
    Scans (.vcompress d a p) d a p s EState.wd
      (fun i c => (stripActs i c).mapIdx (fun n j => (count i c + n, at' s.est (valA s.est i j)))) (· = 0) counted ∧
    Scans (.vexpand d a p) d a p s EState.wd
      (fun i c => (stripActs i c).mapIdx (fun n j => (j, at' s.est (valA s.est i (count i c + n))))) (· = 0) counted ∧
    RowScans (.vscansum d a p) d a p s s.est.wd (scanSumRun s)
      (fun i v js _ => at' s.est (v + (js.map (valA s.est i)).sum)) (· = 0) ∧
    (∀ row ∈ [((.vscanmax d a p : Instr), fun (u v : Int) => decide (v < u)), (.vscanmin d a p, fun u v => decide (u < v))],
      RowScans row.1 d a p s s.est.wd (scanBestRun row.2 s)
        (fun i r js _ => at' s.est (intVal s.est.wa s.est.sa (((scanBestRun row.2 s i).step r js).getD 0))) (· = 0)) ∧
    (s.est.fd ≤ 10 → RowScans (.fscansum d a p) d a p s s.est.fwd (fscanRun s)
      (fun i r js j => (combine s.est (r, 0)
        (scanLocal s.est (convD s.est i js).1 (j % 1024 + 1) 10 (j / 1024 * 1024) (none, 0))).1.getD 0) (fun _ => True)) ∧
    PacksOn (.vcompress d a p) d a p s (fun k _ => k)
      (fun i k js => js.mapIdx (fun n j => (k + n, at' s.est (valA s.est i j)))) ∧
    PacksOn (.vexpand d a p) d a p s (fun _ n => n)
      (fun i k js => js.mapIdx (fun n j => (j, at' s.est (valA s.est i (k + n)))))

/-- Fills complete, waits reach their bound, and deferred causes are delivered. (R17, R19, R85, R94, R103, R221, R330,
R331) Choice of the model: that PREDEADLINE_EXPIRY parks a waiting thread or names the element at which the
instruction stops (notes/assumptions/47.md). -/
def Obligations.FillAndWaitEventResults : Prop :=
  ∀ (s : State) (c : CoreId) (w : Who), s.asleep = false →
    let k := s.getCore c
    let t := k.hart.thr w
    let u := s.focus c w
    (∀ n f, k.resident = true → t.fills.find? (fun f => decide (f.id = n)) = some f →
      (∀ ws, f.src = .value ws → exec (.fillComplete c w n) s = .next (s.onThr c w (fun t => t.complete f ws))) ∧
      (∀ q v rest, f.src = .queue q → (∀ g ∈ t.fills, g.isQueue = true → f.id ≤ g.id) →
        k.hart.qs[q.toNat]'q.isLt = v :: rest → exec (.fillComplete c w n) s =
          .next ((s.onHart c (fun h => { h with qs := h.qs.set q.toNat rest q.isLt })).onThr c w (fun t => t.complete f [v]))) ∧
      (∀ i, f.src = .event → (∀ g ∈ k.hart.allFills, g.isEvent = true → f.id ≤ g.id) →
        leastRemovable s.gts k.hart.evq = some i → exec (.fillComplete c w n) s =
          .next ((s.onHart c (fun h => h.removeEvent s.gts i)).onThr c w (fun t => t.complete f
            [word (i.record.source.toNat * 2 ^ 16 + i.record.flags.toNat * 2 ^ 8 + i.record.typ.toNat), word i.record.gts,
              i.record.p0, i.record.p1]))) ∧
      (∀ p v old, f.src = .sync p v old → s.syncDone v = true →
        exec (.fillComplete c w n) s = .next (s.onThr c w (fun t => t.complete f [old]))) ∧
      (∀ fn ea p u1, f.src = .load fn ea → resolveThr u .read ea (loadForm fn).1 = .ok p u1 →
        u1.poisonedAt p (loadForm fn).1 = false → let u2 := u1.touchPlace false p
        exec (.fillComplete c w n) s = .next ((u2.setThr (u2.thr.complete f
          ((loadForm fn).2 (u1.loadAt p (loadForm fn).1)))).focus s.loc s.who))) ∧
    (∀ (f : Fill) (d : BitVec 5) (v : Word), f.dests = [d] → (t.complete f [v]).reg d = v ∧
      (t.complete f [v]).isFull d = true ∧ (∀ r, r ≠ d → (t.complete f [v]).reg r = t.reg r) ∧
      ∀ g ∈ (t.complete f [v]).fills, g.id ≠ f.id) ∧
    (∀ x, t.wait = some x → k.canRun w = true → t.deferred = [] →
      (∀ n, x.kind.number = some n → x.since + x.bound * 1000 ≤ s.gts → stillWaits k.hart w s.gts x = true →
        exec (.waitTimeout c w) s = .next (u.takeTrap .waitTimeout (word (n + 8 * x.num.toNat)) t.pc))) ∧
    (let v := s.wakeVers
      let kv := v.getCore c
      let tv := kv.hart.thr w
      ∀ x q qs, tv.wait = some x → kv.canRun w = true → tv.deferred = [] →
        x.asks = q :: qs → q.ended = none → x.since + q.bound * 1000 ≤ v.gts →
        (x.kind = .version → exec (.verTimeout c w) s = .next ((v.focus c w).takeTrap .verTimeout q.addr tv.pc)) ∧
        (x.kind = .room → exec (.verFull c w) s = .next ((v.focus c w).takeTrap .verFull q.addr tv.pc))) ∧
    (∀ n r, s.tagReqs.find? (fun r => decide (r.id = n) && decide (r.core = c)) = some r →
      r.since + r.bound * 1000 ≤ s.gts →
      (∀ x t', r.op = .stef x → k.canRun r.who = true →
        ((s.withdrawTag n).focus c r.who).tryTrap .feTimeout r.ea (((s.withdrawTag n).getCore c).hart.thr r.who).pc = some t' →
        exec (.feTimeout c n) s = .next t') ∧
      ((∀ x, r.op ≠ .stef x) → exec (.feTimeout c n) s = .next ((s.withdrawTag n).onThr c r.who (fun t => { t with
        fills := t.fills.filter (fun f => decide (f.id ≠ r.fill)), deferred := t.deferred ++ [(.feTimeout, r.ea)] })))) ∧
    (∀ e v rest u1 t', k.canRun w = true → u.thr.deferred = (e, v) :: rest → u.closeWait c w u.hart.park.isSome = some u1 →
      (u1.setThr { u1.thr with deferred := rest }).tryTrap e v u1.thr.pc = some t' →
      exec (.trapDelivery c w) s = .next t') ∧
    (∀ e v rest, k.canRun w = true → u.thr.deferred = (e, v) :: rest → u.closeWait c w u.hart.park.isSome = none →
      exec (.trapDelivery c w) s = .next u) ∧
    (∀ park, (t.wait = none → s.closeWait c w park = some s) ∧
      ∀ x, t.wait = some x →
        (x.kind = .tagged → s.closeWait c w park = some (if x.served = true then s.onThr c w (fun t => t.advance park)
          else s.withdrawTag x.num.toNat)) ∧
        (x.kind = .update → s.closeWait c w park = if s.syncDone x.num.toNat = true then
          some (s.onThr c w (fun t => t.advance park)) else none) ∧
        (x.kind = .room → ∀ q, x.op = .store → x.asks = [q] → q.ended = some .made →
          s.closeWait c w park = some (s.onThr c w (fun t => t.advance park))) ∧
        (x.kind = .version → ∀ q d y, x.op = .load d → x.asks = [q] → q.ended = some (.served y) →
          s.closeWait c w park = some (s.onThr c w (fun t => (t.endWait.setReg d y).advance park))) ∧
        (x.kind ≠ .tagged → x.kind ≠ .update → x.asks = [] → s.closeWait c w park = some s)) ∧
    (∀ s1, s.closeWait c w false = some s1 →
      s.forcePark c w = s1.onThr c w (fun t => { t.endWait with run := .parked, cut := none })) ∧
    (s.closeWait c w false = none → s.forcePark c w = s) ∧
    (u.thr.wait = none → u.thr.cut = none → ∀ ds src, u.stalledAccess = some (ds, src) →
      s.withdrawStalled c w = ((u.startFill ds src).setThr ((u.startFill ds src).thr.advance false)).focus s.loc s.who) ∧
    ((u.thr.wait.isSome = true ∨ u.thr.cut.isSome = true ∨ u.stalledAccess = none) → s.withdrawStalled c w = s) ∧
    (∀ p, k.hart.park = some p → k.alive w = true → p.force ≤ s.gts → (t.deferred = [] ∨ k.canRun w = false) →
      let s1 := { s with free := s.free + 2 }
      let parks := exec (.predeadlineExpiry c w) s =
        .next ((if k.canRun w = true then s1.withdrawStalled c w else s1).forcePark c w)
      ((w = .a ∨ k.canRun w = false ∨ t.wait.isSome = true ∨ t.cut.isSome = true) → parks) ∧
      (parks ∨ ∃ n, exec (.predeadlineExpiry c w) s = .next ({ s with free := s.free + 2 }.onThr c w
        (fun t => { t with cut := some n }))))

/-- Event records settle, spools fetch, posted reductions end, floors and sync updates arrive, MODE.DS changes, ILL.
(R30, R37, R236, R304, R337, R342, R348) -/
def Obligations.CoreEventResults : Prop :=
  ∀ (s : State) (c : CoreId) (w : Who),
    exec (.eventSettle c) s = .next ((s.onHart c (fun h => { h with
      evq := h.evq.map (fun i => if i.record.gts + 250 ≤ s.gts then { i with settled := true } else i) })).flushRing 256) ∧
    (∀ v, (s.getCore c).hart.dsPending = some v → (s.getCore c).hart.split = 0 →
      ∃ t : State, exec (.dsModeChange c) s = .next t ∧ let h := (t.getCore c).hart; h.ds = v ∧ h.dsPending = none ∧
        (v = false → t = s.onHart c (fun _ => h)) ∧
        h.ex.vl = min (s.getCore c).hart.ex.vl (if v then 8192 else 16384) ∧ h.thr .e = (s.getCore c).hart.thr .e ∧
        ∀ (p : Fin 64) l, l < 8192 → (h.preds[p]).getLsbD l = ((s.getCore c).hart.preds[p]).getLsbD l ∧
          (h.preds[p]).getLsbD (l + 8192) = ((s.getCore c).hart.preds[p]).getLsbD (if v then l else l + 8192)) ∧
    (∀ x, s.core.resident = true → exec (.ill x) s = .next (s.takeTrap .ill (x.setWidth 64) s.thr.pc)) ∧
    (s.asleep = false →
      (∀ n cnt, let p := (s.getCore c).hart.spool n
        n < 16 → (s.getCore c).resident = true → p.bound = true → p.isWrite = false → p.held = false →
        exec (.spoolFetch c n cnt) s = .next (fetchSpool s c n (min cnt (32768 - p.buf.length))) ∧
        (p.buf.length < 32768 → ∀ e s', readElem s c p (p.pos + p.buf.length) = .ok e s' →
          exec (.spoolFetch c n 1) s = .next (s'.setSpool c n { (s'.getCore c).hart.spool n with
            buf := ((s'.getCore c).hart.spool n).buf ++ [e] }))) ∧
      (∀ r rest, ((s.getCore c).hart.thr w).posted = r :: rest →
        let s1 := walkEnded s c w
        (∀ p s2, resolve s1 c r.user .rmw r.va 8 = .ok p s2 → s2.poisonedAt p 8 = false →
          ∀ x ∈ redEffect, x.1 = r.op4 → exec (.postedReductionWalkEnd c w) s =
            .next (putWord (s2.contendAt p) p (x.2 (wordAt (s2.contendAt p) p) r.operand))) ∧
        (∀ e s2, resolve s1 c r.user .rmw r.va 8 = .fail e s2 → (s2.getCore c).resident = true →
          ((s2.getCore c).hart.thr w).run ≠ .halted → exec (.postedReductionWalkEnd c w) s =
            .next (s2.onThr c w (fun t => { t with
              deferred := t.deferred ++ [(if e = .xlate then .deferXlate else .deferPerm, r.va)] })))) ∧
      (∀ n die (r : Region), s.regions[n]? = some r → die < 8 →
        let r' := r.applyFloor die
        let u := { s with regions := listSet s.regions n (fun r => r.applyFloor die) }
        exec (.floorApply n die) s = .next u.wakeVers ∧ u.wakeVers.mem = s.mem ∧ (u.versWaiters = [] → u.wakeVers = u) ∧
        u.regions[n]? = some r' ∧ r'.floor = r.floor ∧ r'.raised.toList.getD die [] = [] ∧
        (∀ d, d < 8 → d ≠ die → r'.raised.toList.getD d [] = r.raised.toList.getD d []) ∧
        (r.raised.toList.getD die [] = [] → r' = r) ∧
        ∀ f, r.raised.toList.getD die [] = [f] → r'.applied.toList.getD die 0 = f ∧
          r'.words = r.words.map (fun x => if versHome x.addr = die then x.floored f else x)) ∧
      (∀ die, die < 8 → s.syncMsgs.toList.getD die [] ≠ [] → ∃ (t : State) (home : Nat) (m : SyncMsg) (rest : List SyncMsg),
        exec (.syncBroadcast die) s = .next t ∧ takeMsg home (s.syncMsgs.toList.getD die []) = some (m, rest) ∧
        t.syncMsgs.toList.getD die [] = rest ∧ (m.reg / 512 % 8 ≠ die → t.mirrorAt die m.reg = m.val) ∧
        ∀ r, r ≠ m.reg → t.mirrorAt die r = s.mirrorAt die r))

/-- The tile scheduler moves its tasks as the table of R269 says. (R105, R265, R266, R267, R269, R270, R339) Choice of
the model: the k-step left undone when a check of the lanes fails, and the reading ahead of operands
(notes/assumptions/37.md, notes/assumptions/38.md). -/
def Obligations.TileEventResults : Prop :=
  ∀ (s : State) (d c n : Nat), s.asleep = false →
    let t := s.slot d c n
    let pre1 := s.preState t.ctx (tVers t.record 8)
    let pre2 := s.preState t.ctx (tVers t.record 10)
    (t.state = .waiting →
      (pre1 = some true → pre2 = some true →
        exec (.tileReady d c n) s = .next (s.setSlot d c n (fun t => { t with state := .ready }))) ∧
      (pre1 = some false ∨ pre2 = some false → exec (.tileReady d c n) s = .next (s.endTask d c n 2 0))) ∧
    (∀ tm, t.state = .ready → assocFind s.teams t.team = some tm → tm.state = .running →
      let harts := if t.parts = [] then (s.idleHarts d c tm).take (tParts t.record) else t.parts.map (·.hart)
      s.shunned d c = false → harts.length = tParts t.record → (∀ h ∈ harts, h ∈ s.idleHarts d c tm) →
      let parts := harts.mapIdx (fun q h => { (t.parts.getD q { core := 0, hart := h }) with core := tm.cores.getD h 0 })
      let s2 := (parts.foldl (fun s p => s.takeTileRows ⟨d, c, p.core⟩) s).setSlot d c n
        (fun t => { t with state := if t.window = tWindows t.record then .drain else .running, parts := parts })
      let r := s2.readAhead d c n (s2.slot d c n)
      exec (.tilePlace d c n) s = .next ((r.1.setSlot d c n (fun _ => r.2)).drainTask d c n)) ∧
    (t.state = .running → t.windowDone = false →
      let k := 128 * t.window + t.kdone
      ∀ s1 t1, fetchParts d c n true (t.needs k) s t = .ok s1 t1 →
      let r := if t1.kdone = 0 then s1.readAhead d c n t1 else (s1, t1)
      let q := r.1.checkParts d c t1.parts
      (q.2 = true → let b := q.1.broadcast d c n (k + 1) r.2
        exec (.kStep d c n) s = .next (b.1.setSlot d c n (fun _ => { b.2 with
          kdone := b.2.kdone + 1, opsA := b.2.opsA ++ [(r.2.operands k).1], opsB := b.2.opsB ++ [(r.2.operands k).2] }))) ∧
      (q.2 = false → exec (.kStep d c n) s = .next (q.1.setSlot d c n (fun _ => r.2)))) ∧
    (t.state = .running → t.windowDone = false → fetchParts d c n true (t.needs (128 * t.window + t.kdone)) s t = .full →
      exec (.kStep d c n) s = .next (s.setSlot d c n (fun t => { t with starved := true }))) ∧
    (t.state = .running ∧ t.windowDone = true ∨ t.state = .hold →
      exec (.tileWindowCommit d c n) s = .next
        (((List.range t.parts.length).foldl (fun s q => s.commitPart d c n q) s).setSlot d c n TileSlot.afterCommit)) ∧
    (t.state = .drain → exec (.tileWindowCommit d c n) s = .next (s.drainTask d c n)) ∧
    (∀ s1 st a, t.state = .running ∨ t.state = .hold →
      fetchParts d c n true (t.windowNeeds t.window (if t.windowDone then tLen t.record t.window else t.kdone) 2) s t =
        .fail s1 st a → exec (.tileFetchFailure d c n) s = .next (s1.endTask d c n st a)) ∧
    (∀ tm, t.placed = true → assocFind s.teams t.team = some tm → tm.state = .parking →
      (t.kdone = 0 ∨ t.windowDone = true ∨ t.state = .hold) →
      exec (.tilePark d c n) s = .next ((s.freeTileRows d c n t).setSlot d c n
        (fun t => { t with state := .parked, kdone := 0, opsA := [], opsB := [], fetched := [] }))) ∧
    TaskDrains s d c n ∧ (∀ st a, TaskEnds s d c n st a) ∧ (∀ q, PartCommits s d c n q) ∧ ∀ k x, Broadcasts s d c n k x

/-- Bobbin and the link engines start and perform their commands in order and post their ends. (R242, R244, R245,
R246, R397, R398, R399) Choice of the model: when XCOPY_DONE may come, any number of units in a turn, the layout of
the request, last and acknowledging flits, and the mark of a copy with a failed parity (notes/assumptions/35.md,
notes/assumptions/42.md, notes/assumptions/45.md, notes/assumptions/55.md). -/
def Obligations.EngineEventResults : Prop :=
  ∀ (s : State) (c : CoreId) (ticket : Nat),
    (∀ row ∈ bobTable, ∀ k, s.bobCmd c ticket row.op = some k →
      (k.started = false → mayStart (s.getCore c).bobbin k = true →
        (∀ x, (row.aligns k.desc).find? (fun x => x.1.toNat % x.2 != 0) = some x → exec (row.event c ticket) s =
          .next ({ s with starts := s.starts + 1 }.setBobbin c
            { k with started := true, stamp := s.starts, ended := true, status := 3, faddr := x.1 })) ∧
        ((∀ x ∈ row.aligns k.desc, x.1.toNat % x.2 = 0) → exec (row.event c ticket) s = .next (bobStarted s c k))) ∧
      (k.started = true → ∃ m, 1 ≤ m ∧ exec (row.event c ticket) s = .next (bobRun c k
        (bobLoop (row.unit c k) ((((unitsLeft row k).drop m).head?.map (·.2)).getD (bCount k.desc)) ((unitsLeft row k).take m)
          { s with free := s.free + 1 })))) ∧
    (∀ k, s.asleep = false → findCmd (s.getCore c).bobbin ticket (·.ended) = some k →
      (s.queueRoom c k = true → exec (.copyDone c ticket) s = .next
        ((s.setCore c { s.getCore c with bobbin := dropCmd (s.getCore c).bobbin k }).postDone c k
          (endRecord s 1 (coreSource c) (k.postedAt.getD s.gts) k))) ∧
      (s.queueRoom c k = false → exec (.copyDone c ticket) s =
        .next (s.setBobbin c { k with postedAt := some (k.postedAt.getD s.gts) }))) ∧
    (∀ k, s.asleep = false → k.started = false → mayStart (s.getCore c).xcopy k = true →
      (∀ p, s.xcopyPort k.desc = some p → (s.link p).width = .down ∨ (s.link p).replay.length < 512) →
      (s.xcopyCmd c ticket 0 = some k → exec (.xcopyPut c ticket) s = .next (linkStarted s c k)) ∧
      (s.xcopyCmd c ticket 1 = some k → exec (.xcopyGet c ticket) s = .next (linkStarted s c k))) ∧
    (∀ p n bs, p < 5 → (s.link p).ready = true → n ≠ 0xFFF#12 → s.sendPort (some p) n bs = s.setLink p (fun l => l.send s.gts
      { seq := 0, ack := 0, av := false, nak := false, kind := 2, dnode := n, snode := 0, vc := 0, payload := bs, crc := 0 })) ∧
    (∀ k p, s.asleep = false → s.xcopyCmd c ticket 0 = some k → k.started = true → k.port = some p →
      (s.link p).ready = true → k.sent < xCount k.desc →
      let n := min 224 (xCount k.desc - k.sent)
      let sent := xcopyRead s c k (off (xLaddr k.desc) k.sent) (n / 16) [] (fun s bs => .ok ((s.sendPort (some p) (xNode k.desc)
        (bytesOf 8 ((off (xRaddr k.desc) k.sent).toNat % 2 ^ 57) ++ bytesOf 2 k.ticket.toNat ++ [0, 0] ++
          bytesOf 4 (coreNum c) ++ bs)).setXcopy c { k with sent := k.sent + n }))
      (∀ t, sent = .ok t → exec (.xcopyPut c ticket) s = .next t) ∧
      (∀ t st a, sent = .bad t st a → exec (.xcopyPut c ticket) s = .next ((t.setXcopy c
        { k with ended := true, status := BitVec.ofNat 8 st, faddr := a }).sendPort (some p) (xNode k.desc)
          (abortPayload k.ticket (coreNum c)))) ∧
      (sent = .stall → exec (.xcopyPut c ticket) s = .next s)) ∧
    (∀ f s1, s.asleep = false → f.kind = 2 → s.takeFlit f = some s1 →
      (s.mine f = false → exec (.xcopyDataFlit f) s = .next s1) ∧
      (s.mine f = true →
        (∀ d k, s1.xcopyOf f 0 = some (d, k) →
          (flitWhat f = 5 → exec (.xcopyDataFlit f) s = .next (s1.setXcopy d { k with done := flitNum f 16 8 })) ∧
          (flitWhat f = 2 → exec (.xcopyDataFlit f) s = .next (s1.setXcopy d { k with
            done := flitNum f 16 8, ended := true, status := BitVec.ofNat 8 (flitArg f), faddr := flitAddr f }))) ∧
        (∀ d k, flitWhat f = 3 → s1.xcopyOf f 1 = some (d, k) →
          let n := above (flitAddr f) (xLaddr k.desc)
          let data := (flitData f).take (xCount k.desc - n)
          ∀ t, writeParts d k (data.length / 16) data (off (xLaddr k.desc) n) s1 = .ok t →
            exec (.xcopyDataFlit f) s = .next (t.setXcopy d { k with
              ended := decide (xCount k.desc ≤ k.done + data.length), done := k.done + data.length
              got := k.got ++ [(n, data.length)] })) ∧
        (s1.portFull (s1.routeTo f.snode) = false → flitWhat f = 1 →
          let r := remoteAsked s1 f
          ((f.snode, BitVec.ofNat 16 (flitNum f 32 2), BitVec.ofNat 16 (flitNum f 34 2)) ∈ s1.mgmt.access →
            exec (.xcopyDataFlit f) s =
              .next ({ s1 with starts := s1.starts + 1, remotes := s1.remotes ++ [r] }.takeRemote r)) ∧
          ((f.snode, BitVec.ofNat 16 (flitNum f 32 2), BitVec.ofNat 16 (flitNum f 34 2)) ∉ s1.mgmt.access →
            exec (.xcopyDataFlit f) s = .next (s1.endRemote r 6 0))) ∧
        (∀ r, s1.portFull (s1.routeTo f.snode) = false → flitWhat f = 0 →
          s1.remoteOf f.snode (flitCore f) (flitTicket f) = some r → r.get = false →
          let n := above (flitAddr f) r.addr
          let data := (flitData f).take (r.count - n)
          let put := putParts r (data.length / 16) data (off r.addr n) s1
          let r1 := { r with done := r.done + data.length, got := r.got ++ [(n, data.length)] }
          (∀ t, put = .ok t → exec (.xcopyDataFlit f) s = .next (if r.count ≤ r1.done then t.endRemote r1 0 0 else
            (t.setRemote r1).sendPort (t.routeTo r.node) r.node (ackPayload r.ticket r.core r1.done))) ∧
          (∀ t st a, put = .bad t st a → exec (.xcopyDataFlit f) s = .next (t.endRemote r st a))))) ∧
    (∀ n r p, s.asleep = false → s.power.state = 0 → s.remoteOf n (coreNum c) (BitVec.ofNat 16 ticket) = some r → r.get = true →
      s.routeTo r.node = some p → (s.link p).ready = true →
      let m := min 224 (r.count - r.done)
      let r1 := { r with done := r.done + m }
      let got := getParts r (m / 16) [] (off r.addr r.done) s (fun s bs =>
        .ok ((if r.count ≤ r1.done then s.dropRemote r else s.setRemote r1).sendPort (some p) r.node
          (getPayload (off r.back r.done) r.ticket r.core bs)))
      (∀ t, got = .ok t → s.input (.remoteGet n c ticket) = t) ∧
      (∀ t st a, got = .bad t st a → s.input (.remoteGet n c ticket) = t.endRemote r st a)) ∧
    (∀ k, s.asleep = false → findCmd (s.getCore c).xcopy ticket (·.ended) = some k →
      (k.postedAt = none → exec (.xcopyDone c ticket k.status k.faddr) s = .next (s.setXcopy c { k with postedAt := some s.gts })) ∧
      (∀ n, k.postedAt = some n → exec (.xcopyDone c ticket k.status k.faddr) s = .next
        ((s.setCore c { s.getCore c with xcopy := dropCmd (s.getCore c).xcopy k }).postDone c k
          (endRecord s 4 (BitVec.ofNat 16 (match k.port with | some p => (10 + p) * 0x1000 | none => 0xA000)) n k)))) ∧
    (∀ k t, s.asleep = false → findCmd (s.getCore c).xcopy ticket (fun k => k.started && !k.ended) = some k →
      s.pathDownSince k.port (xNode k.desc) (k.downSince.getD s.gts) = some t →
      (t + 100000000 ≤ s.gts → exec (.xcopyPathTimeout c ticket) s =
        .next (s.setXcopy c { k with ended := true, status := 7, faddr := 0 })) ∧
      (s.gts < t + 100000000 → exec (.xcopyPathTimeout c ticket) s = .next s)) ∧
    (∀ p n start, p < 5 → (s.link p).width ≠ .down → (s.link p).cut = [] → n ≠ 0xFFF#12 →
      s.pathDownSince (some p) n start = none)

/-- Links accept, acknowledge and replay flits, lose lanes and retrain; reduction groups combine posts; leases and
UCIe lanes. (R380, R392, R393, R394, R401, R402, R404) Choice of the model: the layout of the bellwether payload and
the numbering of the lanes of a UCIe group (notes/assumptions/25.md, notes/assumptions/54.md). -/
def Obligations.LinkAndGroupEventResults : Prop :=
  ∀ s : State,
    (∀ p f, s.asleep = false → s.mgmt.bootFailed = false → p < 5 → (s.link p).width ≠ .down → (s.link p).trainEnd = none →
      ∃ t : State, exec (.flitReceived p f) s = .next t ∧
      let l := s.link p
      let m := t.link p
      (flitCrcOk f = false → m.rx = l.rx ∧ m.expect = l.expect ∧ m.replay = l.replay ∧ m.nakSent = true ∧
        m.out = (if l.nakSent then l.out else (l.sendIdle true).out)) ∧
      (flitCrcOk f = true →
        (∀ g, g ∈ m.replay ↔ g ∈ l.replay ∧ (f.av = true → (f.ack - g.seq).toInt < 0)) ∧
        (f.kind = 0 → m.rx = l.rx ∧ m.expect = l.expect ∧ m.standby = (flitNum f 0 1 % 2 == 1)) ∧
        (f.kind ≠ 0 → f.seq = l.expect → m.expect = l.expect + 1 ∧ m.nakSent = false ∧
          m.rx = l.rx ++ (if 2 ≤ f.kind.toNat ∧ f.kind.toNat ≤ 5 then [f] else [])) ∧
        (f.kind ≠ 0 → f.seq ≠ l.expect → m.rx = l.rx ∧ m.expect = l.expect ∧
          (0 < (f.seq - l.expect).toInt → m.nakSent = true)))) ∧
    (∀ p a, s.asleep = false → p < 5 → (s.link p).width ≠ .down → (s.link p).standby = false → (s.link p).trainEnd = none →
      ∃ t : State, exec (.nak p a) s = .next t ∧
      (t.link p).replay = (s.link p).replay.filter (fun f => decide ((a - f.seq).toInt < 0)) ∧
      (t.link p).out = (t.link p).replay) ∧
    (∀ p n, s.asleep = false → p < 5 → (s.link p).width ≠ .down → (s.link p).trainEnd = none →
      (s.link p).unackedSince = some n → n + 1000 ≤ s.gts →
      exec (.ackTimer p) s = .next (s.setLink p (fun l => l.sendIdle false))) ∧
    (∀ p n, s.asleep = false → p < 5 → (s.link p).width ≠ .down → (s.link p).standby = false → (s.link p).trainEnd = none →
      (s.link p).ackWait = some n → n + 10000 ≤ s.gts → ∃ t : State, exec (.replayTimeout p) s = .next t ∧
        (t.link p).out = (s.link p).replay ∧ (t.link p).replay = (s.link p).replay) ∧
    (∀ p n, p < 5 → n < 16 → ∃ t : State, exec (.laneFailure p n) s = .next t ∧ n ∈ (t.link p).failed ∧
      (t.link p).width = (match (s.link p).width with
        | .x16 => if n < 8 then .x8high else .x8low
        | .x8low => if n < 8 then .down else .x8low
        | .x8high => if n < 8 then .x8high else .down
        | .down => .down) ∧
      ((s.link p).width ≠ .down → (t.link p).width = .down → (t.link p).replay = []) ∧
      assocGet 0 t.mgmt.reports (.link p n) = assocGet 0 s.mgmt.reports (.link p n) + 1) ∧
    (∀ p n, p < 5 → (s.link p).spare = none → (s.link p).failed = [n] → (s.link p).width = .x8low ∨ (s.link p).width = .x8high →
      ((s.link p).trainEnd = none → ((s.link p).replay = [] ∧ (s.link p).lastFlit + 10000 ≤ s.gts) ∨
          (∃ t, (s.link p).failedAt = some t ∧ t + 100000000 ≤ s.gts) →
        exec (.retrain p) s = .next (s.setLink p (fun l => { l with trainEnd := some (s.gts + 20000) }))) ∧
      ((s.link p).trainEnd = none → (s.link p).replay ≠ [] ∨ s.gts < (s.link p).lastFlit + 10000 →
        (∀ t, (s.link p).failedAt = some t → s.gts < t + 100000000) → exec (.retrain p) s = .next s) ∧
      (∀ t, (s.link p).trainEnd = some t → s.gts < t → exec (.retrain p) s = .next s) ∧
      (∀ t, (s.link p).trainEnd = some t → t ≤ s.gts → (s.link p).standby = false →
        exec (.retrain p) s = .next (((s.setLink p (fun l => { l with
          trainEnd := none, width := .x16, spare := some n, failed := [], out := l.replay
          ackWait := if l.replay.isEmpty then none else some s.gts })).report (.link p n)).markReplaced (.link p n)))) ∧
    (∀ f s1, s.asleep = false → s.takeFlit f = some s1 →
      let n := flitNum f 0 4
      let q := BitVec.ofNat 32 (flitNum f 4 4)
      let v := (word (flitNum f 8 8), word (flitNum f 16 8))
      let mask := if flitNum f 24 4 < 2 ^ 14 then flitNum f 28 212 * 2 ^ (1696 * flitNum f 24 4) else 0
      (f.kind = 3 → s.mine f = true → ∀ g, s1.group n = some g → s1.nodes.contains g.root = false → g.members.length < 1696 →
        (∃ m ∈ g.members, s1.nodes.contains m.1 = false) → mask ≠ 0 → mask < 2 ^ 1696 →
        let send (u : State) (x : Nat) (w : Word × Word) := u.sendTo g.root 3 (bytesOf 4 g.num ++ bytesOf 4 q.toNat ++
          bytesOf 8 w.1.toNat ++ bytesOf 8 w.2.toNat ++ bytesOf 4 0 ++ bytesOf 212 x)
        let g1 := { g with posts := g.posts ++ [(q, mask, v.1, v.2)] }
        (g.posted q &&& mask = mask → exec (.bellwetherPost f) s = .next (send s1 mask v)) ∧
        (g.posted q &&& mask ≠ mask → g1.posted q &&& localMask s1 g ≠ localMask s1 g →
          exec (.bellwetherPost f) s = .next (s1.setGroup g1)) ∧
        (g.posted q &&& mask ≠ mask → g1.posted q &&& localMask s1 g = localMask s1 g → g1.posted q < 2 ^ 1696 →
          exec (.bellwetherPost f) s = .next (send (s1.setGroup g1) (g1.posted q) (g1.winner q)))) ∧
      (f.kind = 3 → s.mine f = true → ∀ g, s1.group n = some g →
        s1.nodes.contains g.root = true ∨ (∀ m ∈ g.members, s1.nodes.contains m.1 = true) →
        (g.any = true → q = g.last → exec (.bellwetherPost f) s = .next (s1.bwResult g q mask g.win)) ∧
        (g.any = true → (q - g.last).toInt < 0 → exec (.bellwetherPost f) s = .next s1) ∧
        (g.any = false ∨ 0 < (q - g.last).toInt →
          let new := mask &&& (g.posted q ^^^ g.fullMask) &&& g.fullMask
          let g1 := { g with posts := g.posts ++ [(q, new, v.1, v.2)] }
          (new ≠ 0 → g1.posted q ≠ g.fullMask → exec (.bellwetherPost f) s = .next (s1.setGroup g1)) ∧
          (new ≠ 0 → g1.posted q = g.fullMask →
            let g2 := { g1 with
              last := q, any := true, win := g1.winner q, posts := g1.posts.filter (fun p => decide (0 < (p.1 - q).toInt)) }
            exec (.bellwetherPost f) s = .next ((s1.setGroup g2).bwResult g2 q g.fullMask (g1.winner q))))) ∧
      (f.kind = 4 → s.mine f = true → ∀ g, s1.group n = some g → exec (.bellwetherResult f) s =
        .next ((g.members.filter (fun m => s1.nodes.contains m.1)).foldl (fun s m => s.bwFill g.num q v m.2) s1)) ∧
      (f.kind = 5 → s.mine f = true → f.snode = s.power.src → flitNum f 6 4 ≠ 0 →
        s.power.leaseSeen = false ∨ 0 < (BitVec.ofNat 32 (flitNum f 0 4) - s.power.leaseSeq).toInt →
        s1.power = s.power → exec (.lease f) s = .next { s1 with power := { s.power with
          leaseValid := true, leaseExp := false, leaseSeen := true, leaseSeq := BitVec.ofNat 32 (flitNum f 0 4)
          leaseCap := BitVec.ofNat 16 (max 300 (min 2000 (flitNum f 4 2))), leaseEnd := s.gts + flitNum f 6 4 * 1000 } })) ∧
    (∀ n g, s.asleep = false → s.group n = some g → 
      (20000 ≤ s.gts → exec (.bwredRepost n) s = .next (s.bwRepost g (s.gts - 20000))) ∧
      (s.gts < 20000 → exec (.bwredRepost n) s = .next s)) ∧
    (∀ seg lane, (seg, lane) ∉ s.mgmt.laneRepairs → ∃ t : State, exec (.ucieLaneRepair seg lane) s = .next t ∧
      t.mgmt.laneRepairs = (if (s.mgmt.laneRepairs.filter
        (fun x => decide (x.1 = seg) && decide (x.2 / 64 = lane / 64))).length < 4
        then s.mgmt.laneRepairs ++ [(seg, lane)] else s.mgmt.laneRepairs) ∧
      assocGet 0 t.mgmt.reports (.ucie seg lane) = assocGet 0 s.mgmt.reports (.ucie seg lane) + 1) ∧
    (∀ seg, seg ∉ s.mgmt.segDown → exec (.ucieSegmentFailure seg) s =
      .next { s with mgmt := { s.mgmt with segDown := s.mgmt.segDown ++ [seg] } })

/-- The Drover consumes and performs commands, and places, saves, restores and moves teams. (R104, R105, R339, R355,
R360, R362, R365, R367, R368, R369, R371, R373) Choice of the model: the order of completion statuses, status 4 for an
unregistered context, a failed completion word, and the heads that CANCEL reaches (notes/assumptions/44.md,
notes/assumptions/53.md, notes/assumptions/61.md). -/
def Obligations.DroverEventResults : Prop :=
  ∀ s : State, s.asleep = false →
    (∀ q r u t, u = s.settleQueue q → Consumes u q r t →
      let c : Cmd := { order := u.orders, q := q, ctx := (u.queue q).ctx.toNat, record := r }
      (recordOk r = false → exec (.invalidRecord q) s = .next ((if cOp r = 1 then t.addLaunch c [] .complete else t).complete c 3)) ∧
      (∀ st, t.markStatus c.ctx = some st →
        (isCmd 1 r = true → exec (.launch q) s = .next ((t.addLaunch c [] .complete).complete c st)) ∧
        (isCmd 2 r = true → u.pendingCmd q 2 = none ∨ u.power.engPark = true →
          exec (.droverCopy q) s = .next (t.complete c st)) ∧
        (isCmd 3 r = true → u.pendingCmd q 3 = none → exec (.waitver q) s = .next (t.complete c st)) ∧
        (isCmd 4 r = true → u.cmds.find? (fun c => c.pends q 4 && u.earlierDone c) = none →
          exec (.makever q) s = .next (t.complete c st)) ∧
        (isCmd 5 r = true → u.pendingCmd q 5 = none → exec (.droverFence q) s = .next (t.complete c st))) ∧
      (t.markStatus c.ctx = none →
        (isCmd 1 r = true → t.context c.ctx = none →
          exec (.launch q) s = .next ((t.addLaunch c [] .complete).complete c 4)) ∧
        (∀ x, isCmd 1 r = true → t.context c.ctx = some x →
          (field (dw r 2) 0 8 ≠ 0 → exec (.launch q) s = .next ((t.addLaunch c [] .complete).complete c 3)) ∧
          (field (dw r 2) 0 8 = 0 → t.declare x = none →
            exec (.launch q) s = .next ((t.addLaunch c [] .complete).complete c 7)) ∧
          (∀ t1, field (dw r 2) 0 8 = 0 → t.declare x = some t1 →
            (∀ t2, drvRead c.ctx (cut16 (addr57 (dw r 2)) 256) [] t1 = .fail t2 →
              exec (.launch q) s = .next ((t2.addLaunch c [] .complete).complete c 4)) ∧
            ∀ bs t2, drvRead c.ctx (cut16 (addr57 (dw r 2)) 256) [] t1 = .ok bs t2 →
              exec (.launch q) s = .next (if nestOk t2 c.ctx (wordsOf bs 32) = true
                then t2.addLaunch c (wordsOf bs 32) .waiting
                else (t2.addLaunch c [] .complete).complete c 3))) ∧
        (isCmd 2 r = true → u.pendingCmd q 2 = none ∨ u.power.engPark = true → exec (.droverCopy q) s =
          .next ({ t with starts := t.starts + 1 }.addCmd { c with started := true, stamp := t.starts })) ∧
        (isCmd 3 r = true → u.pendingCmd q 3 = none → exec (.waitver q) s = .next (joinsOr3 t c)) ∧
        (isCmd 4 r = true → u.cmds.find? (fun c => c.pends q 4 && u.earlierDone c) = none →
          exec (.makever q) s = .next (joinsOr3 t c)) ∧
        (isCmd 5 r = true → u.pendingCmd q 5 = none → exec (.droverFence q) s = .next (t.addCmd c))) ∧
      (isCmd 6 r = true → u.cmds.find? (fun c => c.pends q 6 && u.cancelled c) = none →
        exec (.cancel q) s = .next (if (t.withdraw c).cancelled c = true then (t.withdraw c).complete c 0
          else (t.withdraw c).addCmd { c with started := true }))) ∧
    (∀ q u c, u = s.settleQueue q →
      (u.power.engPark = false → u.pendingCmd q 2 = some c → u.startsNext q 2 = false →
        let src := addr57 (dw c.record 2)
        let dst := addr57 (dw c.record 3)
        let n := field (dw c.record 4) 0 40
        ∀ t st m, drvCopy (some c.stamp) c.ctx src dst n (copyCuts src.toNat dst.toNat n 0 n) u = some (t, st, m) →
          exec (.droverCopy q) s = .next ((t.clearCopied c.ctx dst m).complete c st)) ∧
      (∀ r, u.pendingCmd q 3 = some c → u.regionOf c.ctx (verAddr c.record) = some r →
        let a := verAddr c.record
        let v : BitVec 32 := (dw c.record 3).setWidth 32
        exec (.waitver q) s = .next (if verGone (r.floorAt a) (r.word a) v = true then u.complete c 2
          else if ((r.word a).find v).isSome = true then u.complete c 0 else u)) ∧
      (∀ r x, u.cmds.find? (fun c => c.pends q 4 && u.earlierDone c) = some c →
        u.regionOf c.ctx (verAddr c.record) = some r →
        makeVersion u (.command c.order) c.ctx r (verAddr c.record) ((dw c.record 3).setWidth 32) (dw c.record 4) = x →
        (∀ t, x = .done t → exec (.makever q) s = .next (t.complete c 0)) ∧
        (x = .dup → exec (.makever q) s = .next (u.complete c 6)) ∧
        (∀ t, x = .wait t → t.peek q = .none → exec (.makever q) s = .next t) ∧
        (x = .gone → exec (.makever q) s = .next (u.complete c 2))) ∧
      (u.pendingCmd q 5 = some c →
        exec (.droverFence q) s = .next (if u.earlierDone c = true then u.complete c 0 else u)) ∧
      (u.cmds.find? (fun c => c.pends q 6 && u.cancelled c) = some c → exec (.cancel q) s = .next (u.complete c 0))) ∧
    (∀ n l, assocFind s.launches n = some l →
      let p1 := s.preState l.ctx (tVers l.nest 21)
      let p2 := s.preState l.ctx (tVers l.nest 23)
      (l.state = .waiting → l.cancelled = false →
        (l.met = true ∨ p1 = some true ∧ p2 = some true → s.producerOpen l = false → l.total ≠ 0 →
          exec (.launchLive n) s = .next { s with
            launches := assocSet s.launches n { l with state := .live, met := true, readySince := some s.gts } }) ∧
        (l.met = true ∨ p1 = some true ∧ p2 = some true → s.producerOpen l = true →
          exec (.launchLive n) s = .next { s with launches := assocSet s.launches n { l with met := true } }) ∧
        (l.met = false → p1 = some false ∨ p2 = some false → exec (.launchLive n) s = .next (s.endLaunch n l (s.endStatus l 2)))) ∧
      (l.state = .live → l.more = false → s.teamsLeft n = false → s.postsLeft n = false → s.commandsLeft n = false →
        (s.madeBy (.launch n) = some .made → exec (.launchComplete n) s = .next (s.endLaunch n l 0)) ∧
        (s.madeBy (.launch n) ≠ some .made →
        let poisoned := ∃ x, s.context l.ctx = some x ∧ x.poisoned = true
        let v := tVers l.nest 25
        (l.failed = true → exec (.launchComplete n) s = .next (s.endLaunch n l 5)) ∧
        (l.failed = false → poisoned → exec (.launchComplete n) s = .next (s.endLaunch n l (s.endStatus l 8))) ∧
        (l.failed = false → ¬poisoned → l.cancelled = true → exec (.launchComplete n) s = .next (s.endLaunch n l 1)) ∧
        (l.failed = false → ¬poisoned → l.cancelled = false →
          (v.1 = false → exec (.launchComplete n) s = .next (s.endLaunch n l 0)) ∧
          (∀ r x, v.1 = true → s.regionOf l.ctx v.2.1 = some r → makeVersion s (.launch n) l.ctx r v.2.1 v.2.2 (dw l.nest 27) = x →
            (∀ t, x = .done t → exec (.launchComplete n) s = .next (t.endLaunch n l 0)) ∧
            (∀ t, x = .wait t → exec (.launchComplete n) s = .next t) ∧
            (x = .dup → exec (.launchComplete n) s = .next (s.endLaunch n l 6)) ∧
            (x = .gone → exec (.launchComplete n) s = .next (s.endLaunch n l 2)))))) ∧
      (∀ s1 d c areas, s.select = some (.place n, s1) → s.placeFor l = some (d, c) →
        s.areasFor l.ctx l.teamSize = some areas → exec (.teamPlace n) s = .next (s1.placeTeam n l d c areas)) ∧
      (∀ g, l.readySince = some g → s.power.state = 0 → s.wants n l = true → s.placeFor l = none → g + 50000 ≤ s.gts →
        exec (.victimSelection n) s = .next ((s.victims l).foldl (fun s v => s.askTeam v.1 none false)
          { s with launches := assocSet s.launches n { l with readySince := some s.gts } }))) ∧
    (∀ n x, assocFind s.teams n = some x →
      (x.state = .parking → s.power.state = 0 → (∀ c ∈ x.ids, (s.getCore c).savable = true) →
        (∀ y ∈ s.teamSlots n x, y.2.placed = false) → exec (.contextSave n) s = .next (s.saveTeam n x)) ∧
      (∀ s1 d c, s.power.state = 0 → s.select = some (.restore n, s1) → (d, c) ∈ s.resumeOn x →
        exec (.teamRestore n d c) s = .next (s1.restoreTeam n x d c))) ∧
    (s.power.state = 0 → s.timers[(0 : Fin 8)] + 10000000 ≤ s.gts → exec .hotSpotCheck s =
      .next (allClusters.foldl State.shed { s with timers := s.timers.set (0 : Fin 8) s.gts }.readTemps)) ∧
    (∀ k st, Completes s k st) ∧ (∀ n l st, LaunchEnds s n l st) ∧ (∀ n x, TeamSaved s n x) ∧
    (∀ n x d c, TeamRestored s n x d c) ∧ ∀ n l d c areas, TeamPlaced s n l d c areas

/-- Writes through the register window, brown-out holds, contexts, host accesses and the management controller. (R341,
R353, R355, R356, R358, R359, R374, R385, R386, R395, R398, R408) Choice of the model: the sum of SYBASE and SYCOUNT,
frames as u/32, destruction of a context when it is not busy, State.hostRead, and the order of the host ring
(notes/assumptions/23.md, notes/assumptions/40.md, notes/assumptions/44.md, notes/assumptions/50.md,
notes/assumptions/62.md). -/
def Obligations.HostRegisterEventResults : Prop :=
  ∀ s : State,
    (∀ q v, q < 64 → let x := s.queue q
      let y : BitVec 32 := v.setWidth 32
      ∃ t : State, exec (.qtailWrite q v) s = .next t ∧
        (x.en = true → 0 < (y - x.tail).toInt → (y - x.head).toInt ≤ 2 ^ (x.lsize.toNat + 4) → t.queue q = { x with tail := y }) ∧
        (x.en = true → 0 < (y - x.tail).toInt → 2 ^ (x.lsize.toNat + 4) < (y - x.head).toInt →
          t.queue q = { x with err := true }) ∧
        (x.en = false ∨ (y - x.tail).toInt ≤ 0 → t.queue q = x)) ∧
    (∀ q, q < 64 → (s.queue q).en = false → exec (.queueEnable q) s =
      .next ((s.setQueue q (fun x => { x with
        en := true, head := 0, tail := 0, headerDue := true, dueBase := x.base, dueCtx := x.ctx })).settleHeader q)) ∧
    (∀ q, exec (.queueDisable q) s = .next (s.setQueue q (fun x => { x with en := false }))) ∧
    (∀ q, exec (.fltClear q) s = .next ((s.setQueue q (fun x => { x with flt := false })).settleHeader q)) ∧
    (∀ q, let x := s.queue q
      let store := drvWrite x.dueCtx.toNat (cut16 (sext57 (x.dueBase.setWidth 64)) 8) (bytesOf 8 x.head.toNat) s
      (x.headerDue = false ∨ x.flt = true → s.settleHeader q = s) ∧
      (x.headerDue = true → x.flt = false →
        (∀ t, store = .ok t → s.settleHeader q = t.setQueue q (fun x => { x with headerDue := false })) ∧
        (∀ t, store = .fail t → s.settleHeader q = t.setQueue q (fun x => { x with flt := true })) ∧
        (store = .stall → s.settleHeader q = s))) ∧
    (s.ring.en = false → exec .hostEventRingEnable s =
      .next ({ s with ring := { s.ring with en := true, tail := 0, head := 0 } }.flushRing 256)) ∧
    (∀ v, let n : BitVec 32 := v.setWidth 32
      (0 ≤ (n - s.ring.head).toInt → 0 ≤ (s.ring.tail - n).toInt →
        exec (.hevheadWrite v) s = .next ({ s with ring := { s.ring with head := n } }.flushRing 256)) ∧
      ((n - s.ring.head).toInt < 0 ∨ (s.ring.tail - n).toInt < 0 → exec (.hevheadWrite v) s = .next s)) ∧
    (∀ r, r.typ = 6 ∨ r.typ = 11 ∨ r.typ = 12 →
      (s.ring.en = true → s.ring.buf.length < 256 →
        exec (.hostEventRecord r) s = .next { s with ring := { s.ring with buf := insertRec r s.ring.buf } }) ∧
      (s.ring.en = false ∨ 256 ≤ s.ring.buf.length →
        exec (.hostEventRecord r) s = .next { s with ring := { s.ring with ovf := true } })) ∧
    (∀ r l n, s.ring.buf = r :: l →
      let a := s.ring.base.toNat + 32 * (s.ring.tail.toNat % 2 ^ (s.ring.lsize.toNat + 4))
      let goes := s.ring.en = true ∧ s.asleep = false ∧ r.gts + 250 ≤ s.gts ∧
        (s.ring.tail - s.ring.head).toNat ≠ 2 ^ (s.ring.lsize.toNat + 4) ∧ s.owned none (.phys a) = false
      (¬goes → s.flushRing (n + 1) = s) ∧
      (goes → ∃ t : State, s.flushRing (n + 1) = t.flushRing n ∧
        t.ring = { s.ring with buf := l, tail := s.ring.tail + 1 } ∧
        t.mem = (s.physStore a ([r.typ, r.flags] ++ bytesOf 2 r.source.toNat ++ bytesOf 4 s.ring.tail.toNat ++
          bytesOf 8 r.gts ++ bytesOf 8 r.p0.toNat ++ bytesOf 8 r.p1.toNat)).mem)) ∧
    (∀ v, s.mgmt.bootFailed = false → (∀ q, exec (.registerWrite (.qcfg q) v) s = .next ((s.setQueue q (fun x => x.writeCfg v)).settleHeader q) ∧
        exec (.registerWrite (.qtail q) v) s = exec (.qtailWrite q v) s ∧
        exec (.registerWrite (.qbase q) v) s = .next (s.setQueue q (fun x =>
          if x.en = true then x else { x with base := BitVec.ofNat 57 (v.toNat / 64 % 2 ^ 51 * 64) })) ∧
        exec (.registerWrite (.qhead q) v) s = .next s) ∧
      (s.ring.en = true → exec (.registerWrite .hevcfg v) s = .next { s with ring := { s.ring with
        ovf := s.ring.ovf && !v.getLsbD 62, en := v.getLsbD 63 } }) ∧
      (s.ring.en = false → let h := { s.ring with
          ovf := s.ring.ovf && !v.getLsbD 62, lsize := BitVec.ofNat 4 (v.toNat / 2 ^ 32 % 16) }
        exec (.registerWrite .hevcfg v) s = .next (if v.getLsbD 63 = true
          then { s with ring := { h with en := true, tail := 0, head := 0 } }.flushRing 256 else { s with ring := h })) ∧
      exec (.registerWrite .hevbase v) s = .next (if s.ring.en = true then s
        else { s with ring := { s.ring with base := BitVec.ofNat 52 (v.toNat / 64 % 2 ^ 46 * 64) } }) ∧
      exec (.registerWrite .hevhead v) s = exec (.hevheadWrite v) s ∧
      (∀ p, p = { s.power with
          hold := if v.getLsbD 0 = v.getLsbD 1 then s.power.hold else v.getLsbD 0, lost := s.power.lost && !v.getLsbD 16 } →
        exec (.registerWrite .pwrctl v) s = .next (if (p.brn = true ∨ p.hold = true) ∧ p.state = 0
          then { s with power := p }.enterBrownout else { s with power := p })) ∧
      exec (.registerWrite .hevtail v) s = .next s ∧ exec (.registerWrite .leasestat v) s = .next s ∧
      exec (.registerWrite .leasecfg v) s = .next { s with power := { s.power with
        src := BitVec.ofNat 12 (v.toNat / 2 ^ 32)
        failsafe := if 300 ≤ v.toNat % 2 ^ 16 ∧ v.toNat % 2 ^ 16 ≤ 2000 then BitVec.ofNat 16 v.toNat
          else s.power.failsafe } }) ∧
    (s.power.state ≠ 0 → exec .pwrctlEnter s = .next { s with power := { s.power with hold := true } } ∧
      exec .brnNAssert s = .next { s with power := { s.power with brn := true } }) ∧
    (s.power.state = 0 →
      exec .pwrctlEnter s = .next { s with power := { s.power with hold := true } }.enterBrownout ∧
      exec .brnNAssert s = .next { s with power := { s.power with brn := true } }.enterBrownout ∧
      s.enterBrownout.power = { s.power with state := 1, entryGts := s.gts, engPark := false }) ∧
    (s.power.brn = false ∨ s.power.state ≠ 0 → exec .pwrctlExit s = .next { s with power := { s.power with hold := false } }) ∧
    exec .brnNDeassert s = .next { s with power := { s.power with brn := false } } ∧
    (∀ d, s.context (ctxNum d) = none → s.mgmt.bootFailed = false → ∃ t : State,
      exec (.contextRegistration d) s = .next t ∧ t.ctxs = s.ctxs ++ [{ num := ctxNum d, desc := d }] ∧
      ∀ p, field (dw d 1) 0 12 ≤ p → p < field (dw d 1) 0 12 + field (dw d 1) 16 13 → assocGet 0 t.sync p = 0) ∧
    (∀ n x, s.context n = some x → s.ctxBusy n = false → ∃ t : State, exec (.contextDestruction n) s = .next t ∧
      t.context n = none ∧ (∀ m, m ≠ n → t.context m = s.context m) ∧ (∀ r ∈ t.regions, r.ctx ≠ n) ∧
      ∀ y ∈ t.teams, y.2.ctx ≠ n) ∧
    (∀ pa n d, hostMapped pa n = true → s.asleep = false → s.mgmt.bootFailed = false →
      (linesOf pa n).any (fun l => s.owned none (.phys (64 * l))) = false →
      let s1 := (s.recall none (linesOf pa n)).dropL2 (linesOf pa n)
      exec (.cxlHostAccess true pa n d) s = .next (s1.physStore pa (padTo n d)) ∧
      (poisoned s1 pa n = false → exec (.cxlHostAccess false pa n d) s = .next { s1 with hostRead := memRead s.mem pa n }) ∧
      (poisoned s1 pa n = true → exec (.cxlHostAccess false pa n d) s = .next { s1 with hostRead := [] })) ∧
    (∀ l x, (l, x) ∈ s.hostLines → s.mgmt.bootFailed = false →
      exec (.hostSnoop l true) s =
        .next { s.recall none [l] with hostLines := s.hostLines.filter (fun (x : Nat × Bool) => decide (x.1 ≠ l)) } ∧
      exec (.hostSnoop l false) s = .next
        ({ s with hostLines := s.hostLines.map (fun (x : Nat × Bool) => if x.1 = l then (l, false) else x) }.shareLine none l)) ∧
    (s.mgmt.bootFailed = false →
      (∀ n p, p < 4 → n ≠ 0xFFF → ∃ t : State, exec (.managementConfiguration (.route n (some p))) s = .next t ∧ t.routeTo n = some p ∧
        ∀ m, m ≠ n → t.routeTo m = s.routeTo m) ∧
      (∀ p n, p < 5 → n ≠ 0xFFF → ∃ t : State, exec (.managementConfiguration (.node p n)) s = .next t ∧
        t.link p = { s.link p with node := n } ∧ ∀ m, m ≠ p → t.link m = s.link m) ∧
      (∀ n c r b, ∃ t : State, exec (.managementConfiguration (.access n c r b)) s = .next t ∧
        ((n, c, r) ∈ t.mgmt.access ↔ b = true) ∧ ∀ x, x ≠ (n, c, r) → (x ∈ t.mgmt.access ↔ x ∈ s.mgmt.access)) ∧
      (∀ n m r, n < 1024 → ∃ t : State, exec (.managementConfiguration (.group n m r)) s = .next t ∧
        t.group n = some { num := n, members := m, root := r } ∧ ∀ k, k ≠ n → t.group k = s.group k) ∧
      (∀ f, ∃ t : State, exec (.managementConfiguration (.freeFrame f)) s = .next t ∧
        ∀ u, u ∈ t.mig.free ↔ u ∈ s.mig.free ∨ u / 32 = f / 2097152)) ∧
    (∀ n, n.length = 32 → let report := s.mgmt.digest ++ n ++ Config.sign (s.mgmt.digest ++ n)
      exec (.attestationRequest n) s = .next
        { s with mgmt := { s.mgmt with report := report }, hostRead := s.mgmt.mailbox ++ report })

/-- The power controller: brown-out from its deadline to its end, cold boot, crook, slow loop, lease expiry. (R278,
R382, R383, R386, R388, R389, R405) Choice of the model: memory that reads 0 after a cold boot, the roles and the
grant at boot, and the input forms of retention and boot (notes/assumptions/3.md, notes/assumptions/6.md). -/
def Obligations.PowerEventResults : Prop :=
  ∀ s : State,
    (s.power.state = 1 → s.power.entryGts + 1500000 ≤ s.gts →
      exec .engineParkDeadline s = .next { s with power := { s.power with engPark := true } }) ∧
    (s.power.state = 1 → s.stilled = true → s.drained = true → ∃ t : State, exec .brownoutHeld s = .next t ∧
      t.power = { s.power with state := 2 } ∧ t.links = s.links.map (Link.rest true) ∧ t.mem = s.mem ∧ t.core = s.core.retain ∧ t.core.l1 = [] ∧
      t.core.tlb = [] ∧ t.core.icache = [] ∧ ∀ p ∈ t.others, p.2.l1 = [] ∧ p.2.tlb = [] ∧ p.2.icache = []) ∧
    (s.power.state = 2 → s.power.brn = false → s.power.hold = false → exec .brownoutExit s = .next
      (if Config.retentionFails s.power.entryGts = true then s.coldBoot true
        else { s with power := { s.power with state := 3 } })) ∧
    (s.power.state = 3 → exec .brownoutResume s = .next
      (let s1 := s.teams.foldl (fun s t => s.resumeTeam t.1 t.2)
         { s with power := { s.power with engPark := false, state := 0 }, links := s.links.map (Link.rest false) }
       let s2 := s1.postAll (mkRec s1 9 0x8002 (word s.power.entryGts) (word s.gts))
       (s.teams.foldl (fun s t => s.goOn t.1) s2).checkHold)) ∧
    (∀ b l, l.width ≠ .down → (Link.rest b l).resting = b ∧ ∃ g : Flit, (Link.rest b l).out = l.out ++ [g] ∧ g.kind = 0 ∧
      flitNum g 0 1 = b.toNat) ∧
    (∃ t : State, exec .coldBoot s = .next t ∧ (∀ a, memGet t.mem a = if isHost a = true then memGet s.mem a else 0) ∧
      t.ctxs = [] ∧ t.teams = [] ∧ t.launches = [] ∧ t.regions = [] ∧ t.core = {} ∧ t.others = [] ∧ t.power.lost = false ∧
      ∀ d c, d < 8 → c < 66 → (t.cluster d c).role =
        (if Config.bootFails s.free d c = true then .retired else if c < 64 then .visible
         else if (c = 64 ↔ Config.bootFails s.free d 64 = false) then .paddock else .reserve)) ∧
    exec .supplyLoss s = .next (s.coldBoot (decide (s.power.state = 2))) ∧
    exec .crookAssert s = .next { s with power := { s.power with crookOn := true, crookEnd := none, crookCount := 4 } } ∧
    (s.power.crookOn = true → exec .crookDeassert s =
      .next { s with power := { s.power with crookOn := false, crookEnd := some s.gts } }) ∧
    (∀ n, s.power.crookEnd = some n → s.power.crookOn = false → n + 100000 ≤ s.gts → exec .crookRelease s =
      .next { s with power := { s.power with crookEnd := none }, timers := s.timers.set (6 : Fin 8) s.gts }) ∧
    (s.power.crookOn = false → s.power.crookEnd = none → s.power.crookCount < 16 → s.timers[(6 : Fin 8)] + 10000 ≤ s.gts →
      exec .crookRampStep s = .next { s with
        power := { s.power with crookCount := s.power.crookCount + 1 }, timers := s.timers.set (6 : Fin 8) s.gts }) ∧
    (∀ w, s.timers[(1 : Fin 8)] + 10000 ≤ s.gts → s.power.sampleCount < 100 → exec (.powerSample w) s = .next { s with
      power := { s.power with sampleSum := s.power.sampleSum + w, sampleCount := s.power.sampleCount + 1 }
      timers := s.timers.set (1 : Fin 8) s.gts }) ∧
    (s.power.sampleCount = 100 →
      let cap := (if s.power.leaseValid = true then s.power.leaseCap.toNat
        else if s.power.leaseExp = true then min s.power.leaseCap.toNat s.power.failsafe.toNat else s.power.failsafe.toNat)
      let held := s.power.crookOn = true ∨ s.power.crookEnd.isSome = true
      let gvl := (s.die 0).gvl
      let cc := s.power.capCount
      ∃ (t : State) (gvl' cc' : Nat), exec .powerLoop s = .next t ∧ t.power.capCount = cc' ∧ t.power.sampleCount = 0 ∧
        t.power.sampleSum = 0 ∧ (∀ d, d < 8 → (t.die d).gvl = gvl') ∧
        (100 * cap < s.power.sampleSum →
          (4096 < gvl → cc' = cc ∧ gvl' = if held then gvl else gvl - 1024) ∧
          (gvl ≤ 4096 → gvl' = gvl ∧ cc' = if 4 < cc then cc - 1 else cc)) ∧
        (s.power.sampleSum < 95 * cap →
          (cc < 16 → gvl' = gvl ∧ cc' = cc + 1) ∧
          (16 ≤ cc → cc' = cc ∧ gvl' = if gvl < 16384 ∧ ¬held then gvl + 1024 else gvl)) ∧
        (95 * cap ≤ s.power.sampleSum → s.power.sampleSum ≤ 100 * cap → gvl' = gvl ∧ cc' = cc)) ∧
    (s.power.leaseValid = true → s.power.leaseEnd ≤ s.gts → s.asleep = false → exec .leaseExpiry s =
      .next { s with power := { s.power with leaseValid := false, leaseExp := true } })

/-- Scores, sparing, bank roles, tests and swaps of clusters, and page migration. (R255, R279, R280, R281, R285, R288,
R293, R352, R376, R377, R379) Choice of the model: the replaced marks of a suspicion swap, one frame a scan,
TEST_RESULT, and SCRATCH bytes that read 0 (notes/assumptions/3.md, notes/assumptions/40.md, notes/assumptions/48.md).
-/
def Obligations.DieEventResults : Prop :=
  ∀ s : State,
    (s.timers[(5 : Fin 8)] / 3600000000000 + 1 = s.gts / 3600000000000 → ∃ t : State, exec .scoreHalving s = .next t ∧
      ∀ u, assocGet 0 t.mgmt.scores u =
        if u ∈ s.mgmt.replaced then assocGet 0 s.mgmt.scores u else assocGet 0 s.mgmt.scores u / 2) ∧
    (∀ c, (s.getCore c).resident = false →
      exec (.remap c) s = .next ((List.range 256).foldl (fun s l => s.retireSuspect c l)
        ((s.getCore c).failedRows.eraseDups.foldl (fun s x => s.retireRow c x)
          (s.setCore c { s.getCore c with failedRows := [] }))) ∧
      (∀ g row, let n := ((s.getCore c).spareRows.filter (fun y => decide (y.1 = g))).length
        (n < 16 → ((s.retireRow c (g, row)).getCore c).physRow g row = 1008 + n) ∧
        (16 ≤ n → s.retireRow c (g, row) = s.score (.core c) 64)) ∧
      ∀ l, s.suspect (.laneGroup c ((s.getCore c).physGroup l)) = true →
        (2 ≤ (s.getCore c).spareGroups → s.retireSuspect c l =
          (s.score (.core c) 64).markReplaced (.laneGroup c ((s.getCore c).physGroup l))) ∧
        ((s.getCore c).spareGroups < 2 →
          (List.range 256).find? (fun k => (s.getCore c).physGroup k == (s.getCore c).physGroup l) = some l →
          ((s.retireSuspect c l).getCore c).physGroup l = 256 + (s.getCore c).spareGroups)) ∧
    (∀ d b, s.suspect (.bank d b) = true → 2 ≤ (s.die d).bankSpares →
      exec (.bankSpare d b) s = .next ((s.report (.bank d b)).markReplaced (.bank d b))) ∧
    (∀ d b l, d < 8 → s.suspect (.bank d b) = true → (s.die d).bankSpares < 2 →
      (List.range 32).find? (fun l => assocGet l (s.die d).bankMap l == b) = some l →
      exec (.bankSpare d b) s = .next ((s.setDie d (fun x => { x with
        bankMap := assocSet x.bankMap l (32 + x.bankSpares), bankSpares := x.bankSpares + 1 })).markReplaced (.bank d b))) ∧
    (∀ d, d < 8 → 2 ^ 20 ≤ (s.die d).hotCount → exec (.hotCounterHalving d) s = .next (s.setDie d (fun x => { x with
      hot := x.hot.map (fun y => (y.1, y.2 / 2)), hotCount := x.hotCount - 2 ^ 20 }))) ∧
    (s.timers[(4 : Fin 8)] + 1000000 ≤ s.gts → exec .frameCounterHalving s = .next { s with
      mig := { s.mig with counts := s.mig.counts.map (fun y => (y.1, y.2 / 2)) }
      timers := s.timers.set (4 : Fin 8) s.gts }) ∧
    (∀ d b r, d < 8 → b < 32 → (s.die d).bankBusy = true → (s.die d).newRoles = [(b, r)] →
      (s.die d).opPins.any (fun p => decide (p.bank = b)) = false → ∃ t : State,
      exec (.bankRoleChange d) s = .next t ∧ (t.die d).bankBusy = false ∧ (t.die d).newRoles = [] ∧
      (∀ i, i < 32 → (t.die d).roles.toList.getD i 0 = if i = b then r else (s.die d).roles.toList.getD i 0) ∧
      ∀ a, memGet t.mem a = if ((s.die d).roles.toList.getD b 0 = 1 ∨ r = 1) ∧ scratchBase d b ≤ a ∧
        a < scratchBase d b + 6291456 then 0 else memGet s.mem a) ∧
    (∀ d out p, (s.die d).paddockReady = true → (s.die d).swap = none → s.power.state = 0 → s.paddock d = some p →
      (∀ n, ((s.die d).lastSwapEnd = none ∨ (s.die d).lastSwapEnd = some n ∧ n + 60000000000 ≤ s.gts) →
        s.suspectCluster d = none → s.nextVisible d (s.die d).rotPtr = some out →
        exec (.timedRotation d) s = .next ((s.beginSwap d out (some p) 0).setDie d (fun x => { x with rotPtr := out }))) ∧
      (s.suspectCluster d = some out → exec (.suspicionSwap d) s = .next
        (((ScoreUnit.cluster d out :: (List.range 8).map (fun k => ScoreUnit.core ⟨d, out, k⟩)).filter s.suspect).foldl
          State.markReplaced (s.beginSwap d out (some p) 0)))) ∧
    (∀ d w, (s.die d).swap = some w → s.teamsOn d w.out = [] → s.clusterIdle d w.out = true →
      s.power.state = 0 →
      let s1 := (s.beginTest d w.out).setDie d (fun x => { x with swap := none, lastSwapEnd := some s.gts })
      exec (.swapEnd d) s = .next (if w.inn = none then s1.topoChange d w.failed else s1)) ∧
    (∀ d c v, s.paddock d = some c → (s.die d).paddockReady = false → s.power.state = 0 →
      let told (t : State) (n : Nat) : State :=
        t.postHost (mkRec s 11 0x8000 (word (d % 16 * 2 ^ 16 + c * 2 ^ 32 + n)) (word (s.die d).testBegan))
      (v ≠ 1 → exec (.testResult d v) s = .next ((told s 0).retire d c)) ∧
      (∀ t, v = 1 → s.remapFaults (s.die d).testFaults = (t, false) → exec (.testResult d v) s = .next ((told t 0).retire d c)) ∧
      (∀ t, v = 1 → s.remapFaults (s.die d).testFaults = (t, true) → exec (.testResult d v) s =
        .next ((told t (2 ^ 40)).setDie d (fun x => { x with paddockReady := true, testFaults := [] })))) ∧
    (s.timers[(3 : Fin 8)] + 1000000 ≤ s.gts → s.power.state = 0 →
      let s1 := { s with timers := s.timers.set (3 : Fin 8) s.gts }
      ∀ hot, bestOf (fun a b => decide (s.frameCount b < s.frameCount a)) (s.autoFrames 1) = some hot →
      ∀ cold, bestOf (fun a b => decide (s.frameCount a < s.frameCount b)) (s.autoFrames 0) = some cold →
        exec .migrationScan s = .next (if s.frameCount hot < 2 * s.frameCount cold then s1 else { s1 with
          mig := { s.mig with reqs := s.mig.reqs ++ (if s.freeFrames 0 bigPage = [] then [autoReq cold 1, autoReq hot 0]
            else [autoReq hot 0]).filter (fun r => !s.autoPending r) } })) ∧
    (∀ r rest, s.mig.reqs = r :: rest → s.mig.run = none → s.power.state = 0 →
      let s1 := { s with mig := { s.mig with reqs := rest } }
      (s.pageOf r = none → exec .migration s = .next (s1.migDone r 2 (s1.tierNow r))) ∧
      (∀ leaf e size, s.pageOf r = some (leaf, e, size) →
        let f := leafFrame e
        let free := s.freeFrames r.tier.toNat size
        (s.opPinned f size = true → exec .migration s = .next s) ∧
        (s.opPinned f size = false →
        (tierOf f = r.tier.toNat → exec .migration s = .next (s1.migDone r 1 (tierOf f))) ∧
        (tierOf f ≠ r.tier.toNat → free = [] → exec .migration s = .next (s1.migDone r 4 (tierOf f))) ∧
        (tierOf f ≠ r.tier.toNat → free ≠ [] → ∃ (t : State) (m : MigRun), exec .migration s = .next t ∧
          t.mig.run = some m ∧ m.leaf = leaf ∧ m.size = size ∧ m.src = f ∧ m.dst ∈ free ∧ m.req = r ∧ t.mig.reqs = rest ∧
          ∀ u ∈ unitsIn m.dst size, u ∉ t.mig.free)))) ∧
    (∀ m, s.mig.run = some m → s.asleep = false → s.power.engPark = false →
      let e := (physWord s m.leaf &&& ~~~(0x0100_0000_0000_0000#64 ||| 0x000F_FFFF_FFFF_FF00#64)) |||
        word (m.dst / 256 * 256)
      let s1 := (s.copyPage m.src m.dst m.size).storeLeaf m.leaf e
      exec .migrateDone s = .next ((List.range 64).foldl (fun s q => s.settleQueue q) (State.migDone { s1 with mig := { s1.mig with
        run := none, free := s1.mig.free ++ unitsIn m.src m.size
        rmap := s1.mig.rmap.map (fun x => if x.1 = m.leaf ∧ x.2.1 = m.src then (x.1, m.dst, x.2.2) else x) } }
        m.req 0 (tierOf m.dst))))

/-- Taking a trap saves its state, raises the level and goes to the handler; a trap in a handler stops the sequencer.
(R97, R98, R99, R100) -/
def Obligations.TrapEntryResults : Prop :=
  ∀ (s : State) (c : Cause) (val pc : Word),
    let t := s.thr
    let u := s.takeTrap c val pc
    let n := trapNoted s c val pc
    let base := sext57 (s.hart.tvecOf s.who &&& 0x01FF_FFFF_FFFF_FFFC#64)
    let entry := (base &&& ~~~0x7FF#64) + word (8 * c.code.toNat)
    (t.busy = true → u.thr.run = .stopped ∧ u.thr.tcause = t.tcause ∧ u.thr.pc = t.pc ∧ u.thr.g = t.g ∧
      ∀ x ∈ u.ctxs, x.num = s.hart.ctx → x.failed = true) ∧
    (t.busy = false → (s.hart.tvecOf s.who).getLsbD 63 = false →
      u = n.setThr { trapThread s c val pc with pc := base } ∧ u.thr.g = t.g ∧ (t.wait = none → u.thr.full = t.full) ∧
      u.thr.fills = t.fills ∧ u.thr.loops = t.loops ∧ u.thr.rets = t.rets ∧ u.thr.tvec = t.tvec ∧ u.thr.tkeep = t.tkeep ∧
      u.mem = s.mem ∧ u.others = s.others ∧ ∀ w, w ≠ s.who → u.hart.thr w = s.hart.thr w) ∧
    (t.busy = false → (s.hart.tvecOf s.who).getLsbD 63 = true →
      (∀ s2, resolve n n.loc false .read entry 8 = .stall s2 → u = s) ∧
      (∀ p s2, resolve n n.loc false .read entry 8 = .ok p s2 →
        let h := word (ofBytes (s2.loadAt p 8))
        (s2.poisonedAt p 8 = false → h.toNat % 4 = 0 → u = s2.setThr { s2.thr with pc := h }) ∧
        (s2.poisonedAt p 8 = true ∨ h.toNat % 4 ≠ 0 → u = s2.doubleTrap c pc)) ∧
      (∀ e s2, resolve n n.loc false .read entry 8 = .fail e s2 → u = s2.doubleTrap c pc))

/-- The checks of R38 name their causes in order and trap before any effect; empty sources wait or trap. (R38, R45,
R13, R17, R19, R42, R46, R48, R73, R75) -/
def Obligations.ChecksTrapBeforeAnyEffect : Prop :=
  ∀ s : State, s.core.resident = true →
    (∀ w, ChecksSay w s) ∧
    (∀ (i : Instr) (c : Cause), i.encoded = true → gate (encode i) s = some c →
      exec i s = .next (s.takeTrap (if csrFails i s = true then .ill else c) (wordVal i) s.thr.pc)) ∧
    (∀ i : Instr, csrFails i s = true → exec i s = .next (s.takeTrap .ill (wordVal i) s.thr.pc)) ∧
    (∀ (d a b : BitVec 5) (f g : BitVec 1) (o : BitVec 12) (n : BitVec 15) (x : BitVec 11) (q : BitVec 2) (l : BitVec 1)
      (sc : BitVec 3) (e : BitVec 16) (p : BitVec 6),
      (∀ row ∈ int2Table, Empties (row.1 d a b f g) [(a, f), (b, g)] s) ∧
      (∀ row ∈ immTable, Empties (row.1 d a f n) [(a, f)] s) ∧
      (∀ row ∈ loadTable, Empties (row.op d a f o) [(a, f)] s) ∧
      (∀ row ∈ storeTable, Empties (row.1 d a f o) [(a, f), (d, f)] s) ∧
      (∀ row ∈ branchTable, Empties (row.1 a b f g x) [(a, f), (b, g)] s) ∧
      (∀ row ∈ atomTable, Empties (row.1 d a b f g q sc) [(a, f), (b, g)] s) ∧
      (∀ row ∈ redTable, Empties (row.op a b f g l sc) [(a, f), (b, g)] s) ∧
      (∀ row ∈ vintsTable, Empties (row.op d a b p) [(b, 0)] s) ∧
      (∀ y ∈ [((.clz d a f : Instr), [(a, f)]), (.ctz d a f, [(a, f)]), (.popc d a f, [(a, f)]), (.mov d a f, [(a, f)]),
        (.atcas d a b f g q sc, [(a, f), (b, g), (d, 0)]), (.jmpr a, [(a, 0)]), (.callr a, [(a, 0)]), (.loop a e, [(a, 0)]),
        (.ins16 d q e, [(d, 0)]), (.vbcast d b p, [(b, 0)]), (.lda d a f sc, [(a, f)]), (.stl a b f g sc, [(a, f), (b, g)]),
        (.ldff d a f o, [(a, f)]), (.ldfe d a f o, [(a, f)]), (.stff d a f o, [(a, f), (d, f)])], Empties y.1 y.2 s)) ∧
    (∀ d a r n, ∀ i ∈ privTable d a r n, s.thr.super = false →
      exec i s = .next (s.takeTrap .priv (wordVal i) s.thr.pc))

/-- LEXIT pops the innermost entry of its call level and leaves its body, else it only advances. (R77) -/
def Obligations.LexitPopsTheInnermostLoop : Prop :=
  decode 0x3C000003#32 = .ok .lexit ∧ encode .lexit = 0x3C000003#32 ∧
    ∀ s : State, Ready .lexit [] s →
      (∀ x rest, s.thr.loops = x :: rest → x.lvl = s.thr.clvl →
        exec .lexit s = .next (s.setThr { s.thr with loops := rest, pc := x.fin + 4, wait := none })) ∧
      ((∀ x ∈ s.thr.loops, x.lvl ≠ s.thr.clvl) →
        exec .lexit s = .next (s.setThr { s.thr with pc := s.thr.pc + 4, wait := none }))

/-- Every 10 ms each cluster loses a thermal count when it is stuck hot and regains one when it is cool. (R384) -/
def Obligations.ThermalCountsAdjust : Prop :=
  ∀ s : State,
    (s.timers[(2 : Fin 8)] + 10000000 ≤ s.gts → ∃ t : State, exec .thermalAdjust s = .next t ∧
      ∀ d c, d < 8 → c < 66 → let k := s.cluster d c
        t.cluster d c = { k with thermal :=
          if 105 < k.temp ∧ k.stuckHot = true then max 4 (k.thermal - 1)
          else if k.temp ≤ 100 then min 16 (k.thermal + 1) else k.thermal }) ∧
    (s.gts < s.timers[(2 : Fin 8)] + 10000000 → exec .thermalAdjust s = .next s)

/-- A step whose turn is a thread fetches the word at its PC and executes the instruction it decodes to. (R36, R37,
R72, R99) Choice of the model: the agenda, its rotation, and the tick and input turns, which are the schedule of the
model (notes/assumptions/1.md). -/
def Obligations.StepRunsTheDecodedInstruction : Prop :=
  (∀ (s : State) (c : CoreId) (w : Who) (rest : List Turn), s.agenda = .thread c w :: rest →
      let u := { s with agenda := rest }.focus c w
      (u.core.canRun u.who = false → step s = .next u) ∧
      (u.core.canRun u.who = true → u.thr.deferred ≠ [] → step s = .next u.deliver) ∧
      (u.core.canRun u.who = true → u.thr.deferred = [] →
        let f := fetch (if u.who = .a then u else u.applyDs u.loc)
        (∀ x t i, f = .ok x t → (decode x = .ok i ∨ (∃ e, decode x = .error e) ∧ i = .ill x) →
          (u.thr.cut = none → step s = exec i (t.takenUp x)) ∧
          (∀ v, exec i (t.takenUp x) = .next v → step s = .next (v.endCut u)) ∧
          (∀ e, exec i (t.takenUp x) = .fault e → step s = .fault e) ∧
          (t.who = .a ∨ (gate x t).isSome = true ∨ laneWord t x = false ∨ (∃ e, decode x = .error e) → t.takenUp x = t)) ∧
        (∀ e t, f = .fail e t → step s = .next (t.takeTrap e t.thr.pc t.thr.pc)) ∧
        (∀ t, f = .stall t → step s = .next t))) ∧
    (∀ (u : State) pa tlb t, canonical u.thr.pc = true → u.thr.pc.toNat < windowBase → pa % 4 = 0 →
      u.xlate none u.core.tlb 256 u.hart.ctx (!u.thr.super) .fetch u.thr.pc = .ok pa tlb t →
      (assocFind t.core.icache (pa / 64) = none → { t with core := { t.core with tlb := tlb } }.owned none (.phys pa) = false → ∃ v : State,
        fetch u = .ok (BitVec.ofNat 32 (ofBytes (memRead t.mem pa 4))) v ∧ v.mem = t.mem) ∧
      (∀ line, assocFind t.core.icache (pa / 64) = some line → ∃ v : State,
        fetch u = .ok (BitVec.ofNat 32 (ofBytes ((line.drop (pa % 64)).take 4))) v ∧ v.mem = t.mem)) ∧
    (∀ (s : State) (i : Instr) rest, s.agenda = .event i :: rest → step s = exec i { s with agenda := rest }) ∧
    (∀ (s : State) (n : Nat) rest, s.agenda = .tick n :: rest → step s = .next ({ s with agenda := rest }.tick n)) ∧
    (∀ (s : State) (x : Input) rest, s.agenda = .input x :: rest → step s = .next ({ s with agenda := rest }.input x)) ∧
    (∀ s : State, s.agenda = [] → step s = step { s with auto := s.auto + 1, agenda := [s.autoTurn] })

/-- Words that the spec writes out decode to their instructions; the SPL group as R207 says. (R207) -/
def Obligations.WordsDecodeAsWritten : Prop :=
  (∀ p ∈ wordTable, decode (BitVec.ofNat 32 p.1) = .ok p.2 ∧ encode p.2 = BitVec.ofNat 32 p.1) ∧
    decode 0x9C800000#32 = .ok (.split 4) ∧ decode 0x9C000001#32 = .ok .join ∧ decode 0x9CC00002#32 = .ok (.mtid 6) ∧
    (∀ n : BitVec 5, n ∈ [1, 2, 4, 8, 16] → decode (0x9C000000#32 + (n.setWidth 32 <<< 21)) = .ok (.split n)) ∧
    (∀ n : BitVec 5, n ∉ [1, 2, 4, 8, 16] →
      decode (0x9C000000#32 + (n.setWidth 32 <<< 21)) = .error .illegalOperand) ∧
    (∀ d : BitVec 5, decode (0x9C000002#32 + (d.setWidth 32 <<< 21)) = .ok (.mtid d)) ∧
    (∀ x y z : BitVec 5, ∀ f : BitVec 11, f.toNat < 3 → (y ≠ 0 ∨ z ≠ 0 ∨ f = 1 ∧ x ≠ 0) →
      ∃ e, decode (0x9C000000#32 + (x.setWidth 32 <<< 21) + (y.setWidth 32 <<< 16) + (z.setWidth 32 <<< 11) +
        f.setWidth 32) = .error e) ∧
    (∀ (s : State) (i : Instr), (i = .join ∨ ∃ n, i = .split n) → s.core.resident = true → s.who = .a →
      exec i s = .next (s.takeTrap .ill (wordVal i) s.thr.pc)) ∧
    (decode 0#32 = .error .unassignedMajor ∧ decode 0xFC000000#32 = .error .unassignedMajor)

/-- Every well-formed instruction of the encoding is what its word decodes to. (R36, R37, R39, R41, R43, R44, R46) -/
def Obligations.DecodeEncodeAgree : Prop :=
  ∀ i : Instr, i.encoded = true → i.wellFormed = true → decode (encode i) = .ok i

/-- Every step keeps the memory in its canonical form. (R6, R65, R350) -/
def Obligations.EveryStepKeepsMemoryCanonical : Prop :=
  ∀ s t : State, s.memOk → step s = .next t → t.memOk

/-- The machine after cold boot, and a hart as placed. (R14, R27, R98, R278, R287, R346, R356, R374, R385, R407)
Choice of the model: memory that lists nothing, and the counts of the power cap, the crook and the thermal control at
reset (notes/assumptions/3.md, notes/assumptions/6.md). -/
def Obligations.ResetState : Prop :=
  (State.reset.memOk ∧ State.reset.mem = [] ∧ State.reset.gts = 0 ∧ State.reset.core.resident = false ∧
      State.reset.others = [] ∧ State.reset.ctxs = [] ∧ State.reset.teams = [] ∧ State.reset.regions = [] ∧
      State.reset.cmds = [] ∧ State.reset.launches = []) ∧
    (∀ q, q < 64 → let x := State.reset.queue q
      x.en = false ∧ x.err = false ∧ x.flt = false ∧ x.prio = 0 ∧ x.quantum = 1 ∧ x.lsize = 0 ∧ x.ctx = 0 ∧ x.base = 0 ∧
        x.tail = 0 ∧ x.head = 0) ∧
    (let r := State.reset.ring
     r.en = false ∧ r.ovf = false ∧ r.lsize = 0 ∧ r.base = 0 ∧ r.tail = 0 ∧ r.head = 0) ∧
    (let p := State.reset.power
     p.state = 0 ∧ p.hold = false ∧ p.lost = false ∧ p.src = 0 ∧ p.failsafe = 1200 ∧ p.leaseValid = false ∧
       p.leaseExp = false ∧ p.cap = 1200 ∧ p.leaseSeq = 0 ∧ p.capCount = 16 ∧ p.crookCount = 16) ∧
    (∀ d, d < 8 → (State.reset.die d).gvl = 16384 ∧ (State.reset.die d).bankSel = false ∧
      (State.reset.die d).bankBusy = false ∧
      (∀ b, b < 32 → (State.reset.die d).roles.toList.getD b 0 = if b = 31 then 4 else 0) ∧
      ∀ c, c < 66 → (State.reset.cluster d c).role = (if c < 64 then .visible else if c = 64 then .paddock else .reserve) ∧
        (State.reset.cluster d c).pattern = 0xFFFF ∧ (State.reset.cluster d c).thermal = 16) ∧
    (∀ tid ctx team n id lid tvec areas,
      let h := newHart tid ctx team n id lid tvec areas
      h.team = tid ∧ h.ctx = ctx ∧ h.teamid = team ∧ h.teamsize = n ∧ h.hartid = id ∧ h.corelid = lid ∧ h.ds = false ∧
      h.fetimeout = 1000 ∧ h.vtimeout = 10000 ∧ h.waittimeout = 100000 ∧ h.predeadline = 100 ∧ h.cycles = 0 ∧ h.split = 0 ∧
      h.ex.vl = 0 ∧ h.ex.ew = 0 ∧ h.ex.fmt = 0 ∧ h.ex.esel = 0 ∧ h.ex.vstart = 0 ∧ h.ex.vrstate = 0 ∧ h.ex.msdepth = 0 ∧
      h.ex.pfx = {} ∧ h.ex.ccnt = 0 ∧ h.ex.seamctl = 0 ∧ h.ex.sampstat = 0 ∧ h.ex.tilerows = 128 ∧ h.ex.tilecols = 128 ∧
      h.ex.fstat = 0 ∧ h.ex.rcls = 1 ∧
      ∀ t ∈ [h.a, h.e], t.tvec = tvec ∧ t.tcause = 0 ∧ t.tval = 0 ∧ t.tpc = 0 ∧ t.tkeep = 0 ∧ t.busy = false ∧
        t.super = false ∧ t.pfxp = false ∧ t.plvl = false ∧ t.clvl = 0 ∧ t.loops = [] ∧ t.rets = [] ∧
        (∀ r, t.isFull r = true) ∧ ∀ r, t.reg r = 0)
end

