-- ==== Sys2Proof/Laws/Encode.lean ====
section
/-! SUPPORT. Sys2Proof/Laws/Encode.lean: the fields that each format's word gives back (R39). -/

namespace Sys2Proof

/-- A field of a word, by its number. -/
theorem bits_eq {w : BitVec 32} {lo n : Nat} {x : BitVec n} (h : w.toNat / 2 ^ lo % 2 ^ n = x.toNat) : bits w lo n = x := by
  apply BitVec.eq_of_toNat_eq
  rw [BitVec.extractLsb'_toNat, Nat.shiftRight_eq_div_pow]
  exact h

/-- A part of a field. -/
theorem bits_sub {w : BitVec 32} {m : Nat} (lo k l n : Nat) (h : l = lo + k) (hk : k + n ≤ m) :
    bits w l n = (bits w lo m).extractLsb' k n := by
  subst h
  apply BitVec.eq_of_getLsbD_eq
  intro i hi
  have h2 : k + i < m := by omega
  simp [hi, h2, Nat.add_assoc]

/-- Two neighbouring fields that are zero. -/
theorem bits_join {w : BitVec 32} (lo a hi b n : Nat) (h : hi = lo + a) (hn : n = a + b) (h1 : bits w lo a = 0#a)
    (h2 : bits w hi b = 0#b) : bits w lo n = 0#n := by
  subst h hn
  apply BitVec.eq_of_getLsbD_eq
  intro i hi
  have e1 := congrArg (fun x => x.getLsbD i) h1
  have e2 := congrArg (fun x => x.getLsbD (i - a)) h2
  simp only [BitVec.getLsbD_extractLsb', BitVec.getLsbD_zero] at *
  by_cases h : i < a
  · simpa [h, hi] using e1
  · have e3 : lo + a + (i - a) = lo + i := by omega
    have e4 : i - a < b := by omega
    rw [e3] at e2
    simpa [e4, hi] using e2

/-- An instruction is accepted when its zero fields are zero and its operands admitted. -/
theorem accept_ok {w : BitVec 32} {zs : List (Nat × Nat)} {i : Instr} (hz : zs.all (fun z => (w.extractLsb' z.1 z.2).toNat == 0) = true)
    (h : i.wellFormed = true) : accept w zs i = .ok i := by
  unfold accept; rw [if_pos hz, if_pos h]

theorem wA_toNat (major : BitVec 6) (d a b : BitVec 5) (f g : BitVec 1) (fn : BitVec 9) :
    (wA major d a b f g fn).toNat = major.toNat * 2 ^ 26 + d.toNat * 2 ^ 21 + a.toNat * 2 ^ 16 + b.toNat * 2 ^ 11 + f.toNat * 2 ^ 10 + g.toNat * 2 ^ 9 + fn.toNat := by
  simp only [wA, BitVec.toNat_ofNat]; omega

theorem wA_major (major : BitVec 6) (d a b : BitVec 5) (f g : BitVec 1) (fn : BitVec 9) : bits (wA major d a b f g fn) 26 6 = major :=
  bits_eq (by rw [wA_toNat]; omega)

theorem wA_d (major : BitVec 6) (d a b : BitVec 5) (f g : BitVec 1) (fn : BitVec 9) : bits (wA major d a b f g fn) 21 5 = d :=
  bits_eq (by rw [wA_toNat]; omega)

theorem wA_a (major : BitVec 6) (d a b : BitVec 5) (f g : BitVec 1) (fn : BitVec 9) : bits (wA major d a b f g fn) 16 5 = a :=
  bits_eq (by rw [wA_toNat]; omega)

theorem wA_b (major : BitVec 6) (d a b : BitVec 5) (f g : BitVec 1) (fn : BitVec 9) : bits (wA major d a b f g fn) 11 5 = b :=
  bits_eq (by rw [wA_toNat]; omega)

theorem wA_f (major : BitVec 6) (d a b : BitVec 5) (f g : BitVec 1) (fn : BitVec 9) : bits (wA major d a b f g fn) 10 1 = f :=
  bits_eq (by rw [wA_toNat]; omega)

theorem wA_g (major : BitVec 6) (d a b : BitVec 5) (f g : BitVec 1) (fn : BitVec 9) : bits (wA major d a b f g fn) 9 1 = g :=
  bits_eq (by rw [wA_toNat]; omega)

theorem wA_fn (major : BitVec 6) (d a b : BitVec 5) (f g : BitVec 1) (fn : BitVec 9) : bits (wA major d a b f g fn) 0 9 = fn :=
  bits_eq (by rw [wA_toNat]; omega)

theorem wI_toNat (major : BitVec 6) (d a : BitVec 5) (f : BitVec 1) (i : BitVec 15) :
    (wI major d a f i).toNat = major.toNat * 2 ^ 26 + d.toNat * 2 ^ 21 + a.toNat * 2 ^ 16 + f.toNat * 2 ^ 15 + i.toNat := by
  simp only [wI, BitVec.toNat_ofNat]; omega

theorem wI_major (major : BitVec 6) (d a : BitVec 5) (f : BitVec 1) (i : BitVec 15) : bits (wI major d a f i) 26 6 = major :=
  bits_eq (by rw [wI_toNat]; omega)

theorem wI_d (major : BitVec 6) (d a : BitVec 5) (f : BitVec 1) (i : BitVec 15) : bits (wI major d a f i) 21 5 = d :=
  bits_eq (by rw [wI_toNat]; omega)

theorem wI_a (major : BitVec 6) (d a : BitVec 5) (f : BitVec 1) (i : BitVec 15) : bits (wI major d a f i) 16 5 = a :=
  bits_eq (by rw [wI_toNat]; omega)

theorem wI_f (major : BitVec 6) (d a : BitVec 5) (f : BitVec 1) (i : BitVec 15) : bits (wI major d a f i) 15 1 = f :=
  bits_eq (by rw [wI_toNat]; omega)

theorem wI_i (major : BitVec 6) (d a : BitVec 5) (f : BitVec 1) (i : BitVec 15) : bits (wI major d a f i) 0 15 = i :=
  bits_eq (by rw [wI_toNat]; omega)

theorem wM_toNat (major : BitVec 6) (d a : BitVec 5) (f : BitVec 1) (fn : BitVec 3) (o : BitVec 12) :
    (wM major d a f fn o).toNat = major.toNat * 2 ^ 26 + d.toNat * 2 ^ 21 + a.toNat * 2 ^ 16 + f.toNat * 2 ^ 15 + fn.toNat * 2 ^ 12 + o.toNat := by
  simp only [wM, BitVec.toNat_ofNat]; omega

theorem wM_major (major : BitVec 6) (d a : BitVec 5) (f : BitVec 1) (fn : BitVec 3) (o : BitVec 12) : bits (wM major d a f fn o) 26 6 = major :=
  bits_eq (by rw [wM_toNat]; omega)

theorem wM_d (major : BitVec 6) (d a : BitVec 5) (f : BitVec 1) (fn : BitVec 3) (o : BitVec 12) : bits (wM major d a f fn o) 21 5 = d :=
  bits_eq (by rw [wM_toNat]; omega)

theorem wM_a (major : BitVec 6) (d a : BitVec 5) (f : BitVec 1) (fn : BitVec 3) (o : BitVec 12) : bits (wM major d a f fn o) 16 5 = a :=
  bits_eq (by rw [wM_toNat]; omega)

theorem wM_f (major : BitVec 6) (d a : BitVec 5) (f : BitVec 1) (fn : BitVec 3) (o : BitVec 12) : bits (wM major d a f fn o) 15 1 = f :=
  bits_eq (by rw [wM_toNat]; omega)

theorem wM_fn (major : BitVec 6) (d a : BitVec 5) (f : BitVec 1) (fn : BitVec 3) (o : BitVec 12) : bits (wM major d a f fn o) 12 3 = fn :=
  bits_eq (by rw [wM_toNat]; omega)

theorem wM_o (major : BitVec 6) (d a : BitVec 5) (f : BitVec 1) (fn : BitVec 3) (o : BitVec 12) : bits (wM major d a f fn o) 0 12 = o :=
  bits_eq (by rw [wM_toNat]; omega)

theorem wB_toNat (major : BitVec 6) (a b : BitVec 5) (f g : BitVec 1) (fn : BitVec 3) (o : BitVec 11) :
    (wB major a b f g fn o).toNat = major.toNat * 2 ^ 26 + a.toNat * 2 ^ 21 + b.toNat * 2 ^ 16 + f.toNat * 2 ^ 15 + g.toNat * 2 ^ 14 + fn.toNat * 2 ^ 11 + o.toNat := by
  simp only [wB, BitVec.toNat_ofNat]; omega

theorem wB_major (major : BitVec 6) (a b : BitVec 5) (f g : BitVec 1) (fn : BitVec 3) (o : BitVec 11) : bits (wB major a b f g fn o) 26 6 = major :=
  bits_eq (by rw [wB_toNat]; omega)

theorem wB_a (major : BitVec 6) (a b : BitVec 5) (f g : BitVec 1) (fn : BitVec 3) (o : BitVec 11) : bits (wB major a b f g fn o) 21 5 = a :=
  bits_eq (by rw [wB_toNat]; omega)

theorem wB_b (major : BitVec 6) (a b : BitVec 5) (f g : BitVec 1) (fn : BitVec 3) (o : BitVec 11) : bits (wB major a b f g fn o) 16 5 = b :=
  bits_eq (by rw [wB_toNat]; omega)

theorem wB_f (major : BitVec 6) (a b : BitVec 5) (f g : BitVec 1) (fn : BitVec 3) (o : BitVec 11) : bits (wB major a b f g fn o) 15 1 = f :=
  bits_eq (by rw [wB_toNat]; omega)

theorem wB_g (major : BitVec 6) (a b : BitVec 5) (f g : BitVec 1) (fn : BitVec 3) (o : BitVec 11) : bits (wB major a b f g fn o) 14 1 = g :=
  bits_eq (by rw [wB_toNat]; omega)

theorem wB_fn (major : BitVec 6) (a b : BitVec 5) (f g : BitVec 1) (fn : BitVec 3) (o : BitVec 11) : bits (wB major a b f g fn o) 11 3 = fn :=
  bits_eq (by rw [wB_toNat]; omega)

theorem wB_o (major : BitVec 6) (a b : BitVec 5) (f g : BitVec 1) (fn : BitVec 3) (o : BitVec 11) : bits (wB major a b f g fn o) 0 11 = o :=
  bits_eq (by rw [wB_toNat]; omega)

theorem wJ_toNat (major : BitVec 6) (o : BitVec 26) :
    (wJ major o).toNat = major.toNat * 2 ^ 26 + o.toNat := by
  simp only [wJ, BitVec.toNat_ofNat]; omega

theorem wJ_major (major : BitVec 6) (o : BitVec 26) : bits (wJ major o) 26 6 = major :=
  bits_eq (by rw [wJ_toNat]; omega)

theorem wJ_o (major : BitVec 6) (o : BitVec 26) : bits (wJ major o) 0 26 = o :=
  bits_eq (by rw [wJ_toNat]; omega)

theorem wL_toNat (major : BitVec 6) (a : BitVec 5) (e : BitVec 16) :
    (wL major a e).toNat = major.toNat * 2 ^ 26 + a.toNat * 2 ^ 21 + e.toNat := by
  simp only [wL, BitVec.toNat_ofNat]; omega

theorem wL_major (major : BitVec 6) (a : BitVec 5) (e : BitVec 16) : bits (wL major a e) 26 6 = major :=
  bits_eq (by rw [wL_toNat]; omega)

theorem wL_a (major : BitVec 6) (a : BitVec 5) (e : BitVec 16) : bits (wL major a e) 21 5 = a :=
  bits_eq (by rw [wL_toNat]; omega)

theorem wL_e (major : BitVec 6) (a : BitVec 5) (e : BitVec 16) : bits (wL major a e) 0 16 = e :=
  bits_eq (by rw [wL_toNat]; omega)

theorem wLI_toNat (major : BitVec 6) (c : BitVec 10) (e : BitVec 16) :
    (wLI major c e).toNat = major.toNat * 2 ^ 26 + c.toNat * 2 ^ 16 + e.toNat := by
  simp only [wLI, BitVec.toNat_ofNat]; omega

theorem wLI_major (major : BitVec 6) (c : BitVec 10) (e : BitVec 16) : bits (wLI major c e) 26 6 = major :=
  bits_eq (by rw [wLI_toNat]; omega)

theorem wLI_c (major : BitVec 6) (c : BitVec 10) (e : BitVec 16) : bits (wLI major c e) 16 10 = c :=
  bits_eq (by rw [wLI_toNat]; omega)

theorem wLI_e (major : BitVec 6) (c : BitVec 10) (e : BitVec 16) : bits (wLI major c e) 0 16 = e :=
  bits_eq (by rw [wLI_toNat]; omega)

theorem wV_toNat (major : BitVec 6) (d a b : BitVec 5) (p : BitVec 6) (fn : BitVec 5) :
    (wV major d a b p fn).toNat = major.toNat * 2 ^ 26 + d.toNat * 2 ^ 21 + a.toNat * 2 ^ 16 + b.toNat * 2 ^ 11 + p.toNat * 2 ^ 5 + fn.toNat := by
  simp only [wV, BitVec.toNat_ofNat]; omega

theorem wV_major (major : BitVec 6) (d a b : BitVec 5) (p : BitVec 6) (fn : BitVec 5) : bits (wV major d a b p fn) 26 6 = major :=
  bits_eq (by rw [wV_toNat]; omega)

theorem wV_d (major : BitVec 6) (d a b : BitVec 5) (p : BitVec 6) (fn : BitVec 5) : bits (wV major d a b p fn) 21 5 = d :=
  bits_eq (by rw [wV_toNat]; omega)

theorem wV_a (major : BitVec 6) (d a b : BitVec 5) (p : BitVec 6) (fn : BitVec 5) : bits (wV major d a b p fn) 16 5 = a :=
  bits_eq (by rw [wV_toNat]; omega)

theorem wV_b (major : BitVec 6) (d a b : BitVec 5) (p : BitVec 6) (fn : BitVec 5) : bits (wV major d a b p fn) 11 5 = b :=
  bits_eq (by rw [wV_toNat]; omega)

theorem wV_p (major : BitVec 6) (d a b : BitVec 5) (p : BitVec 6) (fn : BitVec 5) : bits (wV major d a b p fn) 5 6 = p :=
  bits_eq (by rw [wV_toNat]; omega)

theorem wV_fn (major : BitVec 6) (d a b : BitVec 5) (p : BitVec 6) (fn : BitVec 5) : bits (wV major d a b p fn) 0 5 = fn :=
  bits_eq (by rw [wV_toNat]; omega)

theorem wVC_toNat (major d : BitVec 6) (a b : BitVec 5) (p : BitVec 6) (fn : BitVec 4) :
    (wVC major d a b p fn).toNat = major.toNat * 2 ^ 26 + d.toNat * 2 ^ 20 + a.toNat * 2 ^ 15 + b.toNat * 2 ^ 10 + p.toNat * 2 ^ 4 + fn.toNat := by
  simp only [wVC, BitVec.toNat_ofNat]; omega

theorem wVC_major (major d : BitVec 6) (a b : BitVec 5) (p : BitVec 6) (fn : BitVec 4) : bits (wVC major d a b p fn) 26 6 = major :=
  bits_eq (by rw [wVC_toNat]; omega)

theorem wVC_d (major d : BitVec 6) (a b : BitVec 5) (p : BitVec 6) (fn : BitVec 4) : bits (wVC major d a b p fn) 20 6 = d :=
  bits_eq (by rw [wVC_toNat]; omega)

theorem wVC_a (major d : BitVec 6) (a b : BitVec 5) (p : BitVec 6) (fn : BitVec 4) : bits (wVC major d a b p fn) 15 5 = a :=
  bits_eq (by rw [wVC_toNat]; omega)

theorem wVC_b (major d : BitVec 6) (a b : BitVec 5) (p : BitVec 6) (fn : BitVec 4) : bits (wVC major d a b p fn) 10 5 = b :=
  bits_eq (by rw [wVC_toNat]; omega)

theorem wVC_p (major d : BitVec 6) (a b : BitVec 5) (p : BitVec 6) (fn : BitVec 4) : bits (wVC major d a b p fn) 4 6 = p :=
  bits_eq (by rw [wVC_toNat]; omega)

theorem wVC_fn (major d : BitVec 6) (a b : BitVec 5) (p : BitVec 6) (fn : BitVec 4) : bits (wVC major d a b p fn) 0 4 = fn :=
  bits_eq (by rw [wVC_toNat]; omega)

theorem wP_toNat (major d a b : BitVec 6) (fn : BitVec 5) :
    (wP major d a b fn).toNat = major.toNat * 2 ^ 26 + d.toNat * 2 ^ 20 + a.toNat * 2 ^ 14 + b.toNat * 2 ^ 8 + fn.toNat := by
  simp only [wP, BitVec.toNat_ofNat]; omega

theorem wP_major (major d a b : BitVec 6) (fn : BitVec 5) : bits (wP major d a b fn) 26 6 = major :=
  bits_eq (by rw [wP_toNat]; omega)

theorem wP_d (major d a b : BitVec 6) (fn : BitVec 5) : bits (wP major d a b fn) 20 6 = d :=
  bits_eq (by rw [wP_toNat]; omega)

theorem wP_a (major d a b : BitVec 6) (fn : BitVec 5) : bits (wP major d a b fn) 14 6 = a :=
  bits_eq (by rw [wP_toNat]; omega)

theorem wP_b (major d a b : BitVec 6) (fn : BitVec 5) : bits (wP major d a b fn) 8 6 = b :=
  bits_eq (by rw [wP_toNat]; omega)

theorem wP_fn (major d a b : BitVec 6) (fn : BitVec 5) : bits (wP major d a b fn) 0 5 = fn :=
  bits_eq (by rw [wP_toNat]; omega)

theorem wVX_toNat (major : BitVec 6) (d : BitVec 5) (s t : BitVec 8) (fn : BitVec 5) :
    (wVX major d s t fn).toNat = major.toNat * 2 ^ 26 + d.toNat * 2 ^ 21 + s.toNat * 2 ^ 13 + t.toNat * 2 ^ 5 + fn.toNat := by
  simp only [wVX, BitVec.toNat_ofNat]; omega

theorem wVX_major (major : BitVec 6) (d : BitVec 5) (s t : BitVec 8) (fn : BitVec 5) : bits (wVX major d s t fn) 26 6 = major :=
  bits_eq (by rw [wVX_toNat]; omega)

theorem wVX_d (major : BitVec 6) (d : BitVec 5) (s t : BitVec 8) (fn : BitVec 5) : bits (wVX major d s t fn) 21 5 = d :=
  bits_eq (by rw [wVX_toNat]; omega)

theorem wVX_s (major : BitVec 6) (d : BitVec 5) (s t : BitVec 8) (fn : BitVec 5) : bits (wVX major d s t fn) 13 8 = s :=
  bits_eq (by rw [wVX_toNat]; omega)

theorem wVX_t (major : BitVec 6) (d : BitVec 5) (s t : BitVec 8) (fn : BitVec 5) : bits (wVX major d s t fn) 5 8 = t :=
  bits_eq (by rw [wVX_toNat]; omega)

theorem wVX_fn (major : BitVec 6) (d : BitVec 5) (s t : BitVec 8) (fn : BitVec 5) : bits (wVX major d s t fn) 0 5 = fn :=
  bits_eq (by rw [wVX_toNat]; omega)

theorem wQ_toNat (major : BitVec 6) (x y z : BitVec 5) (fn : BitVec 11) :
    (wQ major x y z fn).toNat = major.toNat * 2 ^ 26 + x.toNat * 2 ^ 21 + y.toNat * 2 ^ 16 + z.toNat * 2 ^ 11 + fn.toNat := by
  simp only [wQ, BitVec.toNat_ofNat]; omega

theorem wQ_major (major : BitVec 6) (x y z : BitVec 5) (fn : BitVec 11) : bits (wQ major x y z fn) 26 6 = major :=
  bits_eq (by rw [wQ_toNat]; omega)

theorem wQ_x (major : BitVec 6) (x y z : BitVec 5) (fn : BitVec 11) : bits (wQ major x y z fn) 21 5 = x :=
  bits_eq (by rw [wQ_toNat]; omega)

theorem wQ_y (major : BitVec 6) (x y z : BitVec 5) (fn : BitVec 11) : bits (wQ major x y z fn) 16 5 = y :=
  bits_eq (by rw [wQ_toNat]; omega)

theorem wQ_z (major : BitVec 6) (x y z : BitVec 5) (fn : BitVec 11) : bits (wQ major x y z fn) 11 5 = z :=
  bits_eq (by rw [wQ_toNat]; omega)

theorem wQ_fn (major : BitVec 6) (x y z : BitVec 5) (fn : BitVec 11) : bits (wQ major x y z fn) 0 11 = fn :=
  bits_eq (by rw [wQ_toNat]; omega)

theorem wZ_toNat (major : BitVec 6) (d a : BitVec 5) (i : BitVec 12) (fn : BitVec 4) :
    (wZ major d a i fn).toNat = major.toNat * 2 ^ 26 + d.toNat * 2 ^ 21 + a.toNat * 2 ^ 16 + i.toNat * 2 ^ 4 + fn.toNat := by
  simp only [wZ, BitVec.toNat_ofNat]; omega

theorem wZ_major (major : BitVec 6) (d a : BitVec 5) (i : BitVec 12) (fn : BitVec 4) : bits (wZ major d a i fn) 26 6 = major :=
  bits_eq (by rw [wZ_toNat]; omega)

theorem wZ_d (major : BitVec 6) (d a : BitVec 5) (i : BitVec 12) (fn : BitVec 4) : bits (wZ major d a i fn) 21 5 = d :=
  bits_eq (by rw [wZ_toNat]; omega)

theorem wZ_a (major : BitVec 6) (d a : BitVec 5) (i : BitVec 12) (fn : BitVec 4) : bits (wZ major d a i fn) 16 5 = a :=
  bits_eq (by rw [wZ_toNat]; omega)

theorem wZ_i (major : BitVec 6) (d a : BitVec 5) (i : BitVec 12) (fn : BitVec 4) : bits (wZ major d a i fn) 4 12 = i :=
  bits_eq (by rw [wZ_toNat]; omega)

theorem wZ_fn (major : BitVec 6) (d a : BitVec 5) (i : BitVec 12) (fn : BitVec 4) : bits (wZ major d a i fn) 0 4 = fn :=
  bits_eq (by rw [wZ_toNat]; omega)

theorem wSV_toNat (major : BitVec 6) (d a : BitVec 5) (o : BitVec 16) :
    (wSV major d a o).toNat = major.toNat * 2 ^ 26 + d.toNat * 2 ^ 21 + a.toNat * 2 ^ 16 + o.toNat := by
  simp only [wSV, BitVec.toNat_ofNat]; omega

theorem wSV_major (major : BitVec 6) (d a : BitVec 5) (o : BitVec 16) : bits (wSV major d a o) 26 6 = major :=
  bits_eq (by rw [wSV_toNat]; omega)

theorem wSV_d (major : BitVec 6) (d a : BitVec 5) (o : BitVec 16) : bits (wSV major d a o) 21 5 = d :=
  bits_eq (by rw [wSV_toNat]; omega)

theorem wSV_a (major : BitVec 6) (d a : BitVec 5) (o : BitVec 16) : bits (wSV major d a o) 16 5 = a :=
  bits_eq (by rw [wSV_toNat]; omega)

theorem wSV_o (major : BitVec 6) (d a : BitVec 5) (o : BitVec 16) : bits (wSV major d a o) 0 16 = o :=
  bits_eq (by rw [wSV_toNat]; omega)

theorem wEW_toNat (major : BitVec 6) (a b : BitVec 4) (d : BitVec 5) (x y z : BitVec 1) :
    (wEW major a b d x y z).toNat = major.toNat * 2 ^ 26 + a.toNat * 2 ^ 22 + b.toNat * 2 ^ 18 + d.toNat * 2 ^ 13 + x.toNat * 2 ^ 12 + y.toNat * 2 ^ 11 + z.toNat * 2 ^ 10 := by
  simp only [wEW, BitVec.toNat_ofNat]; omega

theorem wEW_major (major : BitVec 6) (a b : BitVec 4) (d : BitVec 5) (x y z : BitVec 1) : bits (wEW major a b d x y z) 26 6 = major :=
  bits_eq (by rw [wEW_toNat]; omega)

theorem wEW_a (major : BitVec 6) (a b : BitVec 4) (d : BitVec 5) (x y z : BitVec 1) : bits (wEW major a b d x y z) 22 4 = a :=
  bits_eq (by rw [wEW_toNat]; omega)

theorem wEW_b (major : BitVec 6) (a b : BitVec 4) (d : BitVec 5) (x y z : BitVec 1) : bits (wEW major a b d x y z) 18 4 = b :=
  bits_eq (by rw [wEW_toNat]; omega)

theorem wEW_d (major : BitVec 6) (a b : BitVec 4) (d : BitVec 5) (x y z : BitVec 1) : bits (wEW major a b d x y z) 13 5 = d :=
  bits_eq (by rw [wEW_toNat]; omega)

theorem wEW_x (major : BitVec 6) (a b : BitVec 4) (d : BitVec 5) (x y z : BitVec 1) : bits (wEW major a b d x y z) 12 1 = x :=
  bits_eq (by rw [wEW_toNat]; omega)

theorem wEW_y (major : BitVec 6) (a b : BitVec 4) (d : BitVec 5) (x y z : BitVec 1) : bits (wEW major a b d x y z) 11 1 = y :=
  bits_eq (by rw [wEW_toNat]; omega)

theorem wEW_z (major : BitVec 6) (a b : BitVec 4) (d : BitVec 5) (x y z : BitVec 1) : bits (wEW major a b d x y z) 10 1 = z :=
  bits_eq (by rw [wEW_toNat]; omega)

theorem wPG_toNat (major d : BitVec 6) (a b : BitVec 5) (t : BitVec 2) (fn : BitVec 4) :
    (wPG major d a b t fn).toNat = major.toNat * 2 ^ 26 + d.toNat * 2 ^ 20 + a.toNat * 2 ^ 15 + b.toNat * 2 ^ 10 + t.toNat * 2 ^ 8 + fn.toNat := by
  simp only [wPG, BitVec.toNat_ofNat]; omega

theorem wPG_major (major d : BitVec 6) (a b : BitVec 5) (t : BitVec 2) (fn : BitVec 4) : bits (wPG major d a b t fn) 26 6 = major :=
  bits_eq (by rw [wPG_toNat]; omega)

theorem wPG_d (major d : BitVec 6) (a b : BitVec 5) (t : BitVec 2) (fn : BitVec 4) : bits (wPG major d a b t fn) 20 6 = d :=
  bits_eq (by rw [wPG_toNat]; omega)

theorem wPG_a (major d : BitVec 6) (a b : BitVec 5) (t : BitVec 2) (fn : BitVec 4) : bits (wPG major d a b t fn) 15 5 = a :=
  bits_eq (by rw [wPG_toNat]; omega)

theorem wPG_b (major d : BitVec 6) (a b : BitVec 5) (t : BitVec 2) (fn : BitVec 4) : bits (wPG major d a b t fn) 10 5 = b :=
  bits_eq (by rw [wPG_toNat]; omega)

theorem wPG_t (major d : BitVec 6) (a b : BitVec 5) (t : BitVec 2) (fn : BitVec 4) : bits (wPG major d a b t fn) 8 2 = t :=
  bits_eq (by rw [wPG_toNat]; omega)

theorem wPG_fn (major d : BitVec 6) (a b : BitVec 5) (t : BitVec 2) (fn : BitVec 4) : bits (wPG major d a b t fn) 0 4 = fn :=
  bits_eq (by rw [wPG_toNat]; omega)

theorem wX_toNat (major p : BitVec 6) (i : BitVec 1) (v : BitVec 5) (c e l u : BitVec 1) :
    (wX major p i v c e l u).toNat = major.toNat * 2 ^ 26 + p.toNat * 2 ^ 20 + i.toNat * 2 ^ 19 + v.toNat * 2 ^ 14 + c.toNat * 2 ^ 13 + e.toNat * 2 ^ 12 + l.toNat * 2 ^ 11 + u.toNat * 2 ^ 10 := by
  simp only [wX, BitVec.toNat_ofNat]; omega

theorem wX_major (major p : BitVec 6) (i : BitVec 1) (v : BitVec 5) (c e l u : BitVec 1) : bits (wX major p i v c e l u) 26 6 = major :=
  bits_eq (by rw [wX_toNat]; omega)

theorem wX_p (major p : BitVec 6) (i : BitVec 1) (v : BitVec 5) (c e l u : BitVec 1) : bits (wX major p i v c e l u) 20 6 = p :=
  bits_eq (by rw [wX_toNat]; omega)

theorem wX_i (major p : BitVec 6) (i : BitVec 1) (v : BitVec 5) (c e l u : BitVec 1) : bits (wX major p i v c e l u) 19 1 = i :=
  bits_eq (by rw [wX_toNat]; omega)

theorem wX_v (major p : BitVec 6) (i : BitVec 1) (v : BitVec 5) (c e l u : BitVec 1) : bits (wX major p i v c e l u) 14 5 = v :=
  bits_eq (by rw [wX_toNat]; omega)

theorem wX_c (major p : BitVec 6) (i : BitVec 1) (v : BitVec 5) (c e l u : BitVec 1) : bits (wX major p i v c e l u) 13 1 = c :=
  bits_eq (by rw [wX_toNat]; omega)

theorem wX_e (major p : BitVec 6) (i : BitVec 1) (v : BitVec 5) (c e l u : BitVec 1) : bits (wX major p i v c e l u) 12 1 = e :=
  bits_eq (by rw [wX_toNat]; omega)

theorem wX_l (major p : BitVec 6) (i : BitVec 1) (v : BitVec 5) (c e l u : BitVec 1) : bits (wX major p i v c e l u) 11 1 = l :=
  bits_eq (by rw [wX_toNat]; omega)

theorem wX_u (major p : BitVec 6) (i : BitVec 1) (v : BitVec 5) (c e l u : BitVec 1) : bits (wX major p i v c e l u) 10 1 = u :=
  bits_eq (by rw [wX_toNat]; omega)

theorem wN_toNat (major : BitVec 6) (d : BitVec 5) (s : BitVec 2) (i : BitVec 16) :
    (wN major d s i).toNat = major.toNat * 2 ^ 26 + d.toNat * 2 ^ 21 + s.toNat * 2 ^ 19 + i.toNat * 2 ^ 3 := by
  simp only [wN, BitVec.toNat_ofNat]; omega

theorem wN_major (major : BitVec 6) (d : BitVec 5) (s : BitVec 2) (i : BitVec 16) : bits (wN major d s i) 26 6 = major :=
  bits_eq (by rw [wN_toNat]; omega)

theorem wN_d (major : BitVec 6) (d : BitVec 5) (s : BitVec 2) (i : BitVec 16) : bits (wN major d s i) 21 5 = d :=
  bits_eq (by rw [wN_toNat]; omega)

theorem wN_s (major : BitVec 6) (d : BitVec 5) (s : BitVec 2) (i : BitVec 16) : bits (wN major d s i) 19 2 = s :=
  bits_eq (by rw [wN_toNat]; omega)

theorem wN_i (major : BitVec 6) (d : BitVec 5) (s : BitVec 2) (i : BitVec 16) : bits (wN major d s i) 3 16 = i :=
  bits_eq (by rw [wN_toNat]; omega)

theorem wD_toNat (major : BitVec 6) (d : BitVec 5) (i : BitVec 21) :
    (wD major d i).toNat = major.toNat * 2 ^ 26 + d.toNat * 2 ^ 21 + i.toNat := by
  simp only [wD, BitVec.toNat_ofNat]; omega

theorem wD_major (major : BitVec 6) (d : BitVec 5) (i : BitVec 21) : bits (wD major d i) 26 6 = major :=
  bits_eq (by rw [wD_toNat]; omega)

theorem wD_d (major : BitVec 6) (d : BitVec 5) (i : BitVec 21) : bits (wD major d i) 21 5 = d :=
  bits_eq (by rw [wD_toNat]; omega)

theorem wD_i (major : BitVec 6) (d : BitVec 5) (i : BitVec 21) : bits (wD major d i) 0 21 = i :=
  bits_eq (by rw [wD_toNat]; omega)

theorem wL_gap16 (major : BitVec 6) (a : BitVec 5) (e : BitVec 16) : bits (wL major a e) 16 5 = 0#5 :=
  bits_eq (by rw [wL_toNat]; simp only [BitVec.toNat_ofNat]; omega)

theorem wP_gap5 (major d a b : BitVec 6) (fn : BitVec 5) : bits (wP major d a b fn) 5 3 = 0#3 :=
  bits_eq (by rw [wP_toNat]; simp only [BitVec.toNat_ofNat]; omega)

theorem wEW_gap0 (major : BitVec 6) (a b : BitVec 4) (d : BitVec 5) (x y z : BitVec 1) : bits (wEW major a b d x y z) 0 10 = 0#10 :=
  bits_eq (by rw [wEW_toNat]; simp only [BitVec.toNat_ofNat]; omega)

theorem wPG_gap4 (major d : BitVec 6) (a b : BitVec 5) (t : BitVec 2) (fn : BitVec 4) : bits (wPG major d a b t fn) 4 4 = 0#4 :=
  bits_eq (by rw [wPG_toNat]; simp only [BitVec.toNat_ofNat]; omega)

theorem wX_gap0 (major p : BitVec 6) (i : BitVec 1) (v : BitVec 5) (c e l u : BitVec 1) : bits (wX major p i v c e l u) 0 10 = 0#10 :=
  bits_eq (by rw [wX_toNat]; simp only [BitVec.toNat_ofNat]; omega)

theorem wN_gap0 (major : BitVec 6) (d : BitVec 5) (s : BitVec 2) (i : BitVec 16) : bits (wN major d s i) 0 3 = 0#3 :=
  bits_eq (by rw [wN_toNat]; simp only [BitVec.toNat_ofNat]; omega)

/-! ## The arms of the decoder -/

theorem decodeInt_0 {w : BitVec 32} (h : bits w 0 9 = 0#9) :
    decodeInt w = accept w [] (.add (bits w 21 5) (bits w 16 5) (bits w 11 5) (bits w 10 1) (bits w 9 1)) := by
  unfold decodeInt; rw [h]; rfl

theorem decodeInt_1 {w : BitVec 32} (h : bits w 0 9 = 1#9) :
    decodeInt w = accept w [] (.sub (bits w 21 5) (bits w 16 5) (bits w 11 5) (bits w 10 1) (bits w 9 1)) := by
  unfold decodeInt; rw [h]; rfl

theorem decodeInt_2 {w : BitVec 32} (h : bits w 0 9 = 2#9) :
    decodeInt w = accept w [] (.mul (bits w 21 5) (bits w 16 5) (bits w 11 5) (bits w 10 1) (bits w 9 1)) := by
  unfold decodeInt; rw [h]; rfl

theorem decodeInt_3 {w : BitVec 32} (h : bits w 0 9 = 3#9) :
    decodeInt w = accept w [] (.mulh (bits w 21 5) (bits w 16 5) (bits w 11 5) (bits w 10 1) (bits w 9 1)) := by
  unfold decodeInt; rw [h]; rfl

theorem decodeInt_4 {w : BitVec 32} (h : bits w 0 9 = 4#9) :
    decodeInt w = accept w [] (.mulhn (bits w 21 5) (bits w 16 5) (bits w 11 5) (bits w 10 1) (bits w 9 1)) := by
  unfold decodeInt; rw [h]; rfl

theorem decodeInt_5 {w : BitVec 32} (h : bits w 0 9 = 5#9) :
    decodeInt w = accept w [] (.div (bits w 21 5) (bits w 16 5) (bits w 11 5) (bits w 10 1) (bits w 9 1)) := by
  unfold decodeInt; rw [h]; rfl

theorem decodeInt_6 {w : BitVec 32} (h : bits w 0 9 = 6#9) :
    decodeInt w = accept w [] (.divn (bits w 21 5) (bits w 16 5) (bits w 11 5) (bits w 10 1) (bits w 9 1)) := by
  unfold decodeInt; rw [h]; rfl

theorem decodeInt_7 {w : BitVec 32} (h : bits w 0 9 = 7#9) :
    decodeInt w = accept w [] (.rem (bits w 21 5) (bits w 16 5) (bits w 11 5) (bits w 10 1) (bits w 9 1)) := by
  unfold decodeInt; rw [h]; rfl

theorem decodeInt_8 {w : BitVec 32} (h : bits w 0 9 = 8#9) :
    decodeInt w = accept w [] (.remn (bits w 21 5) (bits w 16 5) (bits w 11 5) (bits w 10 1) (bits w 9 1)) := by
  unfold decodeInt; rw [h]; rfl

theorem decodeInt_9 {w : BitVec 32} (h : bits w 0 9 = 9#9) :
    decodeInt w = accept w [] (.and (bits w 21 5) (bits w 16 5) (bits w 11 5) (bits w 10 1) (bits w 9 1)) := by
  unfold decodeInt; rw [h]; rfl

theorem decodeInt_10 {w : BitVec 32} (h : bits w 0 9 = 10#9) :
    decodeInt w = accept w [] (.or (bits w 21 5) (bits w 16 5) (bits w 11 5) (bits w 10 1) (bits w 9 1)) := by
  unfold decodeInt; rw [h]; rfl

theorem decodeInt_11 {w : BitVec 32} (h : bits w 0 9 = 11#9) :
    decodeInt w = accept w [] (.xor (bits w 21 5) (bits w 16 5) (bits w 11 5) (bits w 10 1) (bits w 9 1)) := by
  unfold decodeInt; rw [h]; rfl

theorem decodeInt_12 {w : BitVec 32} (h : bits w 0 9 = 12#9) :
    decodeInt w = accept w [] (.andn (bits w 21 5) (bits w 16 5) (bits w 11 5) (bits w 10 1) (bits w 9 1)) := by
  unfold decodeInt; rw [h]; rfl

theorem decodeInt_13 {w : BitVec 32} (h : bits w 0 9 = 13#9) :
    decodeInt w = accept w [] (.shl (bits w 21 5) (bits w 16 5) (bits w 11 5) (bits w 10 1) (bits w 9 1)) := by
  unfold decodeInt; rw [h]; rfl

theorem decodeInt_14 {w : BitVec 32} (h : bits w 0 9 = 14#9) :
    decodeInt w = accept w [] (.shr (bits w 21 5) (bits w 16 5) (bits w 11 5) (bits w 10 1) (bits w 9 1)) := by
  unfold decodeInt; rw [h]; rfl

theorem decodeInt_15 {w : BitVec 32} (h : bits w 0 9 = 15#9) :
    decodeInt w = accept w [] (.sar (bits w 21 5) (bits w 16 5) (bits w 11 5) (bits w 10 1) (bits w 9 1)) := by
  unfold decodeInt; rw [h]; rfl

theorem decodeInt_16 {w : BitVec 32} (h : bits w 0 9 = 16#9) :
    decodeInt w = accept w [] (.min (bits w 21 5) (bits w 16 5) (bits w 11 5) (bits w 10 1) (bits w 9 1)) := by
  unfold decodeInt; rw [h]; rfl

theorem decodeInt_17 {w : BitVec 32} (h : bits w 0 9 = 17#9) :
    decodeInt w = accept w [] (.max (bits w 21 5) (bits w 16 5) (bits w 11 5) (bits w 10 1) (bits w 9 1)) := by
  unfold decodeInt; rw [h]; rfl

theorem decodeInt_18 {w : BitVec 32} (h : bits w 0 9 = 18#9) :
    decodeInt w = accept w [] (.minn (bits w 21 5) (bits w 16 5) (bits w 11 5) (bits w 10 1) (bits w 9 1)) := by
  unfold decodeInt; rw [h]; rfl

theorem decodeInt_19 {w : BitVec 32} (h : bits w 0 9 = 19#9) :
    decodeInt w = accept w [] (.maxn (bits w 21 5) (bits w 16 5) (bits w 11 5) (bits w 10 1) (bits w 9 1)) := by
  unfold decodeInt; rw [h]; rfl

theorem decodeInt_20 {w : BitVec 32} (h : bits w 0 9 = 20#9) :
    decodeInt w = accept w [] (.slt (bits w 21 5) (bits w 16 5) (bits w 11 5) (bits w 10 1) (bits w 9 1)) := by
  unfold decodeInt; rw [h]; rfl

theorem decodeInt_21 {w : BitVec 32} (h : bits w 0 9 = 21#9) :
    decodeInt w = accept w [] (.sltn (bits w 21 5) (bits w 16 5) (bits w 11 5) (bits w 10 1) (bits w 9 1)) := by
  unfold decodeInt; rw [h]; rfl

theorem decodeInt_22 {w : BitVec 32} (h : bits w 0 9 = 22#9) :
    decodeInt w = accept w [(11, 5), (9, 1)] (.clz (bits w 21 5) (bits w 16 5) (bits w 10 1)) := by
  unfold decodeInt; rw [h]; rfl

theorem decodeInt_23 {w : BitVec 32} (h : bits w 0 9 = 23#9) :
    decodeInt w = accept w [(11, 5), (9, 1)] (.ctz (bits w 21 5) (bits w 16 5) (bits w 10 1)) := by
  unfold decodeInt; rw [h]; rfl

theorem decodeInt_24 {w : BitVec 32} (h : bits w 0 9 = 24#9) :
    decodeInt w = accept w [(11, 5), (9, 1)] (.popc (bits w 21 5) (bits w 16 5) (bits w 10 1)) := by
  unfold decodeInt; rw [h]; rfl

theorem decodeInt_25 {w : BitVec 32} (h : bits w 0 9 = 25#9) :
    decodeInt w = accept w [(11, 5), (9, 1)] (.mov (bits w 21 5) (bits w 16 5) (bits w 10 1)) := by
  unfold decodeInt; rw [h]; rfl

theorem decodeInt_26 {w : BitVec 32} (h : bits w 0 9 = 26#9) :
    decodeInt w = accept w [(9, 7)] (.gfull (bits w 21 5) (bits w 16 5)) := by
  unfold decodeInt; rw [h]; rfl

theorem decodeInt_27 {w : BitVec 32} (h : bits w 0 9 = 27#9) :
    decodeInt w = accept w [(9, 12)] (.gempty (bits w 21 5)) := by
  unfold decodeInt; rw [h]; rfl

theorem decodeShfi_0 {w : BitVec 32} (h : bits w 13 2 = 0#2) :
    decodeShfi w = accept w [(6, 7)] (.shli (bits w 21 5) (bits w 16 5) (bits w 15 1) (bits w 0 6)) := by
  unfold decodeShfi; rw [h]; rfl

theorem decodeShfi_1 {w : BitVec 32} (h : bits w 13 2 = 1#2) :
    decodeShfi w = accept w [(6, 7)] (.shri (bits w 21 5) (bits w 16 5) (bits w 15 1) (bits w 0 6)) := by
  unfold decodeShfi; rw [h]; rfl

theorem decodeShfi_2 {w : BitVec 32} (h : bits w 13 2 = 2#2) :
    decodeShfi w = accept w [(6, 7)] (.sari (bits w 21 5) (bits w 16 5) (bits w 15 1) (bits w 0 6)) := by
  unfold decodeShfi; rw [h]; rfl

theorem decodeLoad_0 {w : BitVec 32} (h : bits w 12 3 = 0#3) :
    decodeLoad w = accept w [] (.ldb (bits w 21 5) (bits w 16 5) (bits w 15 1) (bits w 0 12)) := by
  unfold decodeLoad; rw [h]; rfl

theorem decodeLoad_1 {w : BitVec 32} (h : bits w 12 3 = 1#3) :
    decodeLoad w = accept w [] (.ldbz (bits w 21 5) (bits w 16 5) (bits w 15 1) (bits w 0 12)) := by
  unfold decodeLoad; rw [h]; rfl

theorem decodeLoad_2 {w : BitVec 32} (h : bits w 12 3 = 2#3) :
    decodeLoad w = accept w [] (.ldh (bits w 21 5) (bits w 16 5) (bits w 15 1) (bits w 0 12)) := by
  unfold decodeLoad; rw [h]; rfl

theorem decodeLoad_3 {w : BitVec 32} (h : bits w 12 3 = 3#3) :
    decodeLoad w = accept w [] (.ldhz (bits w 21 5) (bits w 16 5) (bits w 15 1) (bits w 0 12)) := by
  unfold decodeLoad; rw [h]; rfl

theorem decodeLoad_4 {w : BitVec 32} (h : bits w 12 3 = 4#3) :
    decodeLoad w = accept w [] (.ldw (bits w 21 5) (bits w 16 5) (bits w 15 1) (bits w 0 12)) := by
  unfold decodeLoad; rw [h]; rfl

theorem decodeLoad_5 {w : BitVec 32} (h : bits w 12 3 = 5#3) :
    decodeLoad w = accept w [] (.ldwz (bits w 21 5) (bits w 16 5) (bits w 15 1) (bits w 0 12)) := by
  unfold decodeLoad; rw [h]; rfl

theorem decodeLoad_6 {w : BitVec 32} (h : bits w 12 3 = 6#3) :
    decodeLoad w = accept w [] (.ldd (bits w 21 5) (bits w 16 5) (bits w 15 1) (bits w 0 12)) := by
  unfold decodeLoad; rw [h]; rfl

theorem decodeLoad_7 {w : BitVec 32} (h : bits w 12 3 = 7#3) :
    decodeLoad w = accept w [(21, 1)] (.ldq (bits w 22 4) (bits w 16 5) (bits w 15 1) (bits w 0 12)) := by
  unfold decodeLoad; rw [h]; rfl

theorem decodeStore_0 {w : BitVec 32} (h : bits w 12 3 = 0#3) :
    decodeStore w = accept w [] (.stb (bits w 21 5) (bits w 16 5) (bits w 15 1) (bits w 0 12)) := by
  unfold decodeStore; rw [h]; rfl

theorem decodeStore_1 {w : BitVec 32} (h : bits w 12 3 = 1#3) :
    decodeStore w = accept w [] (.sth (bits w 21 5) (bits w 16 5) (bits w 15 1) (bits w 0 12)) := by
  unfold decodeStore; rw [h]; rfl

theorem decodeStore_2 {w : BitVec 32} (h : bits w 12 3 = 2#3) :
    decodeStore w = accept w [] (.stw (bits w 21 5) (bits w 16 5) (bits w 15 1) (bits w 0 12)) := by
  unfold decodeStore; rw [h]; rfl

theorem decodeStore_3 {w : BitVec 32} (h : bits w 12 3 = 3#3) :
    decodeStore w = accept w [] (.std (bits w 21 5) (bits w 16 5) (bits w 15 1) (bits w 0 12)) := by
  unfold decodeStore; rw [h]; rfl

theorem decodeStore_4 {w : BitVec 32} (h : bits w 12 3 = 4#3) :
    decodeStore w = accept w [(21, 1)] (.stq (bits w 22 4) (bits w 16 5) (bits w 15 1) (bits w 0 12)) := by
  unfold decodeStore; rw [h]; rfl

theorem decodeBranch_0 {w : BitVec 32} (h : bits w 11 3 = 0#3) :
    decodeBranch w = accept w [] (.beq (bits w 21 5) (bits w 16 5) (bits w 15 1) (bits w 14 1) (bits w 0 11)) := by
  unfold decodeBranch; rw [h]; rfl

theorem decodeBranch_1 {w : BitVec 32} (h : bits w 11 3 = 1#3) :
    decodeBranch w = accept w [] (.bne (bits w 21 5) (bits w 16 5) (bits w 15 1) (bits w 14 1) (bits w 0 11)) := by
  unfold decodeBranch; rw [h]; rfl

theorem decodeBranch_2 {w : BitVec 32} (h : bits w 11 3 = 2#3) :
    decodeBranch w = accept w [] (.blt (bits w 21 5) (bits w 16 5) (bits w 15 1) (bits w 14 1) (bits w 0 11)) := by
  unfold decodeBranch; rw [h]; rfl

theorem decodeBranch_3 {w : BitVec 32} (h : bits w 11 3 = 3#3) :
    decodeBranch w = accept w [] (.bge (bits w 21 5) (bits w 16 5) (bits w 15 1) (bits w 14 1) (bits w 0 11)) := by
  unfold decodeBranch; rw [h]; rfl

theorem decodeBranch_4 {w : BitVec 32} (h : bits w 11 3 = 4#3) :
    decodeBranch w = accept w [] (.bltn (bits w 21 5) (bits w 16 5) (bits w 15 1) (bits w 14 1) (bits w 0 11)) := by
  unfold decodeBranch; rw [h]; rfl

theorem decodeBranch_5 {w : BitVec 32} (h : bits w 11 3 = 5#3) :
    decodeBranch w = accept w [] (.bgen (bits w 21 5) (bits w 16 5) (bits w 15 1) (bits w 14 1) (bits w 0 11)) := by
  unfold decodeBranch; rw [h]; rfl

theorem decodeBranch_6 {w : BitVec 32} (h : bits w 11 3 = 6#3) :
    decodeBranch w = accept w [(14, 12)] (.bmz (bits w 0 11)) := by
  unfold decodeBranch; rw [h]; rfl

theorem decodeBranch_7 {w : BitVec 32} (h : bits w 11 3 = 7#3) :
    decodeBranch w = accept w [(14, 12)] (.boq (bits w 0 11)) := by
  unfold decodeBranch; rw [h]; rfl

theorem decodeCtl_0 {w : BitVec 32} (h : bits w 0 4 = 0#4) :
    decodeCtl w = accept w [(4, 22)] (.ret) := by
  unfold decodeCtl; rw [h]; rfl

theorem decodeCtl_1 {w : BitVec 32} (h : bits w 0 4 = 1#4) :
    decodeCtl w = accept w [(21, 5), (4, 12)] (.callr (bits w 16 5)) := by
  unfold decodeCtl; rw [h]; rfl

theorem decodeCtl_2 {w : BitVec 32} (h : bits w 0 4 = 2#4) :
    decodeCtl w = accept w [(21, 5), (4, 12)] (.jmpr (bits w 16 5)) := by
  unfold decodeCtl; rw [h]; rfl

theorem decodeCtl_3 {w : BitVec 32} (h : bits w 0 4 = 3#4) :
    decodeCtl w = accept w [(4, 22)] (.lexit) := by
  unfold decodeCtl; rw [h]; rfl

theorem decodeCtl_4 {w : BitVec 32} (h : bits w 0 4 = 4#4) :
    decodeCtl w = accept w [(7, 14)] (.lidx (bits w 21 5) (bits w 4 3)) := by
  unfold decodeCtl; rw [h]; rfl

theorem decodeCtl_5 {w : BitVec 32} (h : bits w 0 4 = 5#4) :
    decodeCtl w = accept w [(7, 14)] (.lcnt (bits w 21 5) (bits w 4 3)) := by
  unfold decodeCtl; rw [h]; rfl

theorem decodeCtl_6 {w : BitVec 32} (h : bits w 0 4 = 6#4) :
    decodeCtl w = accept w [(4, 22)] (.yield) := by
  unfold decodeCtl; rw [h]; rfl

theorem decodeCtl_7 {w : BitVec 32} (h : bits w 0 4 = 7#4) :
    decodeCtl w = accept w [(4, 22)] (.nop) := by
  unfold decodeCtl; rw [h]; rfl

theorem decodeCtl_8 {w : BitVec 32} (h : bits w 0 4 = 8#4) :
    decodeCtl w = accept w [(21, 5), (4, 12)] (.bopush (bits w 16 5)) := by
  unfold decodeCtl; rw [h]; rfl

theorem decodeSys_0 {w : BitVec 32} (h : bits w 0 4 = 0#4) :
    decodeSys w = accept w [(16, 5)] (.csrrd (bits w 21 5) (bits w 4 12)) := by
  unfold decodeSys; rw [h]; rfl

theorem decodeSys_1 {w : BitVec 32} (h : bits w 0 4 = 1#4) :
    decodeSys w = accept w [(21, 5)] (.csrwr (bits w 16 5) (bits w 4 12)) := by
  unfold decodeSys; rw [h]; rfl

theorem decodeSys_2 {w : BitVec 32} (h : bits w 0 4 = 2#4) :
    decodeSys w = accept w [(21, 5)] (.csrset (bits w 16 5) (bits w 4 12)) := by
  unfold decodeSys; rw [h]; rfl

theorem decodeSys_3 {w : BitVec 32} (h : bits w 0 4 = 3#4) :
    decodeSys w = accept w [(21, 5)] (.csrclr (bits w 16 5) (bits w 4 12)) := by
  unfold decodeSys; rw [h]; rfl

theorem decodeSys_4 {w : BitVec 32} (h : bits w 0 4 = 4#4) :
    decodeSys w = accept w [(16, 10)] (.trap (bits w 4 12)) := by
  unfold decodeSys; rw [h]; rfl

theorem decodeSys_5 {w : BitVec 32} (h : bits w 0 4 = 5#4) :
    decodeSys w = accept w [(4, 22)] (.rett) := by
  unfold decodeSys; rw [h]; rfl

theorem decodeSys_6 {w : BitVec 32} (h : bits w 0 4 = 6#4) :
    decodeSys w = accept w [(4, 22)] (.halt) := by
  unfold decodeSys; rw [h]; rfl

theorem decodeSys_7 {w : BitVec 32} (h : bits w 0 4 = 7#4) :
    decodeSys w = accept w [(4, 17)] (.gtsrd (bits w 21 5)) := by
  unfold decodeSys; rw [h]; rfl

theorem decodeSys_8 {w : BitVec 32} (h : bits w 0 4 = 8#4) :
    decodeSys w = accept w [(4, 19)] (.evrd (bits w 23 3)) := by
  unfold decodeSys; rw [h]; rfl

theorem decodeSys_9 {w : BitVec 32} (h : bits w 0 4 = 9#4) :
    decodeSys w = accept w [(4, 22)] (.evwait) := by
  unfold decodeSys; rw [h]; rfl

theorem decodeSys_10 {w : BitVec 32} (h : bits w 0 4 = 10#4) :
    decodeSys w = accept w [(4, 12)] (.waita (bits w 21 5) (bits w 16 5)) := by
  unfold decodeSys; rw [h]; rfl

theorem decodeSys_11 {w : BitVec 32} (h : bits w 0 4 = 11#4) :
    decodeSys w = accept w [(11, 15)] (.fence (bits w 7 4) (bits w 4 3)) := by
  unfold decodeSys; rw [h]; rfl

theorem decodeSys_12 {w : BitVec 32} (h : bits w 0 4 = 12#4) :
    decodeSys w = accept w [(21, 5), (4, 12)] (.sbar (bits w 16 5)) := by
  unfold decodeSys; rw [h]; rfl

theorem decodeSys_13 {w : BitVec 32} (h : bits w 0 4 = 13#4) :
    decodeSys w = accept w [(4, 22)] (.ifence) := by
  unfold decodeSys; rw [h]; rfl

theorem decodeSys_14_0 {w : BitVec 32} (h : bits w 0 4 = 14#4) (k : bits w 4 2 = 0#2) :
    decodeSys w = accept w [(21, 5), (7, 9)] (.tlbinvAll (bits w 16 5) (bits w 6 1)) := by
  unfold decodeSys; rw [h, k]; rfl

theorem decodeSys_14_1 {w : BitVec 32} (h : bits w 0 4 = 14#4) (k : bits w 4 2 = 1#2) :
    decodeSys w = accept w [(21, 5), (7, 9)] (.tlbinvPage (bits w 16 5) (bits w 6 1)) := by
  unfold decodeSys; rw [h, k]; rfl

theorem decodeSys_14_2 {w : BitVec 32} (h : bits w 0 4 = 14#4) (k : bits w 4 2 = 2#2) :
    decodeSys w = accept w [(21, 5), (7, 9)] (.tlbinvContext (bits w 16 5) (bits w 6 1)) := by
  unfold decodeSys; rw [h, k]; rfl

theorem decodeAtom_0 {w : BitVec 32} (h : bits w 5 4 = 0#4) :
    decodeAtom w = accept w [] (.atadd (bits w 21 5) (bits w 16 5) (bits w 11 5) (bits w 10 1) (bits w 9 1) (bits w 3 2) (bits w 0 3)) := by
  unfold decodeAtom; rw [h]; rfl

theorem decodeAtom_1 {w : BitVec 32} (h : bits w 5 4 = 1#4) :
    decodeAtom w = accept w [] (.atswp (bits w 21 5) (bits w 16 5) (bits w 11 5) (bits w 10 1) (bits w 9 1) (bits w 3 2) (bits w 0 3)) := by
  unfold decodeAtom; rw [h]; rfl

theorem decodeAtom_2 {w : BitVec 32} (h : bits w 5 4 = 2#4) :
    decodeAtom w = accept w [] (.atcas (bits w 21 5) (bits w 16 5) (bits w 11 5) (bits w 10 1) (bits w 9 1) (bits w 3 2) (bits w 0 3)) := by
  unfold decodeAtom; rw [h]; rfl

theorem decodeAtom_3 {w : BitVec 32} (h : bits w 5 4 = 3#4) :
    decodeAtom w = accept w [] (.atmin (bits w 21 5) (bits w 16 5) (bits w 11 5) (bits w 10 1) (bits w 9 1) (bits w 3 2) (bits w 0 3)) := by
  unfold decodeAtom; rw [h]; rfl

theorem decodeAtom_4 {w : BitVec 32} (h : bits w 5 4 = 4#4) :
    decodeAtom w = accept w [] (.atmax (bits w 21 5) (bits w 16 5) (bits w 11 5) (bits w 10 1) (bits w 9 1) (bits w 3 2) (bits w 0 3)) := by
  unfold decodeAtom; rw [h]; rfl

theorem decodeAtom_5 {w : BitVec 32} (h : bits w 5 4 = 5#4) :
    decodeAtom w = accept w [] (.atminn (bits w 21 5) (bits w 16 5) (bits w 11 5) (bits w 10 1) (bits w 9 1) (bits w 3 2) (bits w 0 3)) := by
  unfold decodeAtom; rw [h]; rfl

theorem decodeAtom_6 {w : BitVec 32} (h : bits w 5 4 = 6#4) :
    decodeAtom w = accept w [] (.atmaxn (bits w 21 5) (bits w 16 5) (bits w 11 5) (bits w 10 1) (bits w 9 1) (bits w 3 2) (bits w 0 3)) := by
  unfold decodeAtom; rw [h]; rfl

theorem decodeAtom_7 {w : BitVec 32} (h : bits w 5 4 = 7#4) :
    decodeAtom w = accept w [] (.atand (bits w 21 5) (bits w 16 5) (bits w 11 5) (bits w 10 1) (bits w 9 1) (bits w 3 2) (bits w 0 3)) := by
  unfold decodeAtom; rw [h]; rfl

theorem decodeAtom_8 {w : BitVec 32} (h : bits w 5 4 = 8#4) :
    decodeAtom w = accept w [] (.ator (bits w 21 5) (bits w 16 5) (bits w 11 5) (bits w 10 1) (bits w 9 1) (bits w 3 2) (bits w 0 3)) := by
  unfold decodeAtom; rw [h]; rfl

theorem decodeAtom_9 {w : BitVec 32} (h : bits w 5 4 = 9#4) :
    decodeAtom w = accept w [] (.atxor (bits w 21 5) (bits w 16 5) (bits w 11 5) (bits w 10 1) (bits w 9 1) (bits w 3 2) (bits w 0 3)) := by
  unfold decodeAtom; rw [h]; rfl

theorem decodeAtom_10 {w : BitVec 32} (h : bits w 5 4 = 10#4) :
    decodeAtom w = accept w [(21, 5), (3, 1)] (.redadd (bits w 16 5) (bits w 11 5) (bits w 10 1) (bits w 9 1) (bits w 4 1) (bits w 0 3)) := by
  unfold decodeAtom; rw [h]; rfl

theorem decodeAtom_11 {w : BitVec 32} (h : bits w 5 4 = 11#4) :
    decodeAtom w = accept w [(21, 5), (3, 1)] (.redmin (bits w 16 5) (bits w 11 5) (bits w 10 1) (bits w 9 1) (bits w 4 1) (bits w 0 3)) := by
  unfold decodeAtom; rw [h]; rfl

theorem decodeAtom_12 {w : BitVec 32} (h : bits w 5 4 = 12#4) :
    decodeAtom w = accept w [(21, 5), (3, 1)] (.redmax (bits w 16 5) (bits w 11 5) (bits w 10 1) (bits w 9 1) (bits w 4 1) (bits w 0 3)) := by
  unfold decodeAtom; rw [h]; rfl

theorem decodeAtom_13 {w : BitVec 32} (h : bits w 5 4 = 13#4) (k : bits w 3 2 = 1#2) :
    decodeAtom w = accept w [(11, 5), (9, 1)] (.lda (bits w 21 5) (bits w 16 5) (bits w 10 1) (bits w 0 3)) := by
  unfold decodeAtom; rw [h, k]; rfl

theorem decodeAtom_14 {w : BitVec 32} (h : bits w 5 4 = 14#4) (k : bits w 3 2 = 2#2) :
    decodeAtom w = accept w [(21, 5)] (.stl (bits w 16 5) (bits w 11 5) (bits w 10 1) (bits w 9 1) (bits w 0 3)) := by
  unfold decodeAtom; rw [h, k]; rfl

theorem decodeSync_0 {w : BitVec 32} (h : bits w 0 9 = 0#9) :
    decodeSync w = accept w [(11, 5), (9, 1)] (.sytas (bits w 21 5) (bits w 16 5) (bits w 10 1)) := by
  unfold decodeSync; rw [h]; rfl

theorem decodeSync_1 {w : BitVec 32} (h : bits w 0 9 = 1#9) :
    decodeSync w = accept w [] (.syfadd (bits w 21 5) (bits w 16 5) (bits w 11 5) (bits w 10 1) (bits w 9 1)) := by
  unfold decodeSync; rw [h]; rfl

theorem decodeSync_2 {w : BitVec 32} (h : bits w 0 9 = 2#9) :
    decodeSync w = accept w [(11, 5), (9, 1)] (.syrd (bits w 21 5) (bits w 16 5) (bits w 10 1)) := by
  unfold decodeSync; rw [h]; rfl

theorem decodeSync_3 {w : BitVec 32} (h : bits w 0 9 = 3#9) :
    decodeSync w = accept w [(21, 5)] (.sywr (bits w 16 5) (bits w 11 5) (bits w 10 1) (bits w 9 1)) := by
  unfold decodeSync; rw [h]; rfl

theorem decodeSync_4 {w : BitVec 32} (h : bits w 0 9 = 4#9) :
    decodeSync w = accept w [(21, 5)] (.sywait (bits w 16 5) (bits w 11 5) (bits w 10 1) (bits w 9 1)) := by
  unfold decodeSync; rw [h]; rfl

theorem decodeTag_0 {w : BitVec 32} (h : bits w 12 3 = 0#3) :
    decodeTag w = accept w [] (.ldff (bits w 21 5) (bits w 16 5) (bits w 15 1) (bits w 0 12)) := by
  unfold decodeTag; rw [h]; rfl

theorem decodeTag_1 {w : BitVec 32} (h : bits w 12 3 = 1#3) :
    decodeTag w = accept w [] (.ldfe (bits w 21 5) (bits w 16 5) (bits w 15 1) (bits w 0 12)) := by
  unfold decodeTag; rw [h]; rfl

theorem decodeTag_2 {w : BitVec 32} (h : bits w 12 3 = 2#3) :
    decodeTag w = accept w [] (.stef (bits w 21 5) (bits w 16 5) (bits w 15 1) (bits w 0 12)) := by
  unfold decodeTag; rw [h]; rfl

theorem decodeTag_3 {w : BitVec 32} (h : bits w 12 3 = 3#3) :
    decodeTag w = accept w [] (.stff (bits w 21 5) (bits w 16 5) (bits w 15 1) (bits w 0 12)) := by
  unfold decodeTag; rw [h]; rfl

theorem decodeTag_4 {w : BitVec 32} (h : bits w 12 3 = 4#3) :
    decodeTag w = accept w [(21, 5)] (.feclr (bits w 16 5) (bits w 15 1) (bits w 0 12)) := by
  unfold decodeTag; rw [h]; rfl

theorem decodeTag_5 {w : BitVec 32} (h : bits w 12 3 = 5#3) :
    decodeTag w = accept w [] (.feq (bits w 21 5) (bits w 16 5) (bits w 15 1) (bits w 0 12)) := by
  unfold decodeTag; rw [h]; rfl

theorem decodeVers_0 {w : BitVec 32} (h : bits w 0 9 = 0#9) :
    decodeVers w = accept w [] (.vrld (bits w 21 5) (bits w 16 5) (bits w 11 5) (bits w 10 1) (bits w 9 1)) := by
  unfold decodeVers; rw [h]; rfl

theorem decodeVers_1 {w : BitVec 32} (h : bits w 0 9 = 1#9) :
    decodeVers w = accept w [(21, 1)] (.vrldle (bits w 22 4) (bits w 16 5) (bits w 11 5) (bits w 10 1) (bits w 9 1)) := by
  unfold decodeVers; rw [h]; rfl

theorem decodeVers_2 {w : BitVec 32} (h : bits w 0 9 = 2#9) :
    decodeVers w = accept w [] (.vrst (bits w 21 5) (bits w 16 5) (bits w 11 5) (bits w 10 1) (bits w 9 1)) := by
  unfold decodeVers; rw [h]; rfl

theorem decodeVers_3 {w : BitVec 32} (h : bits w 0 9 = 3#9) :
    decodeVers w = accept w [(21, 5)] (.vrfloor (bits w 16 5) (bits w 11 5) (bits w 10 1) (bits w 9 1)) := by
  unfold decodeVers; rw [h]; rfl

theorem decodeVers_4 {w : BitVec 32} (h : bits w 0 9 = 4#9) :
    decodeVers w = accept w [(11, 5), (9, 1)] (.vrtop (bits w 21 5) (bits w 16 5) (bits w 10 1)) := by
  unfold decodeVers; rw [h]; rfl

theorem decodeVers_5 {w : BitVec 32} (h : bits w 0 9 = 5#9) :
    decodeVers w = accept w [] (.vrpoll (bits w 21 5) (bits w 16 5) (bits w 11 5) (bits w 10 1) (bits w 9 1)) := by
  unfold decodeVers; rw [h]; rfl

theorem decodeEng_0 {w : BitVec 32} (h : bits w 0 11 = 0#11) :
    decodeEng w = accept w [(23, 3), (11, 5)] (.qpush (bits w 21 2) (bits w 16 5)) := by
  unfold decodeEng; rw [h]; rfl

theorem decodeEng_1 {w : BitVec 32} (h : bits w 0 11 = 1#11) :
    decodeEng w = accept w [(18, 3), (11, 5)] (.qpop (bits w 21 5) (bits w 16 2)) := by
  unfold decodeEng; rw [h]; rfl

theorem decodeEng_2 {w : BitVec 32} (h : bits w 0 11 = 2#11) :
    decodeEng w = accept w [(25, 1), (11, 5)] (.spbind (bits w 21 4) (bits w 16 5)) := by
  unfold decodeEng; rw [h]; rfl

theorem decodeEng_3 {w : BitVec 32} (h : bits w 0 11 = 3#11) :
    decodeEng w = accept w [(25, 1), (11, 10)] (.spunb (bits w 21 4)) := by
  unfold decodeEng; rw [h]; rfl

theorem decodeEng_4 {w : BitVec 32} (h : bits w 0 11 = 4#11) :
    decodeEng w = accept w [(25, 1), (11, 10)] (.spdrain (bits w 21 4)) := by
  unfold decodeEng; rw [h]; rfl

theorem decodeEng_5 {w : BitVec 32} (h : bits w 0 11 = 5#11) :
    decodeEng w = accept w [(20, 1), (11, 5)] (.spstat (bits w 21 5) (bits w 16 4)) := by
  unfold decodeEng; rw [h]; rfl

theorem decodeEng_6 {w : BitVec 32} (h : bits w 0 11 = 6#11) :
    decodeEng w = accept w [(11, 5)] (.bcopy (bits w 21 5) (bits w 16 5)) := by
  unfold decodeEng; rw [h]; rfl

theorem decodeEng_7 {w : BitVec 32} (h : bits w 0 11 = 7#11) :
    decodeEng w = accept w [(11, 5)] (.xcopy (bits w 21 5) (bits w 16 5)) := by
  unfold decodeEng; rw [h]; rfl

theorem decodeEng_8 {w : BitVec 32} (h : bits w 0 11 = 8#11) :
    decodeEng w = accept w [(11, 5)] (.tenq (bits w 21 5) (bits w 16 5)) := by
  unfold decodeEng; rw [h]; rfl

theorem decodeEng_9 {w : BitVec 32} (h : bits w 0 11 = 9#11) :
    decodeEng w = accept w [(11, 5)] (.twin (bits w 21 5) (bits w 16 5)) := by
  unfold decodeEng; rw [h]; rfl

theorem decodeEng_10 {w : BitVec 32} (h : bits w 0 11 = 10#11) :
    decodeEng w = accept w [(21, 5), (11, 5)] (.trel (bits w 16 5)) := by
  unfold decodeEng; rw [h]; rfl

theorem decodeEng_11 {w : BitVec 32} (h : bits w 0 11 = 11#11) :
    decodeEng w = accept w [(21, 5), (11, 5)] (.tcancel (bits w 16 5)) := by
  unfold decodeEng; rw [h]; rfl

theorem decodeEng_12 {w : BitVec 32} (h : bits w 0 11 = 12#11) :
    decodeEng w = accept w [(11, 1)] (.bwred (bits w 21 5) (bits w 16 5) (bits w 12 4)) := by
  unfold decodeEng; rw [h]; rfl

theorem decodeEng_13 {w : BitVec 32} (h : bits w 0 11 = 13#11) :
    decodeEng w = accept w [(21, 5)] (.pgmig (bits w 16 5) (bits w 11 5)) := by
  unfold decodeEng; rw [h]; rfl

theorem decodeVint_0 {w : BitVec 32} (h : bits w 0 5 = 0#5) :
    decodeVint w = accept w [] (.vadd (bits w 21 5) (bits w 16 5) (bits w 11 5) (bits w 5 6)) := by
  unfold decodeVint; rw [h]; rfl

theorem decodeVint_1 {w : BitVec 32} (h : bits w 0 5 = 1#5) :
    decodeVint w = accept w [] (.vsub (bits w 21 5) (bits w 16 5) (bits w 11 5) (bits w 5 6)) := by
  unfold decodeVint; rw [h]; rfl

theorem decodeVint_2 {w : BitVec 32} (h : bits w 0 5 = 2#5) :
    decodeVint w = accept w [] (.vmul (bits w 21 5) (bits w 16 5) (bits w 11 5) (bits w 5 6)) := by
  unfold decodeVint; rw [h]; rfl

theorem decodeVint_3 {w : BitVec 32} (h : bits w 0 5 = 3#5) :
    decodeVint w = accept w [] (.vmac (bits w 21 5) (bits w 16 5) (bits w 11 5) (bits w 5 6)) := by
  unfold decodeVint; rw [h]; rfl

theorem decodeVint_4 {w : BitVec 32} (h : bits w 0 5 = 4#5) :
    decodeVint w = accept w [] (.vmsb (bits w 21 5) (bits w 16 5) (bits w 11 5) (bits w 5 6)) := by
  unfold decodeVint; rw [h]; rfl

theorem decodeVint_5 {w : BitVec 32} (h : bits w 0 5 = 5#5) :
    decodeVint w = accept w [] (.vssa (bits w 21 5) (bits w 16 5) (bits w 11 5) (bits w 5 6)) := by
  unfold decodeVint; rw [h]; rfl

theorem decodeVint_6 {w : BitVec 32} (h : bits w 0 5 = 6#5) :
    decodeVint w = accept w [] (.vmin (bits w 21 5) (bits w 16 5) (bits w 11 5) (bits w 5 6)) := by
  unfold decodeVint; rw [h]; rfl

theorem decodeVint_7 {w : BitVec 32} (h : bits w 0 5 = 7#5) :
    decodeVint w = accept w [] (.vmax (bits w 21 5) (bits w 16 5) (bits w 11 5) (bits w 5 6)) := by
  unfold decodeVint; rw [h]; rfl

theorem decodeVint_8 {w : BitVec 32} (h : bits w 0 5 = 8#5) :
    decodeVint w = accept w [] (.vand (bits w 21 5) (bits w 16 5) (bits w 11 5) (bits w 5 6)) := by
  unfold decodeVint; rw [h]; rfl

theorem decodeVint_9 {w : BitVec 32} (h : bits w 0 5 = 9#5) :
    decodeVint w = accept w [] (.vor (bits w 21 5) (bits w 16 5) (bits w 11 5) (bits w 5 6)) := by
  unfold decodeVint; rw [h]; rfl

theorem decodeVint_10 {w : BitVec 32} (h : bits w 0 5 = 10#5) :
    decodeVint w = accept w [] (.vxor (bits w 21 5) (bits w 16 5) (bits w 11 5) (bits w 5 6)) := by
  unfold decodeVint; rw [h]; rfl

theorem decodeVint_11 {w : BitVec 32} (h : bits w 0 5 = 11#5) :
    decodeVint w = accept w [] (.vandn (bits w 21 5) (bits w 16 5) (bits w 11 5) (bits w 5 6)) := by
  unfold decodeVint; rw [h]; rfl

theorem decodeVint_12 {w : BitVec 32} (h : bits w 0 5 = 12#5) :
    decodeVint w = accept w [] (.vshl (bits w 21 5) (bits w 16 5) (bits w 11 5) (bits w 5 6)) := by
  unfold decodeVint; rw [h]; rfl

theorem decodeVint_13 {w : BitVec 32} (h : bits w 0 5 = 13#5) :
    decodeVint w = accept w [] (.vshr (bits w 21 5) (bits w 16 5) (bits w 11 5) (bits w 5 6)) := by
  unfold decodeVint; rw [h]; rfl

theorem decodeVint_14 {w : BitVec 32} (h : bits w 0 5 = 14#5) :
    decodeVint w = accept w [] (.vmulh (bits w 21 5) (bits w 16 5) (bits w 11 5) (bits w 5 6)) := by
  unfold decodeVint; rw [h]; rfl

theorem decodeVint_15 {w : BitVec 32} (h : bits w 0 5 = 15#5) :
    decodeVint w = accept w [] (.vsel (bits w 21 5) (bits w 16 5) (bits w 11 5) (bits w 5 6)) := by
  unfold decodeVint; rw [h]; rfl

theorem decodeVints_0 {w : BitVec 32} (h : bits w 0 5 = 0#5) :
    decodeVints w = accept w [] (.vadds (bits w 21 5) (bits w 16 5) (bits w 11 5) (bits w 5 6)) := by
  unfold decodeVints; rw [h]; rfl

theorem decodeVints_1 {w : BitVec 32} (h : bits w 0 5 = 1#5) :
    decodeVints w = accept w [] (.vsubs (bits w 21 5) (bits w 16 5) (bits w 11 5) (bits w 5 6)) := by
  unfold decodeVints; rw [h]; rfl

theorem decodeVints_2 {w : BitVec 32} (h : bits w 0 5 = 2#5) :
    decodeVints w = accept w [] (.vrsubs (bits w 21 5) (bits w 16 5) (bits w 11 5) (bits w 5 6)) := by
  unfold decodeVints; rw [h]; rfl

theorem decodeVints_3 {w : BitVec 32} (h : bits w 0 5 = 3#5) :
    decodeVints w = accept w [] (.vmuls (bits w 21 5) (bits w 16 5) (bits w 11 5) (bits w 5 6)) := by
  unfold decodeVints; rw [h]; rfl

theorem decodeVints_4 {w : BitVec 32} (h : bits w 0 5 = 4#5) :
    decodeVints w = accept w [] (.vmacs (bits w 21 5) (bits w 16 5) (bits w 11 5) (bits w 5 6)) := by
  unfold decodeVints; rw [h]; rfl

theorem decodeVints_5 {w : BitVec 32} (h : bits w 0 5 = 5#5) :
    decodeVints w = accept w [] (.vmins (bits w 21 5) (bits w 16 5) (bits w 11 5) (bits w 5 6)) := by
  unfold decodeVints; rw [h]; rfl

theorem decodeVints_6 {w : BitVec 32} (h : bits w 0 5 = 6#5) :
    decodeVints w = accept w [] (.vmaxs (bits w 21 5) (bits w 16 5) (bits w 11 5) (bits w 5 6)) := by
  unfold decodeVints; rw [h]; rfl

theorem decodeVints_7 {w : BitVec 32} (h : bits w 0 5 = 7#5) :
    decodeVints w = accept w [] (.vands (bits w 21 5) (bits w 16 5) (bits w 11 5) (bits w 5 6)) := by
  unfold decodeVints; rw [h]; rfl

theorem decodeVints_8 {w : BitVec 32} (h : bits w 0 5 = 8#5) :
    decodeVints w = accept w [] (.vors (bits w 21 5) (bits w 16 5) (bits w 11 5) (bits w 5 6)) := by
  unfold decodeVints; rw [h]; rfl

theorem decodeVints_9 {w : BitVec 32} (h : bits w 0 5 = 9#5) :
    decodeVints w = accept w [] (.vxors (bits w 21 5) (bits w 16 5) (bits w 11 5) (bits w 5 6)) := by
  unfold decodeVints; rw [h]; rfl

theorem decodeVints_10 {w : BitVec 32} (h : bits w 0 5 = 10#5) :
    decodeVints w = accept w [] (.vshls (bits w 21 5) (bits w 16 5) (bits w 11 5) (bits w 5 6)) := by
  unfold decodeVints; rw [h]; rfl

theorem decodeVints_11 {w : BitVec 32} (h : bits w 0 5 = 11#5) :
    decodeVints w = accept w [] (.vshrs (bits w 21 5) (bits w 16 5) (bits w 11 5) (bits w 5 6)) := by
  unfold decodeVints; rw [h]; rfl

theorem decodeVints_12 {w : BitVec 32} (h : bits w 0 5 = 12#5) :
    decodeVints w = accept w [(16, 5)] (.vbcast (bits w 21 5) (bits w 11 5) (bits w 5 6)) := by
  unfold decodeVints; rw [h]; rfl

theorem decodeVints_13 {w : BitVec 32} (h : bits w 0 5 = 13#5) :
    decodeVints w = accept w [] (.vrand (bits w 21 5) (bits w 16 5) (bits w 11 5) (bits w 5 6)) := by
  unfold decodeVints; rw [h]; rfl

theorem decodeVints_14 {w : BitVec 32} (h : bits w 0 5 = 14#5) :
    decodeVints w = accept w [] (.vslup (bits w 21 5) (bits w 16 5) (bits w 11 5) (bits w 5 6)) := by
  unfold decodeVints; rw [h]; rfl

theorem decodeVints_15 {w : BitVec 32} (h : bits w 0 5 = 15#5) :
    decodeVints w = accept w [] (.vsldn (bits w 21 5) (bits w 16 5) (bits w 11 5) (bits w 5 6)) := by
  unfold decodeVints; rw [h]; rfl

theorem decodeVun_0 {w : BitVec 32} (h : bits w 0 5 = 0#5) :
    decodeVun w = accept w [(11, 5)] (.vmov (bits w 21 5) (bits w 16 5) (bits w 5 6)) := by
  unfold decodeVun; rw [h]; rfl

theorem decodeVun_1 {w : BitVec 32} (h : bits w 0 5 = 1#5) :
    decodeVun w = accept w [(11, 5)] (.vnot (bits w 21 5) (bits w 16 5) (bits w 5 6)) := by
  unfold decodeVun; rw [h]; rfl

theorem decodeVun_2 {w : BitVec 32} (h : bits w 0 5 = 2#5) :
    decodeVun w = accept w [(11, 5)] (.vneg (bits w 21 5) (bits w 16 5) (bits w 5 6)) := by
  unfold decodeVun; rw [h]; rfl

theorem decodeVun_3 {w : BitVec 32} (h : bits w 0 5 = 3#5) :
    decodeVun w = accept w [(11, 5)] (.vabs (bits w 21 5) (bits w 16 5) (bits w 5 6)) := by
  unfold decodeVun; rw [h]; rfl

theorem decodeVun_4 {w : BitVec 32} (h : bits w 0 5 = 4#5) :
    decodeVun w = accept w [(11, 5)] (.vcvt (bits w 21 5) (bits w 16 5) (bits w 5 6)) := by
  unfold decodeVun; rw [h]; rfl

theorem decodeVun_5 {w : BitVec 32} (h : bits w 0 5 = 5#5) :
    decodeVun w = accept w [(11, 5)] (.vsatc (bits w 21 5) (bits w 16 5) (bits w 5 6)) := by
  unfold decodeVun; rw [h]; rfl

theorem decodeVun_6 {w : BitVec 32} (h : bits w 0 5 = 6#5) :
    decodeVun w = accept w [] (.vhad (bits w 21 5) (bits w 16 5) (bits w 11 5) (bits w 5 6)) := by
  unfold decodeVun; rw [h]; rfl

theorem decodeVx_0 {w : BitVec 32} (h : bits w 0 5 = 0#5) :
    decodeVx w = accept w [] (.vidx (bits w 21 5) (bits w 13 8) (bits w 5 8)) := by
  unfold decodeVx; rw [h]; rfl

theorem decodeVc_0 {w : BitVec 32} (h : bits w 0 4 = 0#4) :
    decodeVc w = accept w [] (.vceq (bits w 20 6) (bits w 15 5) (bits w 10 5) (bits w 4 6)) := by
  unfold decodeVc; rw [h]; rfl

theorem decodeVc_1 {w : BitVec 32} (h : bits w 0 4 = 1#4) :
    decodeVc w = accept w [] (.vcne (bits w 20 6) (bits w 15 5) (bits w 10 5) (bits w 4 6)) := by
  unfold decodeVc; rw [h]; rfl

theorem decodeVc_2 {w : BitVec 32} (h : bits w 0 4 = 2#4) :
    decodeVc w = accept w [] (.vclt (bits w 20 6) (bits w 15 5) (bits w 10 5) (bits w 4 6)) := by
  unfold decodeVc; rw [h]; rfl

theorem decodeVc_3 {w : BitVec 32} (h : bits w 0 4 = 3#4) :
    decodeVc w = accept w [] (.vcle (bits w 20 6) (bits w 15 5) (bits w 10 5) (bits w 4 6)) := by
  unfold decodeVc; rw [h]; rfl

theorem decodeVc_4 {w : BitVec 32} (h : bits w 0 4 = 4#4) :
    decodeVc w = accept w [] (.vceqs (bits w 20 6) (bits w 15 5) (bits w 10 5) (bits w 4 6)) := by
  unfold decodeVc; rw [h]; rfl

theorem decodeVc_5 {w : BitVec 32} (h : bits w 0 4 = 5#4) :
    decodeVc w = accept w [] (.vcnes (bits w 20 6) (bits w 15 5) (bits w 10 5) (bits w 4 6)) := by
  unfold decodeVc; rw [h]; rfl

theorem decodeVc_6 {w : BitVec 32} (h : bits w 0 4 = 6#4) :
    decodeVc w = accept w [] (.vclts (bits w 20 6) (bits w 15 5) (bits w 10 5) (bits w 4 6)) := by
  unfold decodeVc; rw [h]; rfl

theorem decodeVc_7 {w : BitVec 32} (h : bits w 0 4 = 7#4) :
    decodeVc w = accept w [] (.vcles (bits w 20 6) (bits w 15 5) (bits w 10 5) (bits w 4 6)) := by
  unfold decodeVc; rw [h]; rfl

theorem decodeVc_8 {w : BitVec 32} (h : bits w 0 4 = 8#4) :
    decodeVc w = accept w [] (.vcgts (bits w 20 6) (bits w 15 5) (bits w 10 5) (bits w 4 6)) := by
  unfold decodeVc; rw [h]; rfl

theorem decodeVc_9 {w : BitVec 32} (h : bits w 0 4 = 9#4) :
    decodeVc w = accept w [] (.vcges (bits w 20 6) (bits w 15 5) (bits w 10 5) (bits w 4 6)) := by
  unfold decodeVc; rw [h]; rfl

theorem decodeVc_10 {w : BitVec 32} (h : bits w 0 4 = 10#4) :
    decodeVc w = accept w [] (.vtst (bits w 20 6) (bits w 15 5) (bits w 10 5) (bits w 4 6)) := by
  unfold decodeVc; rw [h]; rfl

theorem decodeVc_11 {w : BitVec 32} (h : bits w 0 4 = 11#4) :
    decodeVc w = accept w [] (.fceq (bits w 20 6) (bits w 15 5) (bits w 10 5) (bits w 4 6)) := by
  unfold decodeVc; rw [h]; rfl

theorem decodeVc_12 {w : BitVec 32} (h : bits w 0 4 = 12#4) :
    decodeVc w = accept w [] (.fclt (bits w 20 6) (bits w 15 5) (bits w 10 5) (bits w 4 6)) := by
  unfold decodeVc; rw [h]; rfl

theorem decodeVc_13 {w : BitVec 32} (h : bits w 0 4 = 13#4) :
    decodeVc w = accept w [] (.fcle (bits w 20 6) (bits w 15 5) (bits w 10 5) (bits w 4 6)) := by
  unfold decodeVc; rw [h]; rfl

theorem decodeVc_14 {w : BitVec 32} (h : bits w 0 4 = 14#4) :
    decodeVc w = accept w [] (.fcun (bits w 20 6) (bits w 15 5) (bits w 10 5) (bits w 4 6)) := by
  unfold decodeVc; rw [h]; rfl

theorem decodePred_0 {w : BitVec 32} (h : bits w 0 5 = 0#5) :
    decodePred w = accept w [(5, 3)] (.pand (bits w 20 6) (bits w 14 6) (bits w 8 6)) := by
  unfold decodePred; rw [h]; rfl

theorem decodePred_1 {w : BitVec 32} (h : bits w 0 5 = 1#5) :
    decodePred w = accept w [(5, 3)] (.por (bits w 20 6) (bits w 14 6) (bits w 8 6)) := by
  unfold decodePred; rw [h]; rfl

theorem decodePred_2 {w : BitVec 32} (h : bits w 0 5 = 2#5) :
    decodePred w = accept w [(5, 3)] (.pxor (bits w 20 6) (bits w 14 6) (bits w 8 6)) := by
  unfold decodePred; rw [h]; rfl

theorem decodePred_3 {w : BitVec 32} (h : bits w 0 5 = 3#5) :
    decodePred w = accept w [(5, 3)] (.pandn (bits w 20 6) (bits w 14 6) (bits w 8 6)) := by
  unfold decodePred; rw [h]; rfl

theorem decodePred_4 {w : BitVec 32} (h : bits w 0 5 = 4#5) :
    decodePred w = accept w [(5, 9)] (.pnot (bits w 20 6) (bits w 14 6)) := by
  unfold decodePred; rw [h]; rfl

theorem decodePred_5 {w : BitVec 32} (h : bits w 0 5 = 5#5) :
    decodePred w = accept w [(5, 9)] (.pmov (bits w 20 6) (bits w 14 6)) := by
  unfold decodePred; rw [h]; rfl

theorem decodePred_6 {w : BitVec 32} (h : bits w 0 5 = 6#5) :
    decodePred w = accept w [(5, 15)] (.pall (bits w 20 6)) := by
  unfold decodePred; rw [h]; rfl

theorem decodePred_7 {w : BitVec 32} (h : bits w 0 5 = 7#5) :
    decodePred w = accept w [(5, 15)] (.pclr (bits w 20 6)) := by
  unfold decodePred; rw [h]; rfl

theorem decodePred_8 {w : BitVec 32} (h : bits w 0 5 = 8#5) :
    decodePred w = accept w [(20, 1), (5, 9)] (.pcnt (bits w 21 5) (bits w 14 6)) := by
  unfold decodePred; rw [h]; rfl

theorem decodePred_9 {w : BitVec 32} (h : bits w 0 5 = 9#5) :
    decodePred w = accept w [(20, 1), (5, 9)] (.pffs (bits w 21 5) (bits w 14 6)) := by
  unfold decodePred; rw [h]; rfl

theorem decodePred_10 {w : BitVec 32} (h : bits w 0 5 = 10#5) :
    decodePred w = accept w [(5, 3)] (.pfilt (bits w 20 6) (bits w 14 6) (bits w 8 6)) := by
  unfold decodePred; rw [h]; rfl

theorem decodePred_11 {w : BitVec 32} (h : bits w 0 5 = 11#5) :
    decodePred w = accept w [(20, 6), (5, 9)] (.mpush (bits w 14 6)) := by
  unfold decodePred; rw [h]; rfl

theorem decodePred_12 {w : BitVec 32} (h : bits w 0 5 = 12#5) :
    decodePred w = accept w [(5, 21)] (.minv) := by
  unfold decodePred; rw [h]; rfl

theorem decodePred_13 {w : BitVec 32} (h : bits w 0 5 = 13#5) :
    decodePred w = accept w [(5, 21)] (.mpop) := by
  unfold decodePred; rw [h]; rfl

theorem decodePred_14 {w : BitVec 32} (h : bits w 0 5 = 14#5) :
    decodePred w = accept w [(5, 15)] (.mtop (bits w 20 6)) := by
  unfold decodePred; rw [h]; rfl

theorem decodePred_15 {w : BitVec 32} (h : bits w 0 5 = 15#5) :
    decodePred w = accept w [(5, 15)] (.seamrd (bits w 20 6)) := by
  unfold decodePred; rw [h]; rfl

theorem decodePred_16 {w : BitVec 32} (h : bits w 0 5 = 16#5) :
    decodePred w = accept w [(20, 6), (5, 9)] (.seamwr (bits w 14 6)) := by
  unfold decodePred; rw [h]; rfl

theorem decodeReduce_0 {w : BitVec 32} (h : bits w 0 5 = 0#5) :
    decodeReduce w = accept w [] (.vredsum (bits w 21 5) (bits w 16 5) (bits w 11 5) (bits w 5 6)) := by
  unfold decodeReduce; rw [h]; rfl

theorem decodeReduce_1 {w : BitVec 32} (h : bits w 0 5 = 1#5) :
    decodeReduce w = accept w [] (.vredmin (bits w 21 5) (bits w 16 5) (bits w 11 5) (bits w 5 6)) := by
  unfold decodeReduce; rw [h]; rfl

theorem decodeReduce_2 {w : BitVec 32} (h : bits w 0 5 = 2#5) :
    decodeReduce w = accept w [] (.vredmax (bits w 21 5) (bits w 16 5) (bits w 11 5) (bits w 5 6)) := by
  unfold decodeReduce; rw [h]; rfl

theorem decodeReduce_3 {w : BitVec 32} (h : bits w 0 5 = 3#5) :
    decodeReduce w = accept w [] (.vredand (bits w 21 5) (bits w 16 5) (bits w 11 5) (bits w 5 6)) := by
  unfold decodeReduce; rw [h]; rfl

theorem decodeReduce_4 {w : BitVec 32} (h : bits w 0 5 = 4#5) :
    decodeReduce w = accept w [] (.vredor (bits w 21 5) (bits w 16 5) (bits w 11 5) (bits w 5 6)) := by
  unfold decodeReduce; rw [h]; rfl

theorem decodeReduce_5 {w : BitVec 32} (h : bits w 0 5 = 5#5) :
    decodeReduce w = accept w [] (.vargmax (bits w 21 5) (bits w 16 5) (bits w 11 5) (bits w 5 6)) := by
  unfold decodeReduce; rw [h]; rfl

theorem decodeReduce_6 {w : BitVec 32} (h : bits w 0 5 = 6#5) :
    decodeReduce w = accept w [] (.vargmin (bits w 21 5) (bits w 16 5) (bits w 11 5) (bits w 5 6)) := by
  unfold decodeReduce; rw [h]; rfl

theorem decodeReduce_7 {w : BitVec 32} (h : bits w 0 5 = 7#5) :
    decodeReduce w = accept w [] (.fredsum (bits w 21 5) (bits w 16 5) (bits w 11 5) (bits w 5 6)) := by
  unfold decodeReduce; rw [h]; rfl

theorem decodeReduce_8 {w : BitVec 32} (h : bits w 0 5 = 8#5) :
    decodeReduce w = accept w [] (.fredmax (bits w 21 5) (bits w 16 5) (bits w 11 5) (bits w 5 6)) := by
  unfold decodeReduce; rw [h]; rfl

theorem decodeReduce_9 {w : BitVec 32} (h : bits w 0 5 = 9#5) :
    decodeReduce w = accept w [] (.fargmax (bits w 21 5) (bits w 16 5) (bits w 11 5) (bits w 5 6)) := by
  unfold decodeReduce; rw [h]; rfl

theorem decodeScan_0 {w : BitVec 32} (h : bits w 0 5 = 0#5) :
    decodeScan w = accept w [(11, 5)] (.vscansum (bits w 21 5) (bits w 16 5) (bits w 5 6)) := by
  unfold decodeScan; rw [h]; rfl

theorem decodeScan_1 {w : BitVec 32} (h : bits w 0 5 = 1#5) :
    decodeScan w = accept w [(11, 5)] (.vscanmax (bits w 21 5) (bits w 16 5) (bits w 5 6)) := by
  unfold decodeScan; rw [h]; rfl

theorem decodeScan_2 {w : BitVec 32} (h : bits w 0 5 = 2#5) :
    decodeScan w = accept w [(11, 5)] (.vscanmin (bits w 21 5) (bits w 16 5) (bits w 5 6)) := by
  unfold decodeScan; rw [h]; rfl

theorem decodeScan_3 {w : BitVec 32} (h : bits w 0 5 = 3#5) :
    decodeScan w = accept w [(11, 5)] (.fscansum (bits w 21 5) (bits w 16 5) (bits w 5 6)) := by
  unfold decodeScan; rw [h]; rfl

theorem decodeScan_4 {w : BitVec 32} (h : bits w 0 5 = 4#5) :
    decodeScan w = accept w [(11, 5)] (.vcompress (bits w 21 5) (bits w 16 5) (bits w 5 6)) := by
  unfold decodeScan; rw [h]; rfl

theorem decodeScan_5 {w : BitVec 32} (h : bits w 0 5 = 5#5) :
    decodeScan w = accept w [(11, 5)] (.vexpand (bits w 21 5) (bits w 16 5) (bits w 5 6)) := by
  unfold decodeScan; rw [h]; rfl

theorem decodeScan_6 {w : BitVec 32} (h : bits w 0 5 = 6#5) :
    decodeScan w = accept w [] (.vperm (bits w 21 5) (bits w 16 5) (bits w 11 5) (bits w 5 6)) := by
  unfold decodeScan; rw [h]; rfl

theorem decodeFloat_0 {w : BitVec 32} (h : bits w 0 5 = 0#5) :
    decodeFloat w = accept w [] (.fadd (bits w 21 5) (bits w 16 5) (bits w 11 5) (bits w 5 6)) := by
  unfold decodeFloat; rw [h]; rfl

theorem decodeFloat_1 {w : BitVec 32} (h : bits w 0 5 = 1#5) :
    decodeFloat w = accept w [] (.fsub (bits w 21 5) (bits w 16 5) (bits w 11 5) (bits w 5 6)) := by
  unfold decodeFloat; rw [h]; rfl

theorem decodeFloat_2 {w : BitVec 32} (h : bits w 0 5 = 2#5) :
    decodeFloat w = accept w [] (.fmul (bits w 21 5) (bits w 16 5) (bits w 11 5) (bits w 5 6)) := by
  unfold decodeFloat; rw [h]; rfl

theorem decodeFloat_3 {w : BitVec 32} (h : bits w 0 5 = 3#5) :
    decodeFloat w = accept w [] (.fma (bits w 21 5) (bits w 16 5) (bits w 11 5) (bits w 5 6)) := by
  unfold decodeFloat; rw [h]; rfl

theorem decodeFloat_4 {w : BitVec 32} (h : bits w 0 5 = 4#5) :
    decodeFloat w = accept w [] (.fmin (bits w 21 5) (bits w 16 5) (bits w 11 5) (bits w 5 6)) := by
  unfold decodeFloat; rw [h]; rfl

theorem decodeFloat_5 {w : BitVec 32} (h : bits w 0 5 = 5#5) :
    decodeFloat w = accept w [] (.fmax (bits w 21 5) (bits w 16 5) (bits w 11 5) (bits w 5 6)) := by
  unfold decodeFloat; rw [h]; rfl

theorem decodeFloat_6 {w : BitVec 32} (h : bits w 0 5 = 6#5) :
    decodeFloat w = accept w [(11, 5)] (.fabs (bits w 21 5) (bits w 16 5) (bits w 5 6)) := by
  unfold decodeFloat; rw [h]; rfl

theorem decodeFloat_7 {w : BitVec 32} (h : bits w 0 5 = 7#5) :
    decodeFloat w = accept w [(11, 5)] (.fneg (bits w 21 5) (bits w 16 5) (bits w 5 6)) := by
  unfold decodeFloat; rw [h]; rfl

theorem decodeFloat_8 {w : BitVec 32} (h : bits w 0 5 = 8#5) :
    decodeFloat w = accept w [(11, 5)] (.fcvt (bits w 21 5) (bits w 16 5) (bits w 5 6)) := by
  unfold decodeFloat; rw [h]; rfl

theorem decodeFloat_9 {w : BitVec 32} (h : bits w 0 5 = 9#5) :
    decodeFloat w = accept w [(11, 5)] (.fcvti (bits w 21 5) (bits w 16 5) (bits w 5 6)) := by
  unfold decodeFloat; rw [h]; rfl

theorem decodeFloat_10 {w : BitVec 32} (h : bits w 0 5 = 10#5) :
    decodeFloat w = accept w [(11, 5)] (.fcvtf (bits w 21 5) (bits w 16 5) (bits w 5 6)) := by
  unfold decodeFloat; rw [h]; rfl

theorem decodeFloat_11 {w : BitVec 32} (h : bits w 0 5 = 11#5) :
    decodeFloat w = accept w [(11, 5)] (.fexp2 (bits w 21 5) (bits w 16 5) (bits w 5 6)) := by
  unfold decodeFloat; rw [h]; rfl

theorem decodeFloat_12 {w : BitVec 32} (h : bits w 0 5 = 12#5) :
    decodeFloat w = accept w [(11, 5)] (.frcp (bits w 21 5) (bits w 16 5) (bits w 5 6)) := by
  unfold decodeFloat; rw [h]; rfl

theorem decodeFloat_13 {w : BitVec 32} (h : bits w 0 5 = 13#5) :
    decodeFloat w = accept w [] (.fscl (bits w 21 5) (bits w 16 5) (bits w 11 5) (bits w 5 6)) := by
  unfold decodeFloat; rw [h]; rfl

theorem decodeMx_0 {w : BitVec 32} (h : bits w 0 5 = 0#5) :
    decodeMx w = accept w [(11, 5)] (.mxscl (bits w 21 5) (bits w 16 5) (bits w 5 6)) := by
  unfold decodeMx; rw [h]; rfl

theorem decodeMx_1 {w : BitVec 32} (h : bits w 0 5 = 1#5) :
    decodeMx w = accept w [(11, 5)] (.mxqnt (bits w 21 5) (bits w 16 5) (bits w 5 6)) := by
  unfold decodeMx; rw [h]; rfl

theorem decodeMx_2 {w : BitVec 32} (h : bits w 0 5 = 2#5) :
    decodeMx w = accept w [] (.mxbdot (bits w 21 5) (bits w 16 5) (bits w 11 5) (bits w 5 6)) := by
  unfold decodeMx; rw [h]; rfl

theorem decodeMx_3 {w : BitVec 32} (h : bits w 0 5 = 3#5) :
    decodeMx w = accept w [(25, 1), (20, 1), (5, 11)] (.emov (bits w 21 4) (bits w 16 4)) := by
  unfold decodeMx; rw [h]; rfl

theorem decodeMx_4 {w : BitVec 32} (h : bits w 0 5 = 4#5) :
    decodeMx w = accept w [(11, 5)] (.vqnt (bits w 21 5) (bits w 16 5) (bits w 5 6)) := by
  unfold decodeMx; rw [h]; rfl

theorem decodeVmem_0 {w : BitVec 32} (h : bits w 0 5 = 0#5) :
    decodeVmem w = accept w [(11, 5)] (.vld (bits w 21 5) (bits w 16 5) (bits w 5 6)) := by
  unfold decodeVmem; rw [h]; rfl

theorem decodeVmem_1 {w : BitVec 32} (h : bits w 0 5 = 1#5) :
    decodeVmem w = accept w [(11, 5)] (.vst (bits w 21 5) (bits w 16 5) (bits w 5 6)) := by
  unfold decodeVmem; rw [h]; rfl

theorem decodeVmem_2 {w : BitVec 32} (h : bits w 0 5 = 2#5) :
    decodeVmem w = accept w [] (.vlds (bits w 21 5) (bits w 16 5) (bits w 11 5) (bits w 5 6)) := by
  unfold decodeVmem; rw [h]; rfl

theorem decodeVmem_3 {w : BitVec 32} (h : bits w 0 5 = 3#5) :
    decodeVmem w = accept w [] (.vsts (bits w 21 5) (bits w 16 5) (bits w 11 5) (bits w 5 6)) := by
  unfold decodeVmem; rw [h]; rfl

theorem decodeVmem_4 {w : BitVec 32} (h : bits w 0 5 = 4#5) :
    decodeVmem w = accept w [] (.vldx (bits w 21 5) (bits w 16 5) (bits w 11 5) (bits w 5 6)) := by
  unfold decodeVmem; rw [h]; rfl

theorem decodeVmem_5 {w : BitVec 32} (h : bits w 0 5 = 5#5) :
    decodeVmem w = accept w [] (.vstx (bits w 21 5) (bits w 16 5) (bits w 11 5) (bits w 5 6)) := by
  unfold decodeVmem; rw [h]; rfl

theorem decodeVmem_6 {w : BitVec 32} (h : bits w 0 5 = 6#5) :
    decodeVmem w = accept w [(11, 5)] (.vldl (bits w 21 5) (bits w 16 5) (bits w 5 6)) := by
  unfold decodeVmem; rw [h]; rfl

theorem decodeVmem_7 {w : BitVec 32} (h : bits w 0 5 = 7#5) :
    decodeVmem w = accept w [(11, 5)] (.vstl (bits w 21 5) (bits w 16 5) (bits w 5 6)) := by
  unfold decodeVmem; rw [h]; rfl

theorem decodeVmem_8 {w : BitVec 32} (h : bits w 0 5 = 8#5) :
    decodeVmem w = accept w [(21, 5), (11, 5)] (.pld (bits w 16 5) (bits w 5 6)) := by
  unfold decodeVmem; rw [h]; rfl

theorem decodeVmem_9 {w : BitVec 32} (h : bits w 0 5 = 9#5) :
    decodeVmem w = accept w [(21, 5), (11, 5)] (.pst (bits w 16 5) (bits w 5 6)) := by
  unfold decodeVmem; rw [h]; rfl

theorem decodeVmem_10 {w : BitVec 32} (h : bits w 0 5 = 10#5) :
    decodeVmem w = accept w [(15, 1)] (.mxld (bits w 21 5) (bits w 16 5) (bits w 11 4) (bits w 5 6)) := by
  unfold decodeVmem; rw [h]; rfl

theorem decodeVmem_11 {w : BitVec 32} (h : bits w 0 5 = 11#5) :
    decodeVmem w = accept w [(15, 1)] (.mxst (bits w 21 5) (bits w 16 5) (bits w 11 4) (bits w 5 6)) := by
  unfold decodeVmem; rw [h]; rfl

theorem decodeVmem_12 {w : BitVec 32} (h : bits w 0 5 = 12#5) :
    decodeVmem w = accept w [] (.vvrld (bits w 21 5) (bits w 16 5) (bits w 11 5) (bits w 5 6)) := by
  unfold decodeVmem; rw [h]; rfl

theorem decodeVmem_13 {w : BitVec 32} (h : bits w 0 5 = 13#5) :
    decodeVmem w = accept w [] (.vvrst (bits w 21 5) (bits w 16 5) (bits w 11 5) (bits w 5 6)) := by
  unfold decodeVmem; rw [h]; rfl

theorem decodeConf_0 {w : BitVec 32} (h : bits w 0 4 = 0#4) :
    decodeConf w = accept w [(4, 12)] (.setvl (bits w 21 5) (bits w 16 5)) := by
  unfold decodeConf; rw [h]; rfl

theorem decodeConf_1 {w : BitVec 32} (h : bits w 0 4 = 1#4) :
    decodeConf w = accept w [(4, 12)] (.setvlf (bits w 21 5) (bits w 16 5)) := by
  unfold decodeConf; rw [h]; rfl

theorem decodeConf_2 {w : BitVec 32} (h : bits w 0 4 = 2#4) :
    decodeConf w = accept w [(21, 5), (4, 12)] (.vkill (bits w 16 5)) := by
  unfold decodeConf; rw [h]; rfl

theorem decodePedigree_0 {w : BitVec 32} (h : bits w 0 4 = 0#4) :
    decodePedigree w = accept w [(10, 16), (4, 4)] (.pgclr (bits w 8 2)) := by
  unfold decodePedigree; rw [h]; rfl

theorem decodePedigree_1 {w : BitVec 32} (h : bits w 0 4 = 1#4) :
    decodePedigree w = accept w [(25, 1), (4, 4)] (.pgadd (bits w 20 5) (bits w 15 5) (bits w 10 5) (bits w 8 2)) := by
  unfold decodePedigree; rw [h]; rfl

theorem decodePedigree_2 {w : BitVec 32} (h : bits w 0 4 = 2#4) :
    decodePedigree w = accept w [(4, 4)] (.pganc (bits w 20 6) (bits w 15 5) (bits w 10 5) (bits w 8 2)) := by
  unfold decodePedigree; rw [h]; rfl

theorem decodePedigree_3 {w : BitVec 32} (h : bits w 0 4 = 3#4) :
    decodePedigree w = accept w [(25, 1), (10, 5), (4, 4)] (.pgpos (bits w 20 5) (bits w 15 5) (bits w 8 2)) := by
  unfold decodePedigree; rw [h]; rfl

theorem decodePedigree_4 {w : BitVec 32} (h : bits w 0 4 = 4#4) :
    decodePedigree w = accept w [(25, 1), (10, 5), (4, 4)] (.pgpath (bits w 20 5) (bits w 15 5) (bits w 8 2)) := by
  unfold decodePedigree; rw [h]; rfl

theorem decodePedigree_5 {w : BitVec 32} (h : bits w 0 4 = 5#4) :
    decodePedigree w = accept w [(25, 1), (4, 4)] (.pgprune (bits w 20 5) (bits w 15 5) (bits w 10 5) (bits w 8 2)) := by
  unfold decodePedigree; rw [h]; rfl

theorem decodePedigree_6 {w : BitVec 32} (h : bits w 0 4 = 6#4) :
    decodePedigree w = accept w [(25, 1), (4, 4)] (.pgrd (bits w 20 5) (bits w 15 5) (bits w 10 5) (bits w 8 2)) := by
  unfold decodePedigree; rw [h]; rfl

theorem decodePedigree_7 {w : BitVec 32} (h : bits w 0 4 = 7#4) :
    decodePedigree w = accept w [(25, 1), (4, 4)] (.pgcnt (bits w 20 5) (bits w 15 5) (bits w 10 5) (bits w 8 2)) := by
  unfold decodePedigree; rw [h]; rfl

theorem decodePedigree_8 {w : BitVec 32} (h : bits w 0 4 = 8#4) :
    decodePedigree w = accept w [(25, 1), (10, 10), (4, 4)] (.pgsize (bits w 20 5) (bits w 8 2)) := by
  unfold decodePedigree; rw [h]; rfl

theorem decodeSpl_0 {w : BitVec 32} (h : bits w 0 11 = 0#11) :
    decodeSpl w = accept w [(11, 10)] (.split (bits w 21 5)) := by
  unfold decodeSpl; rw [h]; rfl

theorem decodeSpl_1 {w : BitVec 32} (h : bits w 0 11 = 1#11) :
    decodeSpl w = accept w [(11, 15)] (.join) := by
  unfold decodeSpl; rw [h]; rfl

theorem decodeSpl_2 {w : BitVec 32} (h : bits w 0 11 = 2#11) :
    decodeSpl w = accept w [(11, 10)] (.mtid (bits w 21 5)) := by
  unfold decodeSpl; rw [h]; rfl

theorem decode_1 {w : BitVec 32} (h : bits w 26 6 = 1#6) :
    decode w = decodeInt w := by
  unfold decode; rw [h]; rfl

theorem decode_2 {w : BitVec 32} (h : bits w 26 6 = 2#6) :
    decode w = accept w [] (.addi (bits w 21 5) (bits w 16 5) (bits w 15 1) (bits w 0 15)) := by
  unfold decode; rw [h]; rfl

theorem decode_3 {w : BitVec 32} (h : bits w 26 6 = 3#6) :
    decode w = accept w [] (.andi (bits w 21 5) (bits w 16 5) (bits w 15 1) (bits w 0 15)) := by
  unfold decode; rw [h]; rfl

theorem decode_4 {w : BitVec 32} (h : bits w 26 6 = 4#6) :
    decode w = accept w [] (.ori (bits w 21 5) (bits w 16 5) (bits w 15 1) (bits w 0 15)) := by
  unfold decode; rw [h]; rfl

theorem decode_5 {w : BitVec 32} (h : bits w 26 6 = 5#6) :
    decode w = accept w [] (.xori (bits w 21 5) (bits w 16 5) (bits w 15 1) (bits w 0 15)) := by
  unfold decode; rw [h]; rfl

theorem decode_6 {w : BitVec 32} (h : bits w 26 6 = 6#6) :
    decode w = decodeShfi w := by
  unfold decode; rw [h]; rfl

theorem decode_7 {w : BitVec 32} (h : bits w 26 6 = 7#6) :
    decode w = accept w [] (.slti (bits w 21 5) (bits w 16 5) (bits w 15 1) (bits w 0 15)) := by
  unfold decode; rw [h]; rfl

theorem decode_8 {w : BitVec 32} (h : bits w 26 6 = 8#6) :
    decode w = accept w [(0, 3)] (.ins16 (bits w 21 5) (bits w 19 2) (bits w 3 16)) := by
  unfold decode; rw [h]; rfl

theorem decode_9 {w : BitVec 32} (h : bits w 26 6 = 9#6) :
    decode w = accept w [] (.ldi (bits w 21 5) (bits w 0 21)) := by
  unfold decode; rw [h]; rfl

theorem decode_10 {w : BitVec 32} (h : bits w 26 6 = 10#6) :
    decode w = decodeLoad w := by
  unfold decode; rw [h]; rfl

theorem decode_11 {w : BitVec 32} (h : bits w 26 6 = 11#6) :
    decode w = decodeStore w := by
  unfold decode; rw [h]; rfl

theorem decode_12 {w : BitVec 32} (h : bits w 26 6 = 12#6) :
    decode w = decodeBranch w := by
  unfold decode; rw [h]; rfl

theorem decode_13 {w : BitVec 32} (h : bits w 26 6 = 13#6) :
    decode w = accept w [] (.jmp (bits w 0 26)) := by
  unfold decode; rw [h]; rfl

theorem decode_14 {w : BitVec 32} (h : bits w 26 6 = 14#6) :
    decode w = accept w [] (.call (bits w 0 26)) := by
  unfold decode; rw [h]; rfl

theorem decode_15 {w : BitVec 32} (h : bits w 26 6 = 15#6) :
    decode w = decodeCtl w := by
  unfold decode; rw [h]; rfl

theorem decode_16 {w : BitVec 32} (h : bits w 26 6 = 16#6) :
    decode w = accept w [(16, 5)] (.loop (bits w 21 5) (bits w 0 16)) := by
  unfold decode; rw [h]; rfl

theorem decode_17 {w : BitVec 32} (h : bits w 26 6 = 17#6) :
    decode w = accept w [] (.loopi (bits w 16 10) (bits w 0 16)) := by
  unfold decode; rw [h]; rfl

theorem decode_18 {w : BitVec 32} (h : bits w 26 6 = 18#6) :
    decode w = decodeSys w := by
  unfold decode; rw [h]; rfl

theorem decode_19 {w : BitVec 32} (h : bits w 26 6 = 19#6) :
    decode w = decodeAtom w := by
  unfold decode; rw [h]; rfl

theorem decode_20 {w : BitVec 32} (h : bits w 26 6 = 20#6) :
    decode w = decodeSync w := by
  unfold decode; rw [h]; rfl

theorem decode_21 {w : BitVec 32} (h : bits w 26 6 = 21#6) :
    decode w = decodeTag w := by
  unfold decode; rw [h]; rfl

theorem decode_22 {w : BitVec 32} (h : bits w 26 6 = 22#6) :
    decode w = decodeVers w := by
  unfold decode; rw [h]; rfl

theorem decode_23 {w : BitVec 32} (h : bits w 26 6 = 23#6) :
    decode w = decodeEng w := by
  unfold decode; rw [h]; rfl

theorem decode_24 {w : BitVec 32} (h : bits w 26 6 = 24#6) :
    decode w = decodeVint w := by
  unfold decode; rw [h]; rfl

theorem decode_25 {w : BitVec 32} (h : bits w 26 6 = 25#6) :
    decode w = decodeVints w := by
  unfold decode; rw [h]; rfl

theorem decode_26 {w : BitVec 32} (h : bits w 26 6 = 26#6) :
    decode w = decodeVun w := by
  unfold decode; rw [h]; rfl

theorem decode_27 {w : BitVec 32} (h : bits w 26 6 = 27#6) :
    decode w = decodeVx w := by
  unfold decode; rw [h]; rfl

theorem decode_28 {w : BitVec 32} (h : bits w 26 6 = 28#6) :
    decode w = decodeVc w := by
  unfold decode; rw [h]; rfl

theorem decode_29 {w : BitVec 32} (h : bits w 26 6 = 29#6) :
    decode w = decodePred w := by
  unfold decode; rw [h]; rfl

theorem decode_30 {w : BitVec 32} (h : bits w 26 6 = 30#6) :
    decode w = decodeReduce w := by
  unfold decode; rw [h]; rfl

theorem decode_31 {w : BitVec 32} (h : bits w 26 6 = 31#6) :
    decode w = decodeScan w := by
  unfold decode; rw [h]; rfl

theorem decode_32 {w : BitVec 32} (h : bits w 26 6 = 32#6) :
    decode w = decodeFloat w := by
  unfold decode; rw [h]; rfl

theorem decode_33 {w : BitVec 32} (h : bits w 26 6 = 33#6) :
    decode w = decodeMx w := by
  unfold decode; rw [h]; rfl

theorem decode_34 {w : BitVec 32} (h : bits w 26 6 = 34#6) :
    decode w = decodeVmem w := by
  unfold decode; rw [h]; rfl

theorem decode_35 {w : BitVec 32} (h : bits w 26 6 = 35#6) :
    decode w = accept w [] (.setvlx (bits w 21 5) (bits w 16 5) (bits w 0 16)) := by
  unfold decode; rw [h]; rfl

theorem decode_36 {w : BitVec 32} (h : bits w 26 6 = 36#6) :
    decode w = decodeConf w := by
  unfold decode; rw [h]; rfl

theorem decode_37 {w : BitVec 32} (h : bits w 26 6 = 37#6) :
    decode w = accept w [(0, 10)] (.setew (bits w 22 4) (bits w 18 4) (bits w 13 5) (bits w 12 1) (bits w 11 1) (bits w 10 1)) := by
  unfold decode; rw [h]; rfl

theorem decode_38 {w : BitVec 32} (h : bits w 26 6 = 38#6) :
    decode w = decodePedigree w := by
  unfold decode; rw [h]; rfl

theorem decode_39 {w : BitVec 32} (h : bits w 26 6 = 39#6) :
    decode w = decodeSpl w := by
  unfold decode; rw [h]; rfl

theorem decode_40 {w : BitVec 32} (h : bits w 26 6 = 40#6) :
    decode w = accept w [(0, 10)] (.pfx (bits w 20 6) (bits w 19 1) (bits w 14 5) (bits w 13 1) (bits w 12 1) (bits w 11 1) (bits w 10 1)) := by
  unfold decode; rw [h]; rfl

end Sys2Proof
end

