-- ==== Sys2Proof/Laws/Exec.lean ====
section
/-! SUPPORT. Sys2Proof/Laws/Exec.lean: exec and encode at each constructor. Each is true by rfl; a proof that unfolds exec
itself waits for the equations of all constructors. -/

namespace Sys2Proof.Machine

@[simp] theorem exec_add (d a b : BitVec 5) (f g : BitVec 1) (s : State) :
    exec (.add d a b f g) s = execAdd d a b f g s := rfl
@[simp] theorem exec_sub (d a b : BitVec 5) (f g : BitVec 1) (s : State) :
    exec (.sub d a b f g) s = execSub d a b f g s := rfl
@[simp] theorem exec_mul (d a b : BitVec 5) (f g : BitVec 1) (s : State) :
    exec (.mul d a b f g) s = execMul d a b f g s := rfl
@[simp] theorem exec_mulh (d a b : BitVec 5) (f g : BitVec 1) (s : State) :
    exec (.mulh d a b f g) s = execMulh d a b f g s := rfl
@[simp] theorem exec_mulhn (d a b : BitVec 5) (f g : BitVec 1) (s : State) :
    exec (.mulhn d a b f g) s = execMulhn d a b f g s := rfl
@[simp] theorem exec_div (d a b : BitVec 5) (f g : BitVec 1) (s : State) :
    exec (.div d a b f g) s = execDiv d a b f g s := rfl
@[simp] theorem exec_divn (d a b : BitVec 5) (f g : BitVec 1) (s : State) :
    exec (.divn d a b f g) s = execDivn d a b f g s := rfl
@[simp] theorem exec_rem (d a b : BitVec 5) (f g : BitVec 1) (s : State) :
    exec (.rem d a b f g) s = execRem d a b f g s := rfl
@[simp] theorem exec_remn (d a b : BitVec 5) (f g : BitVec 1) (s : State) :
    exec (.remn d a b f g) s = execRemn d a b f g s := rfl
@[simp] theorem exec_and (d a b : BitVec 5) (f g : BitVec 1) (s : State) :
    exec (.and d a b f g) s = execAnd d a b f g s := rfl
@[simp] theorem exec_or (d a b : BitVec 5) (f g : BitVec 1) (s : State) :
    exec (.or d a b f g) s = execOr d a b f g s := rfl
@[simp] theorem exec_xor (d a b : BitVec 5) (f g : BitVec 1) (s : State) :
    exec (.xor d a b f g) s = execXor d a b f g s := rfl
@[simp] theorem exec_andn (d a b : BitVec 5) (f g : BitVec 1) (s : State) :
    exec (.andn d a b f g) s = execAndn d a b f g s := rfl
@[simp] theorem exec_shl (d a b : BitVec 5) (f g : BitVec 1) (s : State) :
    exec (.shl d a b f g) s = execShl d a b f g s := rfl
@[simp] theorem exec_shr (d a b : BitVec 5) (f g : BitVec 1) (s : State) :
    exec (.shr d a b f g) s = execShr d a b f g s := rfl
@[simp] theorem exec_sar (d a b : BitVec 5) (f g : BitVec 1) (s : State) :
    exec (.sar d a b f g) s = execSar d a b f g s := rfl
@[simp] theorem exec_min (d a b : BitVec 5) (f g : BitVec 1) (s : State) :
    exec (.min d a b f g) s = execMin d a b f g s := rfl
@[simp] theorem exec_max (d a b : BitVec 5) (f g : BitVec 1) (s : State) :
    exec (.max d a b f g) s = execMax d a b f g s := rfl
@[simp] theorem exec_minn (d a b : BitVec 5) (f g : BitVec 1) (s : State) :
    exec (.minn d a b f g) s = execMinn d a b f g s := rfl
@[simp] theorem exec_maxn (d a b : BitVec 5) (f g : BitVec 1) (s : State) :
    exec (.maxn d a b f g) s = execMaxn d a b f g s := rfl
@[simp] theorem exec_slt (d a b : BitVec 5) (f g : BitVec 1) (s : State) :
    exec (.slt d a b f g) s = execSlt d a b f g s := rfl
@[simp] theorem exec_sltn (d a b : BitVec 5) (f g : BitVec 1) (s : State) :
    exec (.sltn d a b f g) s = execSltn d a b f g s := rfl
@[simp] theorem exec_clz (d a : BitVec 5) (f : BitVec 1) (s : State) : exec (.clz d a f) s = execClz d a f s := rfl
@[simp] theorem exec_ctz (d a : BitVec 5) (f : BitVec 1) (s : State) : exec (.ctz d a f) s = execCtz d a f s := rfl
@[simp] theorem exec_popc (d a : BitVec 5) (f : BitVec 1) (s : State) : exec (.popc d a f) s = execPopc d a f s := rfl
@[simp] theorem exec_mov (d a : BitVec 5) (f : BitVec 1) (s : State) : exec (.mov d a f) s = execMov d a f s := rfl
@[simp] theorem exec_gfull (d a : BitVec 5) (s : State) : exec (.gfull d a) s = execGfull d a s := rfl
@[simp] theorem exec_gempty (d : BitVec 5) (s : State) : exec (.gempty d) s = execGempty d s := rfl
@[simp] theorem exec_addi (d a : BitVec 5) (f : BitVec 1) (im : BitVec 15) (s : State) :
    exec (.addi d a f im) s = execAddi d a f im s := rfl
@[simp] theorem exec_andi (d a : BitVec 5) (f : BitVec 1) (im : BitVec 15) (s : State) :
    exec (.andi d a f im) s = execAndi d a f im s := rfl
@[simp] theorem exec_ori (d a : BitVec 5) (f : BitVec 1) (im : BitVec 15) (s : State) :
    exec (.ori d a f im) s = execOri d a f im s := rfl
@[simp] theorem exec_xori (d a : BitVec 5) (f : BitVec 1) (im : BitVec 15) (s : State) :
    exec (.xori d a f im) s = execXori d a f im s := rfl
@[simp] theorem exec_shli (d a : BitVec 5) (f : BitVec 1) (n : BitVec 6) (s : State) :
    exec (.shli d a f n) s = execShli d a f n s := rfl
@[simp] theorem exec_shri (d a : BitVec 5) (f : BitVec 1) (n : BitVec 6) (s : State) :
    exec (.shri d a f n) s = execShri d a f n s := rfl
@[simp] theorem exec_sari (d a : BitVec 5) (f : BitVec 1) (n : BitVec 6) (s : State) :
    exec (.sari d a f n) s = execSari d a f n s := rfl
@[simp] theorem exec_slti (d a : BitVec 5) (f : BitVec 1) (im : BitVec 15) (s : State) :
    exec (.slti d a f im) s = execSlti d a f im s := rfl
@[simp] theorem exec_ins16 (d : BitVec 5) (sf : BitVec 2) (im : BitVec 16) (s : State) :
    exec (.ins16 d sf im) s = execIns16 d sf im s := rfl
@[simp] theorem exec_ldi (d : BitVec 5) (im : BitVec 21) (s : State) : exec (.ldi d im) s = execLdi d im s := rfl
@[simp] theorem exec_ldb (d a : BitVec 5) (f : BitVec 1) (o : BitVec 12) (s : State) :
    exec (.ldb d a f o) s = execLdb d a f o s := rfl
@[simp] theorem exec_ldbz (d a : BitVec 5) (f : BitVec 1) (o : BitVec 12) (s : State) :
    exec (.ldbz d a f o) s = execLdbz d a f o s := rfl
@[simp] theorem exec_ldh (d a : BitVec 5) (f : BitVec 1) (o : BitVec 12) (s : State) :
    exec (.ldh d a f o) s = execLdh d a f o s := rfl
@[simp] theorem exec_ldhz (d a : BitVec 5) (f : BitVec 1) (o : BitVec 12) (s : State) :
    exec (.ldhz d a f o) s = execLdhz d a f o s := rfl
@[simp] theorem exec_ldw (d a : BitVec 5) (f : BitVec 1) (o : BitVec 12) (s : State) :
    exec (.ldw d a f o) s = execLdw d a f o s := rfl
@[simp] theorem exec_ldwz (d a : BitVec 5) (f : BitVec 1) (o : BitVec 12) (s : State) :
    exec (.ldwz d a f o) s = execLdwz d a f o s := rfl
@[simp] theorem exec_ldd (d a : BitVec 5) (f : BitVec 1) (o : BitVec 12) (s : State) :
    exec (.ldd d a f o) s = execLdd d a f o s := rfl
@[simp] theorem exec_ldq (d : BitVec 4) (a : BitVec 5) (f : BitVec 1) (o : BitVec 12) (s : State) :
    exec (.ldq d a f o) s = execLdq d a f o s := rfl
@[simp] theorem exec_stb (sf a : BitVec 5) (f : BitVec 1) (o : BitVec 12) (s : State) :
    exec (.stb sf a f o) s = execStb sf a f o s := rfl
@[simp] theorem exec_sth (sf a : BitVec 5) (f : BitVec 1) (o : BitVec 12) (s : State) :
    exec (.sth sf a f o) s = execSth sf a f o s := rfl
@[simp] theorem exec_stw (sf a : BitVec 5) (f : BitVec 1) (o : BitVec 12) (s : State) :
    exec (.stw sf a f o) s = execStw sf a f o s := rfl
@[simp] theorem exec_std (sf a : BitVec 5) (f : BitVec 1) (o : BitVec 12) (s : State) :
    exec (.std sf a f o) s = execStd sf a f o s := rfl
@[simp] theorem exec_stq (sf : BitVec 4) (a : BitVec 5) (f : BitVec 1) (o : BitVec 12) (s : State) :
    exec (.stq sf a f o) s = execStq sf a f o s := rfl
@[simp] theorem exec_beq (a b : BitVec 5) (f g : BitVec 1) (o : BitVec 11) (s : State) :
    exec (.beq a b f g o) s = execBeq a b f g o s := rfl
@[simp] theorem exec_bne (a b : BitVec 5) (f g : BitVec 1) (o : BitVec 11) (s : State) :
    exec (.bne a b f g o) s = execBne a b f g o s := rfl
@[simp] theorem exec_blt (a b : BitVec 5) (f g : BitVec 1) (o : BitVec 11) (s : State) :
    exec (.blt a b f g o) s = execBlt a b f g o s := rfl
@[simp] theorem exec_bge (a b : BitVec 5) (f g : BitVec 1) (o : BitVec 11) (s : State) :
    exec (.bge a b f g o) s = execBge a b f g o s := rfl
@[simp] theorem exec_bltn (a b : BitVec 5) (f g : BitVec 1) (o : BitVec 11) (s : State) :
    exec (.bltn a b f g o) s = execBltn a b f g o s := rfl
@[simp] theorem exec_bgen (a b : BitVec 5) (f g : BitVec 1) (o : BitVec 11) (s : State) :
    exec (.bgen a b f g o) s = execBgen a b f g o s := rfl
@[simp] theorem exec_bmz (o : BitVec 11) (s : State) : exec (.bmz o) s = execBmz o s := rfl
@[simp] theorem exec_boq (o : BitVec 11) (s : State) : exec (.boq o) s = execBoq o s := rfl
@[simp] theorem exec_jmp (o : BitVec 26) (s : State) : exec (.jmp o) s = execJmp o s := rfl
@[simp] theorem exec_call (o : BitVec 26) (s : State) : exec (.call o) s = execCall o s := rfl
@[simp] theorem exec_ret (s : State) : exec .ret s = execRet s := rfl
@[simp] theorem exec_callr (a : BitVec 5) (s : State) : exec (.callr a) s = execCallr a s := rfl
@[simp] theorem exec_jmpr (a : BitVec 5) (s : State) : exec (.jmpr a) s = execJmpr a s := rfl
@[simp] theorem exec_lexit (s : State) : exec .lexit s = execLexit s := rfl
@[simp] theorem exec_lidx (d : BitVec 5) (l : BitVec 3) (s : State) : exec (.lidx d l) s = execLidx d l s := rfl
@[simp] theorem exec_lcnt (d : BitVec 5) (l : BitVec 3) (s : State) : exec (.lcnt d l) s = execLcnt d l s := rfl
@[simp] theorem exec_yield (s : State) : exec .yield s = execYield s := rfl
@[simp] theorem exec_nop (s : State) : exec .nop s = execNop s := rfl
@[simp] theorem exec_bopush (a : BitVec 5) (s : State) : exec (.bopush a) s = execBopush a s := rfl
@[simp] theorem exec_loop (a : BitVec 5) (e : BitVec 16) (s : State) : exec (.loop a e) s = execLoop a e s := rfl
@[simp] theorem exec_loopi (c : BitVec 10) (e : BitVec 16) (s : State) : exec (.loopi c e) s = execLoopi c e s := rfl
@[simp] theorem exec_csrrd (d : BitVec 5) (c : BitVec 12) (s : State) : exec (.csrrd d c) s = execCsrrd d c s := rfl
@[simp] theorem exec_csrwr (a : BitVec 5) (c : BitVec 12) (s : State) : exec (.csrwr a c) s = execCsrwr a c s := rfl
@[simp] theorem exec_csrset (a : BitVec 5) (c : BitVec 12) (s : State) :
    exec (.csrset a c) s = execCsrset a c s := rfl
@[simp] theorem exec_csrclr (a : BitVec 5) (c : BitVec 12) (s : State) :
    exec (.csrclr a c) s = execCsrclr a c s := rfl
@[simp] theorem exec_trap (n : BitVec 12) (s : State) : exec (.trap n) s = execTrap n s := rfl
@[simp] theorem exec_rett (s : State) : exec .rett s = execRett s := rfl
@[simp] theorem exec_halt (s : State) : exec .halt s = execHalt s := rfl
@[simp] theorem exec_gtsrd (d : BitVec 5) (s : State) : exec (.gtsrd d) s = execGtsrd d s := rfl
@[simp] theorem exec_evrd (d : BitVec 3) (s : State) : exec (.evrd d) s = execEvrd d s := rfl
@[simp] theorem exec_evwait (s : State) : exec .evwait s = execEvwait s := rfl
@[simp] theorem exec_waita (d a : BitVec 5) (s : State) : exec (.waita d a) s = execWaita d a s := rfl
@[simp] theorem exec_fence (o : BitVec 4) (sf : BitVec 3) (s : State) : exec (.fence o sf) s = execFence o sf s := rfl
@[simp] theorem exec_sbar (a : BitVec 5) (s : State) : exec (.sbar a) s = execSbar a s := rfl
@[simp] theorem exec_ifence (s : State) : exec .ifence s = execIfence s := rfl
@[simp] theorem exec_tlbinvAll (a : BitVec 5) (r : BitVec 1) (s : State) :
    exec (.tlbinvAll a r) s = execTlbinvAll a r s := rfl
@[simp] theorem exec_tlbinvPage (a : BitVec 5) (r : BitVec 1) (s : State) :
    exec (.tlbinvPage a r) s = execTlbinvPage a r s := rfl
@[simp] theorem exec_tlbinvContext (a : BitVec 5) (r : BitVec 1) (s : State) :
    exec (.tlbinvContext a r) s = execTlbinvContext a r s := rfl
@[simp] theorem exec_atadd (d a b : BitVec 5) (f g : BitVec 1) (o : BitVec 2) (sf : BitVec 3) (s : State) :
    exec (.atadd d a b f g o sf) s = execAtadd d a b f g o sf s := rfl
@[simp] theorem exec_atswp (d a b : BitVec 5) (f g : BitVec 1) (o : BitVec 2) (sf : BitVec 3) (s : State) :
    exec (.atswp d a b f g o sf) s = execAtswp d a b f g o sf s := rfl
@[simp] theorem exec_atcas (d a b : BitVec 5) (f g : BitVec 1) (o : BitVec 2) (sf : BitVec 3) (s : State) :
    exec (.atcas d a b f g o sf) s = execAtcas d a b f g o sf s := rfl
@[simp] theorem exec_atmin (d a b : BitVec 5) (f g : BitVec 1) (o : BitVec 2) (sf : BitVec 3) (s : State) :
    exec (.atmin d a b f g o sf) s = execAtmin d a b f g o sf s := rfl
@[simp] theorem exec_atmax (d a b : BitVec 5) (f g : BitVec 1) (o : BitVec 2) (sf : BitVec 3) (s : State) :
    exec (.atmax d a b f g o sf) s = execAtmax d a b f g o sf s := rfl
@[simp] theorem exec_atminn (d a b : BitVec 5) (f g : BitVec 1) (o : BitVec 2) (sf : BitVec 3) (s : State) :
    exec (.atminn d a b f g o sf) s = execAtminn d a b f g o sf s := rfl
@[simp] theorem exec_atmaxn (d a b : BitVec 5) (f g : BitVec 1) (o : BitVec 2) (sf : BitVec 3) (s : State) :
    exec (.atmaxn d a b f g o sf) s = execAtmaxn d a b f g o sf s := rfl
@[simp] theorem exec_atand (d a b : BitVec 5) (f g : BitVec 1) (o : BitVec 2) (sf : BitVec 3) (s : State) :
    exec (.atand d a b f g o sf) s = execAtand d a b f g o sf s := rfl
@[simp] theorem exec_ator (d a b : BitVec 5) (f g : BitVec 1) (o : BitVec 2) (sf : BitVec 3) (s : State) :
    exec (.ator d a b f g o sf) s = execAtor d a b f g o sf s := rfl
@[simp] theorem exec_atxor (d a b : BitVec 5) (f g : BitVec 1) (o : BitVec 2) (sf : BitVec 3) (s : State) :
    exec (.atxor d a b f g o sf) s = execAtxor d a b f g o sf s := rfl
@[simp] theorem exec_redadd (a b : BitVec 5) (f g o : BitVec 1) (sf : BitVec 3) (s : State) :
    exec (.redadd a b f g o sf) s = execRedadd a b f g o sf s := rfl
@[simp] theorem exec_redmin (a b : BitVec 5) (f g o : BitVec 1) (sf : BitVec 3) (s : State) :
    exec (.redmin a b f g o sf) s = execRedmin a b f g o sf s := rfl
@[simp] theorem exec_redmax (a b : BitVec 5) (f g o : BitVec 1) (sf : BitVec 3) (s : State) :
    exec (.redmax a b f g o sf) s = execRedmax a b f g o sf s := rfl
@[simp] theorem exec_lda (d a : BitVec 5) (f : BitVec 1) (sf : BitVec 3) (s : State) :
    exec (.lda d a f sf) s = execLda d a f sf s := rfl
@[simp] theorem exec_stl (a b : BitVec 5) (f g : BitVec 1) (sf : BitVec 3) (s : State) :
    exec (.stl a b f g sf) s = execStl a b f g sf s := rfl
@[simp] theorem exec_sytas (d a : BitVec 5) (f : BitVec 1) (s : State) :
    exec (.sytas d a f) s = execSytas d a f s := rfl
@[simp] theorem exec_syfadd (d a b : BitVec 5) (f g : BitVec 1) (s : State) :
    exec (.syfadd d a b f g) s = execSyfadd d a b f g s := rfl
@[simp] theorem exec_syrd (d a : BitVec 5) (f : BitVec 1) (s : State) : exec (.syrd d a f) s = execSyrd d a f s := rfl
@[simp] theorem exec_sywr (a b : BitVec 5) (f g : BitVec 1) (s : State) :
    exec (.sywr a b f g) s = execSywr a b f g s := rfl
@[simp] theorem exec_sywait (a b : BitVec 5) (f g : BitVec 1) (s : State) :
    exec (.sywait a b f g) s = execSywait a b f g s := rfl
@[simp] theorem exec_ldff (d a : BitVec 5) (f : BitVec 1) (o : BitVec 12) (s : State) :
    exec (.ldff d a f o) s = execLdff d a f o s := rfl
@[simp] theorem exec_ldfe (d a : BitVec 5) (f : BitVec 1) (o : BitVec 12) (s : State) :
    exec (.ldfe d a f o) s = execLdfe d a f o s := rfl
@[simp] theorem exec_stef (sf a : BitVec 5) (f : BitVec 1) (o : BitVec 12) (s : State) :
    exec (.stef sf a f o) s = execStef sf a f o s := rfl
@[simp] theorem exec_stff (sf a : BitVec 5) (f : BitVec 1) (o : BitVec 12) (s : State) :
    exec (.stff sf a f o) s = execStff sf a f o s := rfl
@[simp] theorem exec_feclr (a : BitVec 5) (f : BitVec 1) (o : BitVec 12) (s : State) :
    exec (.feclr a f o) s = execFeclr a f o s := rfl
@[simp] theorem exec_feq (d a : BitVec 5) (f : BitVec 1) (o : BitVec 12) (s : State) :
    exec (.feq d a f o) s = execFeq d a f o s := rfl
@[simp] theorem exec_vrld (d a b : BitVec 5) (f g : BitVec 1) (s : State) :
    exec (.vrld d a b f g) s = execVrld d a b f g s := rfl
@[simp] theorem exec_vrldle (d : BitVec 4) (a b : BitVec 5) (f g : BitVec 1) (s : State) :
    exec (.vrldle d a b f g) s = execVrldle d a b f g s := rfl
@[simp] theorem exec_vrst (d a b : BitVec 5) (f g : BitVec 1) (s : State) :
    exec (.vrst d a b f g) s = execVrst d a b f g s := rfl
@[simp] theorem exec_vrfloor (a b : BitVec 5) (f g : BitVec 1) (s : State) :
    exec (.vrfloor a b f g) s = execVrfloor a b f g s := rfl
@[simp] theorem exec_vrtop (d a : BitVec 5) (f : BitVec 1) (s : State) :
    exec (.vrtop d a f) s = execVrtop d a f s := rfl
@[simp] theorem exec_vrpoll (d a b : BitVec 5) (f g : BitVec 1) (s : State) :
    exec (.vrpoll d a b f g) s = execVrpoll d a b f g s := rfl
@[simp] theorem exec_qpush (q : BitVec 2) (sf : BitVec 5) (s : State) : exec (.qpush q sf) s = execQpush q sf s := rfl
@[simp] theorem exec_qpop (d : BitVec 5) (q : BitVec 2) (s : State) : exec (.qpop d q) s = execQpop d q s := rfl
@[simp] theorem exec_spbind (n : BitVec 4) (a : BitVec 5) (s : State) : exec (.spbind n a) s = execSpbind n a s := rfl
@[simp] theorem exec_spunb (n : BitVec 4) (s : State) : exec (.spunb n) s = execSpunb n s := rfl
@[simp] theorem exec_spdrain (n : BitVec 4) (s : State) : exec (.spdrain n) s = execSpdrain n s := rfl
@[simp] theorem exec_spstat (d : BitVec 5) (n : BitVec 4) (s : State) : exec (.spstat d n) s = execSpstat d n s := rfl
@[simp] theorem exec_bcopy (d a : BitVec 5) (s : State) : exec (.bcopy d a) s = execBcopy d a s := rfl
@[simp] theorem exec_xcopy (d a : BitVec 5) (s : State) : exec (.xcopy d a) s = execXcopy d a s := rfl
@[simp] theorem exec_tenq (d a : BitVec 5) (s : State) : exec (.tenq d a) s = execTenq d a s := rfl
@[simp] theorem exec_twin (d a : BitVec 5) (s : State) : exec (.twin d a) s = execTwin d a s := rfl
@[simp] theorem exec_trel (a : BitVec 5) (s : State) : exec (.trel a) s = execTrel a s := rfl
@[simp] theorem exec_tcancel (a : BitVec 5) (s : State) : exec (.tcancel a) s = execTcancel a s := rfl
@[simp] theorem exec_bwred (d a : BitVec 5) (b : BitVec 4) (s : State) :
    exec (.bwred d a b) s = execBwred d a b s := rfl
@[simp] theorem exec_pgmig (a b : BitVec 5) (s : State) : exec (.pgmig a b) s = execPgmig a b s := rfl
@[simp] theorem exec_vadd (d a b : BitVec 5) (p : BitVec 6) (s : State) :
    exec (.vadd d a b p) s = execVadd d a b p s := rfl
@[simp] theorem exec_vsub (d a b : BitVec 5) (p : BitVec 6) (s : State) :
    exec (.vsub d a b p) s = execVsub d a b p s := rfl
@[simp] theorem exec_vmul (d a b : BitVec 5) (p : BitVec 6) (s : State) :
    exec (.vmul d a b p) s = execVmul d a b p s := rfl
@[simp] theorem exec_vmac (d a b : BitVec 5) (p : BitVec 6) (s : State) :
    exec (.vmac d a b p) s = execVmac d a b p s := rfl
@[simp] theorem exec_vmsb (d a b : BitVec 5) (p : BitVec 6) (s : State) :
    exec (.vmsb d a b p) s = execVmsb d a b p s := rfl
@[simp] theorem exec_vssa (d a b : BitVec 5) (p : BitVec 6) (s : State) :
    exec (.vssa d a b p) s = execVssa d a b p s := rfl
@[simp] theorem exec_vmin (d a b : BitVec 5) (p : BitVec 6) (s : State) :
    exec (.vmin d a b p) s = execVmin d a b p s := rfl
@[simp] theorem exec_vmax (d a b : BitVec 5) (p : BitVec 6) (s : State) :
    exec (.vmax d a b p) s = execVmax d a b p s := rfl
@[simp] theorem exec_vand (d a b : BitVec 5) (p : BitVec 6) (s : State) :
    exec (.vand d a b p) s = execVand d a b p s := rfl
@[simp] theorem exec_vor (d a b : BitVec 5) (p : BitVec 6) (s : State) :
    exec (.vor d a b p) s = execVor d a b p s := rfl
@[simp] theorem exec_vxor (d a b : BitVec 5) (p : BitVec 6) (s : State) :
    exec (.vxor d a b p) s = execVxor d a b p s := rfl
@[simp] theorem exec_vandn (d a b : BitVec 5) (p : BitVec 6) (s : State) :
    exec (.vandn d a b p) s = execVandn d a b p s := rfl
@[simp] theorem exec_vshl (d a b : BitVec 5) (p : BitVec 6) (s : State) :
    exec (.vshl d a b p) s = execVshl d a b p s := rfl
@[simp] theorem exec_vshr (d a b : BitVec 5) (p : BitVec 6) (s : State) :
    exec (.vshr d a b p) s = execVshr d a b p s := rfl
@[simp] theorem exec_vmulh (d a b : BitVec 5) (p : BitVec 6) (s : State) :
    exec (.vmulh d a b p) s = execVmulh d a b p s := rfl
@[simp] theorem exec_vsel (d a b : BitVec 5) (p : BitVec 6) (s : State) :
    exec (.vsel d a b p) s = execVsel d a b p s := rfl
@[simp] theorem exec_vadds (d a b : BitVec 5) (p : BitVec 6) (s : State) :
    exec (.vadds d a b p) s = execVadds d a b p s := rfl
@[simp] theorem exec_vsubs (d a b : BitVec 5) (p : BitVec 6) (s : State) :
    exec (.vsubs d a b p) s = execVsubs d a b p s := rfl
@[simp] theorem exec_vrsubs (d a b : BitVec 5) (p : BitVec 6) (s : State) :
    exec (.vrsubs d a b p) s = execVrsubs d a b p s := rfl
@[simp] theorem exec_vmuls (d a b : BitVec 5) (p : BitVec 6) (s : State) :
    exec (.vmuls d a b p) s = execVmuls d a b p s := rfl
@[simp] theorem exec_vmacs (d a b : BitVec 5) (p : BitVec 6) (s : State) :
    exec (.vmacs d a b p) s = execVmacs d a b p s := rfl
@[simp] theorem exec_vmins (d a b : BitVec 5) (p : BitVec 6) (s : State) :
    exec (.vmins d a b p) s = execVmins d a b p s := rfl
@[simp] theorem exec_vmaxs (d a b : BitVec 5) (p : BitVec 6) (s : State) :
    exec (.vmaxs d a b p) s = execVmaxs d a b p s := rfl
@[simp] theorem exec_vands (d a b : BitVec 5) (p : BitVec 6) (s : State) :
    exec (.vands d a b p) s = execVands d a b p s := rfl
@[simp] theorem exec_vors (d a b : BitVec 5) (p : BitVec 6) (s : State) :
    exec (.vors d a b p) s = execVors d a b p s := rfl
@[simp] theorem exec_vxors (d a b : BitVec 5) (p : BitVec 6) (s : State) :
    exec (.vxors d a b p) s = execVxors d a b p s := rfl
@[simp] theorem exec_vshls (d a b : BitVec 5) (p : BitVec 6) (s : State) :
    exec (.vshls d a b p) s = execVshls d a b p s := rfl
@[simp] theorem exec_vshrs (d a b : BitVec 5) (p : BitVec 6) (s : State) :
    exec (.vshrs d a b p) s = execVshrs d a b p s := rfl
@[simp] theorem exec_vbcast (d b : BitVec 5) (p : BitVec 6) (s : State) :
    exec (.vbcast d b p) s = execVbcast d b p s := rfl
@[simp] theorem exec_vrand (d a b : BitVec 5) (p : BitVec 6) (s : State) :
    exec (.vrand d a b p) s = execVrand d a b p s := rfl
@[simp] theorem exec_vslup (d a b : BitVec 5) (p : BitVec 6) (s : State) :
    exec (.vslup d a b p) s = execVslup d a b p s := rfl
@[simp] theorem exec_vsldn (d a b : BitVec 5) (p : BitVec 6) (s : State) :
    exec (.vsldn d a b p) s = execVsldn d a b p s := rfl
@[simp] theorem exec_vmov (d a : BitVec 5) (p : BitVec 6) (s : State) : exec (.vmov d a p) s = execVmov d a p s := rfl
@[simp] theorem exec_vnot (d a : BitVec 5) (p : BitVec 6) (s : State) : exec (.vnot d a p) s = execVnot d a p s := rfl
@[simp] theorem exec_vneg (d a : BitVec 5) (p : BitVec 6) (s : State) : exec (.vneg d a p) s = execVneg d a p s := rfl
@[simp] theorem exec_vabs (d a : BitVec 5) (p : BitVec 6) (s : State) : exec (.vabs d a p) s = execVabs d a p s := rfl
@[simp] theorem exec_vcvt (d a : BitVec 5) (p : BitVec 6) (s : State) : exec (.vcvt d a p) s = execVcvt d a p s := rfl
@[simp] theorem exec_vsatc (d a : BitVec 5) (p : BitVec 6) (s : State) :
    exec (.vsatc d a p) s = execVsatc d a p s := rfl
@[simp] theorem exec_vhad (d a k : BitVec 5) (p : BitVec 6) (s : State) :
    exec (.vhad d a k p) s = execVhad d a k p s := rfl
@[simp] theorem exec_vidx (d : BitVec 5) (sf t : BitVec 8) (s : State) :
    exec (.vidx d sf t) s = execVidx d sf t s := rfl
@[simp] theorem exec_vceq (d : BitVec 6) (a b : BitVec 5) (p : BitVec 6) (s : State) :
    exec (.vceq d a b p) s = execVceq d a b p s := rfl
@[simp] theorem exec_vcne (d : BitVec 6) (a b : BitVec 5) (p : BitVec 6) (s : State) :
    exec (.vcne d a b p) s = execVcne d a b p s := rfl
@[simp] theorem exec_vclt (d : BitVec 6) (a b : BitVec 5) (p : BitVec 6) (s : State) :
    exec (.vclt d a b p) s = execVclt d a b p s := rfl
@[simp] theorem exec_vcle (d : BitVec 6) (a b : BitVec 5) (p : BitVec 6) (s : State) :
    exec (.vcle d a b p) s = execVcle d a b p s := rfl
@[simp] theorem exec_vceqs (d : BitVec 6) (a b : BitVec 5) (p : BitVec 6) (s : State) :
    exec (.vceqs d a b p) s = execVceqs d a b p s := rfl
@[simp] theorem exec_vcnes (d : BitVec 6) (a b : BitVec 5) (p : BitVec 6) (s : State) :
    exec (.vcnes d a b p) s = execVcnes d a b p s := rfl
@[simp] theorem exec_vclts (d : BitVec 6) (a b : BitVec 5) (p : BitVec 6) (s : State) :
    exec (.vclts d a b p) s = execVclts d a b p s := rfl
@[simp] theorem exec_vcles (d : BitVec 6) (a b : BitVec 5) (p : BitVec 6) (s : State) :
    exec (.vcles d a b p) s = execVcles d a b p s := rfl
@[simp] theorem exec_vcgts (d : BitVec 6) (a b : BitVec 5) (p : BitVec 6) (s : State) :
    exec (.vcgts d a b p) s = execVcgts d a b p s := rfl
@[simp] theorem exec_vcges (d : BitVec 6) (a b : BitVec 5) (p : BitVec 6) (s : State) :
    exec (.vcges d a b p) s = execVcges d a b p s := rfl
@[simp] theorem exec_vtst (d : BitVec 6) (a b : BitVec 5) (p : BitVec 6) (s : State) :
    exec (.vtst d a b p) s = execVtst d a b p s := rfl
@[simp] theorem exec_fceq (d : BitVec 6) (a b : BitVec 5) (p : BitVec 6) (s : State) :
    exec (.fceq d a b p) s = execFceq d a b p s := rfl
@[simp] theorem exec_fclt (d : BitVec 6) (a b : BitVec 5) (p : BitVec 6) (s : State) :
    exec (.fclt d a b p) s = execFclt d a b p s := rfl
@[simp] theorem exec_fcle (d : BitVec 6) (a b : BitVec 5) (p : BitVec 6) (s : State) :
    exec (.fcle d a b p) s = execFcle d a b p s := rfl
@[simp] theorem exec_fcun (d : BitVec 6) (a b : BitVec 5) (p : BitVec 6) (s : State) :
    exec (.fcun d a b p) s = execFcun d a b p s := rfl
@[simp] theorem exec_pand (d a b : BitVec 6) (s : State) : exec (.pand d a b) s = execPand d a b s := rfl
@[simp] theorem exec_por (d a b : BitVec 6) (s : State) : exec (.por d a b) s = execPor d a b s := rfl
@[simp] theorem exec_pxor (d a b : BitVec 6) (s : State) : exec (.pxor d a b) s = execPxor d a b s := rfl
@[simp] theorem exec_pandn (d a b : BitVec 6) (s : State) : exec (.pandn d a b) s = execPandn d a b s := rfl
@[simp] theorem exec_pnot (d a : BitVec 6) (s : State) : exec (.pnot d a) s = execPnot d a s := rfl
@[simp] theorem exec_pmov (d a : BitVec 6) (s : State) : exec (.pmov d a) s = execPmov d a s := rfl
@[simp] theorem exec_pall (d : BitVec 6) (s : State) : exec (.pall d) s = execPall d s := rfl
@[simp] theorem exec_pclr (d : BitVec 6) (s : State) : exec (.pclr d) s = execPclr d s := rfl
@[simp] theorem exec_pcnt (d : BitVec 5) (a : BitVec 6) (s : State) : exec (.pcnt d a) s = execPcnt d a s := rfl
@[simp] theorem exec_pffs (d : BitVec 5) (a : BitVec 6) (s : State) : exec (.pffs d a) s = execPffs d a s := rfl
@[simp] theorem exec_pfilt (d a b : BitVec 6) (s : State) : exec (.pfilt d a b) s = execPfilt d a b s := rfl
@[simp] theorem exec_mpush (a : BitVec 6) (s : State) : exec (.mpush a) s = execMpush a s := rfl
@[simp] theorem exec_minv (s : State) : exec .minv s = execMinv s := rfl
@[simp] theorem exec_mpop (s : State) : exec .mpop s = execMpop s := rfl
@[simp] theorem exec_mtop (d : BitVec 6) (s : State) : exec (.mtop d) s = execMtop d s := rfl
@[simp] theorem exec_seamrd (d : BitVec 6) (s : State) : exec (.seamrd d) s = execSeamrd d s := rfl
@[simp] theorem exec_seamwr (a : BitVec 6) (s : State) : exec (.seamwr a) s = execSeamwr a s := rfl
@[simp] theorem exec_vredsum (d a b : BitVec 5) (p : BitVec 6) (s : State) :
    exec (.vredsum d a b p) s = execVredsum d a b p s := rfl
@[simp] theorem exec_vredmin (d a b : BitVec 5) (p : BitVec 6) (s : State) :
    exec (.vredmin d a b p) s = execVredmin d a b p s := rfl
@[simp] theorem exec_vredmax (d a b : BitVec 5) (p : BitVec 6) (s : State) :
    exec (.vredmax d a b p) s = execVredmax d a b p s := rfl
@[simp] theorem exec_vredand (d a b : BitVec 5) (p : BitVec 6) (s : State) :
    exec (.vredand d a b p) s = execVredand d a b p s := rfl
@[simp] theorem exec_vredor (d a b : BitVec 5) (p : BitVec 6) (s : State) :
    exec (.vredor d a b p) s = execVredor d a b p s := rfl
@[simp] theorem exec_vargmax (d a b : BitVec 5) (p : BitVec 6) (s : State) :
    exec (.vargmax d a b p) s = execVargmax d a b p s := rfl
@[simp] theorem exec_vargmin (d a b : BitVec 5) (p : BitVec 6) (s : State) :
    exec (.vargmin d a b p) s = execVargmin d a b p s := rfl
@[simp] theorem exec_fredsum (d a b : BitVec 5) (p : BitVec 6) (s : State) :
    exec (.fredsum d a b p) s = execFredsum d a b p s := rfl
@[simp] theorem exec_fredmax (d a b : BitVec 5) (p : BitVec 6) (s : State) :
    exec (.fredmax d a b p) s = execFredmax d a b p s := rfl
@[simp] theorem exec_fargmax (d a b : BitVec 5) (p : BitVec 6) (s : State) :
    exec (.fargmax d a b p) s = execFargmax d a b p s := rfl
@[simp] theorem exec_vscansum (d a : BitVec 5) (p : BitVec 6) (s : State) :
    exec (.vscansum d a p) s = execVscansum d a p s := rfl
@[simp] theorem exec_vscanmax (d a : BitVec 5) (p : BitVec 6) (s : State) :
    exec (.vscanmax d a p) s = execVscanmax d a p s := rfl
@[simp] theorem exec_vscanmin (d a : BitVec 5) (p : BitVec 6) (s : State) :
    exec (.vscanmin d a p) s = execVscanmin d a p s := rfl
@[simp] theorem exec_fscansum (d a : BitVec 5) (p : BitVec 6) (s : State) :
    exec (.fscansum d a p) s = execFscansum d a p s := rfl
@[simp] theorem exec_vcompress (d a : BitVec 5) (p : BitVec 6) (s : State) :
    exec (.vcompress d a p) s = execVcompress d a p s := rfl
@[simp] theorem exec_vexpand (d a : BitVec 5) (p : BitVec 6) (s : State) :
    exec (.vexpand d a p) s = execVexpand d a p s := rfl
@[simp] theorem exec_vperm (d a b : BitVec 5) (p : BitVec 6) (s : State) :
    exec (.vperm d a b p) s = execVperm d a b p s := rfl
@[simp] theorem exec_fadd (d a b : BitVec 5) (p : BitVec 6) (s : State) :
    exec (.fadd d a b p) s = execFadd d a b p s := rfl
@[simp] theorem exec_fsub (d a b : BitVec 5) (p : BitVec 6) (s : State) :
    exec (.fsub d a b p) s = execFsub d a b p s := rfl
@[simp] theorem exec_fmul (d a b : BitVec 5) (p : BitVec 6) (s : State) :
    exec (.fmul d a b p) s = execFmul d a b p s := rfl
@[simp] theorem exec_fma (d a b : BitVec 5) (p : BitVec 6) (s : State) :
    exec (.fma d a b p) s = execFma d a b p s := rfl
@[simp] theorem exec_fmin (d a b : BitVec 5) (p : BitVec 6) (s : State) :
    exec (.fmin d a b p) s = execFmin d a b p s := rfl
@[simp] theorem exec_fmax (d a b : BitVec 5) (p : BitVec 6) (s : State) :
    exec (.fmax d a b p) s = execFmax d a b p s := rfl
@[simp] theorem exec_fabs (d a : BitVec 5) (p : BitVec 6) (s : State) : exec (.fabs d a p) s = execFabs d a p s := rfl
@[simp] theorem exec_fneg (d a : BitVec 5) (p : BitVec 6) (s : State) : exec (.fneg d a p) s = execFneg d a p s := rfl
@[simp] theorem exec_fcvt (d a : BitVec 5) (p : BitVec 6) (s : State) : exec (.fcvt d a p) s = execFcvt d a p s := rfl
@[simp] theorem exec_fcvti (d a : BitVec 5) (p : BitVec 6) (s : State) :
    exec (.fcvti d a p) s = execFcvti d a p s := rfl
@[simp] theorem exec_fcvtf (d a : BitVec 5) (p : BitVec 6) (s : State) :
    exec (.fcvtf d a p) s = execFcvtf d a p s := rfl
@[simp] theorem exec_fexp2 (d a : BitVec 5) (p : BitVec 6) (s : State) :
    exec (.fexp2 d a p) s = execFexp2 d a p s := rfl
@[simp] theorem exec_frcp (d a : BitVec 5) (p : BitVec 6) (s : State) : exec (.frcp d a p) s = execFrcp d a p s := rfl
@[simp] theorem exec_fscl (d a b : BitVec 5) (p : BitVec 6) (s : State) :
    exec (.fscl d a b p) s = execFscl d a b p s := rfl
@[simp] theorem exec_mxscl (d a : BitVec 5) (p : BitVec 6) (s : State) :
    exec (.mxscl d a p) s = execMxscl d a p s := rfl
@[simp] theorem exec_mxqnt (d a : BitVec 5) (p : BitVec 6) (s : State) :
    exec (.mxqnt d a p) s = execMxqnt d a p s := rfl
@[simp] theorem exec_mxbdot (d a b : BitVec 5) (p : BitVec 6) (s : State) :
    exec (.mxbdot d a b p) s = execMxbdot d a b p s := rfl
@[simp] theorem exec_emov (e f : BitVec 4) (s : State) : exec (.emov e f) s = execEmov e f s := rfl
@[simp] theorem exec_vqnt (d a : BitVec 5) (p : BitVec 6) (s : State) : exec (.vqnt d a p) s = execVqnt d a p s := rfl
@[simp] theorem exec_vld (d a : BitVec 5) (p : BitVec 6) (s : State) : exec (.vld d a p) s = execVld d a p s := rfl
@[simp] theorem exec_vst (sf a : BitVec 5) (p : BitVec 6) (s : State) : exec (.vst sf a p) s = execVst sf a p s := rfl
@[simp] theorem exec_vlds (d a b : BitVec 5) (p : BitVec 6) (s : State) :
    exec (.vlds d a b p) s = execVlds d a b p s := rfl
@[simp] theorem exec_vsts (sf a b : BitVec 5) (p : BitVec 6) (s : State) :
    exec (.vsts sf a b p) s = execVsts sf a b p s := rfl
@[simp] theorem exec_vldx (d a b : BitVec 5) (p : BitVec 6) (s : State) :
    exec (.vldx d a b p) s = execVldx d a b p s := rfl
@[simp] theorem exec_vstx (sf a b : BitVec 5) (p : BitVec 6) (s : State) :
    exec (.vstx sf a b p) s = execVstx sf a b p s := rfl
@[simp] theorem exec_vldl (d a : BitVec 5) (p : BitVec 6) (s : State) : exec (.vldl d a p) s = execVldl d a p s := rfl
@[simp] theorem exec_vstl (sf a : BitVec 5) (p : BitVec 6) (s : State) :
    exec (.vstl sf a p) s = execVstl sf a p s := rfl
@[simp] theorem exec_pld (a : BitVec 5) (p : BitVec 6) (s : State) : exec (.pld a p) s = execPld a p s := rfl
@[simp] theorem exec_pst (a : BitVec 5) (p : BitVec 6) (s : State) : exec (.pst a p) s = execPst a p s := rfl
@[simp] theorem exec_mxld (d a : BitVec 5) (e : BitVec 4) (p : BitVec 6) (s : State) :
    exec (.mxld d a e p) s = execMxld d a e p s := rfl
@[simp] theorem exec_mxst (sf a : BitVec 5) (e : BitVec 4) (p : BitVec 6) (s : State) :
    exec (.mxst sf a e p) s = execMxst sf a e p s := rfl
@[simp] theorem exec_vvrld (d a b : BitVec 5) (p : BitVec 6) (s : State) :
    exec (.vvrld d a b p) s = execVvrld d a b p s := rfl
@[simp] theorem exec_vvrst (sf a b : BitVec 5) (p : BitVec 6) (s : State) :
    exec (.vvrst sf a b p) s = execVvrst sf a b p s := rfl
@[simp] theorem exec_setvlx (d a : BitVec 5) (o : BitVec 16) (s : State) :
    exec (.setvlx d a o) s = execSetvlx d a o s := rfl
@[simp] theorem exec_setvl (d a : BitVec 5) (s : State) : exec (.setvl d a) s = execSetvl d a s := rfl
@[simp] theorem exec_setvlf (d a : BitVec 5) (s : State) : exec (.setvlf d a) s = execSetvlf d a s := rfl
@[simp] theorem exec_vkill (a : BitVec 5) (s : State) : exec (.vkill a) s = execVkill a s := rfl
@[simp] theorem exec_setew (a b : BitVec 4) (d : BitVec 5) (x y z : BitVec 1) (s : State) :
    exec (.setew a b d x y z) s = execSetew a b d x y z s := rfl
@[simp] theorem exec_pgclr (t : BitVec 2) (s : State) : exec (.pgclr t) s = execPgclr t s := rfl
@[simp] theorem exec_pgadd (d a b : BitVec 5) (t : BitVec 2) (s : State) :
    exec (.pgadd d a b t) s = execPgadd d a b t s := rfl
@[simp] theorem exec_pganc (d : BitVec 6) (a b : BitVec 5) (t : BitVec 2) (s : State) :
    exec (.pganc d a b t) s = execPganc d a b t s := rfl
@[simp] theorem exec_pgpos (d a : BitVec 5) (t : BitVec 2) (s : State) :
    exec (.pgpos d a t) s = execPgpos d a t s := rfl
@[simp] theorem exec_pgpath (d a : BitVec 5) (t : BitVec 2) (s : State) :
    exec (.pgpath d a t) s = execPgpath d a t s := rfl
@[simp] theorem exec_pgprune (d a b : BitVec 5) (t : BitVec 2) (s : State) :
    exec (.pgprune d a b t) s = execPgprune d a b t s := rfl
@[simp] theorem exec_pgrd (d a c : BitVec 5) (t : BitVec 2) (s : State) :
    exec (.pgrd d a c t) s = execPgrd d a c t s := rfl
@[simp] theorem exec_pgcnt (d a b : BitVec 5) (t : BitVec 2) (s : State) :
    exec (.pgcnt d a b t) s = execPgcnt d a b t s := rfl
@[simp] theorem exec_pgsize (d : BitVec 5) (t : BitVec 2) (s : State) : exec (.pgsize d t) s = execPgsize d t s := rfl
@[simp] theorem exec_split (n : BitVec 5) (s : State) : exec (.split n) s = execSplit n s := rfl
@[simp] theorem exec_join (s : State) : exec .join s = execJoin s := rfl
@[simp] theorem exec_mtid (d : BitVec 5) (s : State) : exec (.mtid d) s = execMtid d s := rfl
@[simp] theorem exec_pfx (p : BitVec 6) (im : BitVec 1) (v : BitVec 5) (c e l u : BitVec 1) (s : State) :
    exec (.pfx p im v c e l u) s = execPfx p im v c e l u s := rfl
@[simp] theorem exec_fillComplete (c : CoreId) (w : Who) (n : Nat) (s : State) :
    exec (.fillComplete c w n) s = execFillComplete c w n s := rfl
@[simp] theorem exec_waitTimeout (c : CoreId) (w : Who) (s : State) :
    exec (.waitTimeout c w) s = execWaitTimeout c w s := rfl
@[simp] theorem exec_feTimeout (c : CoreId) (n : Nat) (s : State) :
    exec (.feTimeout c n) s = execFeTimeout c n s := rfl
@[simp] theorem exec_verTimeout (c : CoreId) (w : Who) (s : State) :
    exec (.verTimeout c w) s = execVerTimeout c w s := rfl
@[simp] theorem exec_verFull (c : CoreId) (w : Who) (s : State) : exec (.verFull c w) s = execVerFull c w s := rfl
@[simp] theorem exec_trapDelivery (c : CoreId) (w : Who) (s : State) :
    exec (.trapDelivery c w) s = execTrapDelivery c w s := rfl
@[simp] theorem exec_predeadlineExpiry (c : CoreId) (w : Who) (s : State) :
    exec (.predeadlineExpiry c w) s = execPredeadlineExpiry c w s := rfl
@[simp] theorem exec_contextSave (team : Nat) (s : State) : exec (.contextSave team) s = execContextSave team s := rfl
@[simp] theorem exec_teamRestore (team die cluster : Nat) (s : State) :
    exec (.teamRestore team die cluster) s = execTeamRestore team die cluster s := rfl
@[simp] theorem exec_teamPlace (launch : Nat) (s : State) : exec (.teamPlace launch) s = execTeamPlace launch s := rfl
@[simp] theorem exec_victimSelection (launch : Nat) (s : State) :
    exec (.victimSelection launch) s = execVictimSelection launch s := rfl
@[simp] theorem exec_hotSpotCheck (s : State) : exec .hotSpotCheck s = execHotSpotCheck s := rfl
@[simp] theorem exec_launch (q : Nat) (s : State) : exec (.launch q) s = execLaunch q s := rfl
@[simp] theorem exec_launchLive (launch : Nat) (s : State) :
    exec (.launchLive launch) s = execLaunchLive launch s := rfl
@[simp] theorem exec_launchComplete (launch : Nat) (s : State) :
    exec (.launchComplete launch) s = execLaunchComplete launch s := rfl
@[simp] theorem exec_droverCopy (q : Nat) (s : State) : exec (.droverCopy q) s = execDroverCopy q s := rfl
@[simp] theorem exec_waitver (q : Nat) (s : State) : exec (.waitver q) s = execWaitver q s := rfl
@[simp] theorem exec_makever (q : Nat) (s : State) : exec (.makever q) s = execMakever q s := rfl
@[simp] theorem exec_droverFence (q : Nat) (s : State) : exec (.droverFence q) s = execDroverFence q s := rfl
@[simp] theorem exec_cancel (q : Nat) (s : State) : exec (.cancel q) s = execCancel q s := rfl
@[simp] theorem exec_invalidRecord (q : Nat) (s : State) : exec (.invalidRecord q) s = execInvalidRecord q s := rfl
@[simp] theorem exec_qtailWrite (q : Nat) (v : Word) (s : State) :
    exec (.qtailWrite q v) s = execQtailWrite q v s := rfl
@[simp] theorem exec_queueEnable (q : Nat) (s : State) : exec (.queueEnable q) s = execQueueEnable q s := rfl
@[simp] theorem exec_queueDisable (q : Nat) (s : State) : exec (.queueDisable q) s = execQueueDisable q s := rfl
@[simp] theorem exec_fltClear (q : Nat) (s : State) : exec (.fltClear q) s = execFltClear q s := rfl
@[simp] theorem exec_hostEventRingEnable (s : State) : exec .hostEventRingEnable s = execHostEventRingEnable s := rfl
@[simp] theorem exec_hevheadWrite (v : Word) (s : State) : exec (.hevheadWrite v) s = execHevheadWrite v s := rfl
@[simp] theorem exec_hostEventRecord (r : EvRec) (s : State) :
    exec (.hostEventRecord r) s = execHostEventRecord r s := rfl
@[simp] theorem exec_registerWrite (r : RegName) (v : Word) (s : State) :
    exec (.registerWrite r v) s = execRegisterWrite r v s := rfl
@[simp] theorem exec_pwrctlEnter (s : State) : exec .pwrctlEnter s = execPwrctlEnter s := rfl
@[simp] theorem exec_pwrctlExit (s : State) : exec .pwrctlExit s = execPwrctlExit s := rfl
@[simp] theorem exec_brnNAssert (s : State) : exec .brnNAssert s = execBrnNAssert s := rfl
@[simp] theorem exec_brnNDeassert (s : State) : exec .brnNDeassert s = execBrnNDeassert s := rfl
@[simp] theorem exec_engineParkDeadline (s : State) : exec .engineParkDeadline s = execEngineParkDeadline s := rfl
@[simp] theorem exec_brownoutHeld (s : State) : exec .brownoutHeld s = execBrownoutHeld s := rfl
@[simp] theorem exec_brownoutExit (s : State) : exec .brownoutExit s = execBrownoutExit s := rfl
@[simp] theorem exec_brownoutResume (s : State) : exec .brownoutResume s = execBrownoutResume s := rfl
@[simp] theorem exec_supplyLoss (s : State) : exec .supplyLoss s = execSupplyLoss s := rfl
@[simp] theorem exec_coldBoot (s : State) : exec .coldBoot s = execColdBoot s := rfl
@[simp] theorem exec_attestationRequest (nonce : List Byte) (s : State) :
    exec (.attestationRequest nonce) s = execAttestationRequest nonce s := rfl
@[simp] theorem exec_crookAssert (s : State) : exec .crookAssert s = execCrookAssert s := rfl
@[simp] theorem exec_crookDeassert (s : State) : exec .crookDeassert s = execCrookDeassert s := rfl
@[simp] theorem exec_crookRelease (s : State) : exec .crookRelease s = execCrookRelease s := rfl
@[simp] theorem exec_crookRampStep (s : State) : exec .crookRampStep s = execCrookRampStep s := rfl
@[simp] theorem exec_powerSample (watts : Nat) (s : State) :
    exec (.powerSample watts) s = execPowerSample watts s := rfl
@[simp] theorem exec_powerLoop (s : State) : exec .powerLoop s = execPowerLoop s := rfl
@[simp] theorem exec_thermalAdjust (s : State) : exec .thermalAdjust s = execThermalAdjust s := rfl
@[simp] theorem exec_lease (f : Flit) (s : State) : exec (.lease f) s = execLease f s := rfl
@[simp] theorem exec_leaseExpiry (s : State) : exec .leaseExpiry s = execLeaseExpiry s := rfl
@[simp] theorem exec_migrationScan (s : State) : exec .migrationScan s = execMigrationScan s := rfl
@[simp] theorem exec_frameCounterHalving (s : State) : exec .frameCounterHalving s = execFrameCounterHalving s := rfl
@[simp] theorem exec_migration (s : State) : exec .migration s = execMigration s := rfl
@[simp] theorem exec_migrateDone (s : State) : exec .migrateDone s = execMigrateDone s := rfl
@[simp] theorem exec_hotCounterHalving (die : Nat) (s : State) :
    exec (.hotCounterHalving die) s = execHotCounterHalving die s := rfl
@[simp] theorem exec_bankRoleChange (die : Nat) (s : State) :
    exec (.bankRoleChange die) s = execBankRoleChange die s := rfl
@[simp] theorem exec_bankSpare (die bank : Nat) (s : State) :
    exec (.bankSpare die bank) s = execBankSpare die bank s := rfl
@[simp] theorem exec_scoreHalving (s : State) : exec .scoreHalving s = execScoreHalving s := rfl
@[simp] theorem exec_remap (c : CoreId) (s : State) : exec (.remap c) s = execRemap c s := rfl
@[simp] theorem exec_testResult (die : Nat) (verdict : BitVec 2) (s : State) :
    exec (.testResult die verdict) s = execTestResult die verdict s := rfl
@[simp] theorem exec_timedRotation (die : Nat) (s : State) :
    exec (.timedRotation die) s = execTimedRotation die s := rfl
@[simp] theorem exec_suspicionSwap (die : Nat) (s : State) :
    exec (.suspicionSwap die) s = execSuspicionSwap die s := rfl
@[simp] theorem exec_swapEnd (die : Nat) (s : State) : exec (.swapEnd die) s = execSwapEnd die s := rfl
@[simp] theorem exec_eventSettle (c : CoreId) (s : State) : exec (.eventSettle c) s = execEventSettle c s := rfl
@[simp] theorem exec_copy (c : CoreId) (ticket : Nat) (s : State) :
    exec (.copy c ticket) s = execCopy c ticket s := rfl
@[simp] theorem exec_toslice (c : CoreId) (ticket : Nat) (s : State) :
    exec (.toslice c ticket) s = execToslice c ticket s := rfl
@[simp] theorem exec_fromslice (c : CoreId) (ticket : Nat) (s : State) :
    exec (.fromslice c ticket) s = execFromslice c ticket s := rfl
@[simp] theorem exec_planes (c : CoreId) (ticket : Nat) (s : State) :
    exec (.planes c ticket) s = execPlanes c ticket s := rfl
@[simp] theorem exec_unplanes (c : CoreId) (ticket : Nat) (s : State) :
    exec (.unplanes c ticket) s = execUnplanes c ticket s := rfl
@[simp] theorem exec_mxsplit (c : CoreId) (ticket : Nat) (s : State) :
    exec (.mxsplit c ticket) s = execMxsplit c ticket s := rfl
@[simp] theorem exec_copyDone (c : CoreId) (ticket : Nat) (s : State) :
    exec (.copyDone c ticket) s = execCopyDone c ticket s := rfl
@[simp] theorem exec_xcopyPut (c : CoreId) (ticket : Nat) (s : State) :
    exec (.xcopyPut c ticket) s = execXcopyPut c ticket s := rfl
@[simp] theorem exec_xcopyGet (c : CoreId) (ticket : Nat) (s : State) :
    exec (.xcopyGet c ticket) s = execXcopyGet c ticket s := rfl
@[simp] theorem exec_xcopyDataFlit (f : Flit) (s : State) : exec (.xcopyDataFlit f) s = execXcopyDataFlit f s := rfl
@[simp] theorem exec_xcopyDone (c : CoreId) (ticket : Nat) (status : BitVec 8) (addr : Word) (s : State) :
    exec (.xcopyDone c ticket status addr) s = execXcopyDone c ticket status addr s := rfl
@[simp] theorem exec_xcopyPathTimeout (c : CoreId) (ticket : Nat) (s : State) :
    exec (.xcopyPathTimeout c ticket) s = execXcopyPathTimeout c ticket s := rfl
@[simp] theorem exec_tileReady (die cluster slot : Nat) (s : State) :
    exec (.tileReady die cluster slot) s = execTileReady die cluster slot s := rfl
@[simp] theorem exec_tilePlace (die cluster slot : Nat) (s : State) :
    exec (.tilePlace die cluster slot) s = execTilePlace die cluster slot s := rfl
@[simp] theorem exec_kStep (die cluster slot : Nat) (s : State) :
    exec (.kStep die cluster slot) s = execKStep die cluster slot s := rfl
@[simp] theorem exec_tileWindowCommit (die cluster slot : Nat) (s : State) :
    exec (.tileWindowCommit die cluster slot) s = execTileWindowCommit die cluster slot s := rfl
@[simp] theorem exec_tileFetchFailure (die cluster slot : Nat) (s : State) :
    exec (.tileFetchFailure die cluster slot) s = execTileFetchFailure die cluster slot s := rfl
@[simp] theorem exec_tilePark (die cluster slot : Nat) (s : State) :
    exec (.tilePark die cluster slot) s = execTilePark die cluster slot s := rfl
@[simp] theorem exec_spoolFetch (c : CoreId) (n cnt : Nat) (s : State) :
    exec (.spoolFetch c n cnt) s = execSpoolFetch c n cnt s := rfl
@[simp] theorem exec_postedReductionWalkEnd (c : CoreId) (w : Who) (s : State) :
    exec (.postedReductionWalkEnd c w) s = execPostedReductionWalkEnd c w s := rfl
@[simp] theorem exec_floorApply (region die : Nat) (s : State) :
    exec (.floorApply region die) s = execFloorApply region die s := rfl
@[simp] theorem exec_syncBroadcast (die : Nat) (s : State) :
    exec (.syncBroadcast die) s = execSyncBroadcast die s := rfl
@[simp] theorem exec_nak (port : Nat) (ack : BitVec 16) (s : State) :
    exec (.nak port ack) s = execNak port ack s := rfl
@[simp] theorem exec_ackTimer (port : Nat) (s : State) : exec (.ackTimer port) s = execAckTimer port s := rfl
@[simp] theorem exec_replayTimeout (port : Nat) (s : State) :
    exec (.replayTimeout port) s = execReplayTimeout port s := rfl
@[simp] theorem exec_laneFailure (port lane : Nat) (s : State) :
    exec (.laneFailure port lane) s = execLaneFailure port lane s := rfl
@[simp] theorem exec_retrain (port : Nat) (s : State) : exec (.retrain port) s = execRetrain port s := rfl
@[simp] theorem exec_bellwetherPost (f : Flit) (s : State) :
    exec (.bellwetherPost f) s = execBellwetherPost f s := rfl
@[simp] theorem exec_bellwetherResult (f : Flit) (s : State) :
    exec (.bellwetherResult f) s = execBellwetherResult f s := rfl
@[simp] theorem exec_bwredRepost (group : Nat) (s : State) :
    exec (.bwredRepost group) s = execBwredRepost group s := rfl
@[simp] theorem exec_cxlHostAccess (write : Bool) (pa n : Nat) (data : List Byte) (s : State) :
    exec (.cxlHostAccess write pa n data) s = execCxlHostAccess write pa n data s := rfl
@[simp] theorem exec_ucieSegmentFailure (segment : Nat) (s : State) :
    exec (.ucieSegmentFailure segment) s = execUcieSegmentFailure segment s := rfl
@[simp] theorem exec_dsModeChange (c : CoreId) (s : State) : exec (.dsModeChange c) s = execDsModeChange c s := rfl
@[simp] theorem exec_ill (w : BitVec 32) (s : State) : exec (.ill w) s = execIll w s := rfl
@[simp] theorem exec_flitReceived (port : Nat) (f : Flit) (s : State) :
    exec (.flitReceived port f) s = execFlitReceived port f s := rfl
@[simp] theorem exec_hostSnoop (line : Nat) (invalidate : Bool) (s : State) :
    exec (.hostSnoop line invalidate) s = execHostSnoop line invalidate s := rfl
@[simp] theorem exec_contextRegistration (desc : List Word) (s : State) :
    exec (.contextRegistration desc) s = execContextRegistration desc s := rfl
@[simp] theorem exec_contextDestruction (num : Nat) (s : State) :
    exec (.contextDestruction num) s = execContextDestruction num s := rfl
@[simp] theorem exec_managementConfiguration (cfg : MgmtCfg) (s : State) :
    exec (.managementConfiguration cfg) s = execManagementConfiguration cfg s := rfl
@[simp] theorem exec_ucieLaneRepair (segment lane : Nat) (s : State) :
    exec (.ucieLaneRepair segment lane) s = execUcieLaneRepair segment lane s := rfl

@[simp] theorem encode_add (d a b : BitVec 5) (f g : BitVec 1) : encode (.add d a b f g) = wA 1 d a b f g 0 := rfl
@[simp] theorem encode_sub (d a b : BitVec 5) (f g : BitVec 1) : encode (.sub d a b f g) = wA 1 d a b f g 1 := rfl
@[simp] theorem encode_mul (d a b : BitVec 5) (f g : BitVec 1) : encode (.mul d a b f g) = wA 1 d a b f g 2 := rfl
@[simp] theorem encode_mulh (d a b : BitVec 5) (f g : BitVec 1) : encode (.mulh d a b f g) = wA 1 d a b f g 3 := rfl
@[simp] theorem encode_mulhn (d a b : BitVec 5) (f g : BitVec 1) : encode (.mulhn d a b f g) = wA 1 d a b f g 4 := rfl
@[simp] theorem encode_div (d a b : BitVec 5) (f g : BitVec 1) : encode (.div d a b f g) = wA 1 d a b f g 5 := rfl
@[simp] theorem encode_divn (d a b : BitVec 5) (f g : BitVec 1) : encode (.divn d a b f g) = wA 1 d a b f g 6 := rfl
@[simp] theorem encode_rem (d a b : BitVec 5) (f g : BitVec 1) : encode (.rem d a b f g) = wA 1 d a b f g 7 := rfl
@[simp] theorem encode_remn (d a b : BitVec 5) (f g : BitVec 1) : encode (.remn d a b f g) = wA 1 d a b f g 8 := rfl
@[simp] theorem encode_and (d a b : BitVec 5) (f g : BitVec 1) : encode (.and d a b f g) = wA 1 d a b f g 9 := rfl
@[simp] theorem encode_or (d a b : BitVec 5) (f g : BitVec 1) : encode (.or d a b f g) = wA 1 d a b f g 10 := rfl
@[simp] theorem encode_xor (d a b : BitVec 5) (f g : BitVec 1) : encode (.xor d a b f g) = wA 1 d a b f g 11 := rfl
@[simp] theorem encode_andn (d a b : BitVec 5) (f g : BitVec 1) : encode (.andn d a b f g) = wA 1 d a b f g 12 := rfl
@[simp] theorem encode_shl (d a b : BitVec 5) (f g : BitVec 1) : encode (.shl d a b f g) = wA 1 d a b f g 13 := rfl
@[simp] theorem encode_shr (d a b : BitVec 5) (f g : BitVec 1) : encode (.shr d a b f g) = wA 1 d a b f g 14 := rfl
@[simp] theorem encode_sar (d a b : BitVec 5) (f g : BitVec 1) : encode (.sar d a b f g) = wA 1 d a b f g 15 := rfl
@[simp] theorem encode_min (d a b : BitVec 5) (f g : BitVec 1) : encode (.min d a b f g) = wA 1 d a b f g 16 := rfl
@[simp] theorem encode_max (d a b : BitVec 5) (f g : BitVec 1) : encode (.max d a b f g) = wA 1 d a b f g 17 := rfl
@[simp] theorem encode_minn (d a b : BitVec 5) (f g : BitVec 1) : encode (.minn d a b f g) = wA 1 d a b f g 18 := rfl
@[simp] theorem encode_maxn (d a b : BitVec 5) (f g : BitVec 1) : encode (.maxn d a b f g) = wA 1 d a b f g 19 := rfl
@[simp] theorem encode_slt (d a b : BitVec 5) (f g : BitVec 1) : encode (.slt d a b f g) = wA 1 d a b f g 20 := rfl
@[simp] theorem encode_sltn (d a b : BitVec 5) (f g : BitVec 1) : encode (.sltn d a b f g) = wA 1 d a b f g 21 := rfl
@[simp] theorem encode_clz (d a : BitVec 5) (f : BitVec 1) : encode (.clz d a f) = wA 1 d a 0 f 0 22 := rfl
@[simp] theorem encode_ctz (d a : BitVec 5) (f : BitVec 1) : encode (.ctz d a f) = wA 1 d a 0 f 0 23 := rfl
@[simp] theorem encode_popc (d a : BitVec 5) (f : BitVec 1) : encode (.popc d a f) = wA 1 d a 0 f 0 24 := rfl
@[simp] theorem encode_mov (d a : BitVec 5) (f : BitVec 1) : encode (.mov d a f) = wA 1 d a 0 f 0 25 := rfl
@[simp] theorem encode_gfull (d a : BitVec 5) : encode (.gfull d a) = wA 1 d a 0 0 0 26 := rfl
@[simp] theorem encode_gempty (d : BitVec 5) : encode (.gempty d) = wA 1 d 0 0 0 0 27 := rfl
@[simp] theorem encode_addi (d a : BitVec 5) (f : BitVec 1) (i : BitVec 15) :
    encode (.addi d a f i) = wI 2 d a f i := rfl
@[simp] theorem encode_andi (d a : BitVec 5) (f : BitVec 1) (i : BitVec 15) :
    encode (.andi d a f i) = wI 3 d a f i := rfl
@[simp] theorem encode_ori (d a : BitVec 5) (f : BitVec 1) (i : BitVec 15) :
    encode (.ori d a f i) = wI 4 d a f i := rfl
@[simp] theorem encode_xori (d a : BitVec 5) (f : BitVec 1) (i : BitVec 15) :
    encode (.xori d a f i) = wI 5 d a f i := rfl
@[simp] theorem encode_shli (d a : BitVec 5) (f : BitVec 1) (n : BitVec 6) :
    encode (.shli d a f n) = wI 6 d a f (0#9 ++ n) := rfl
@[simp] theorem encode_shri (d a : BitVec 5) (f : BitVec 1) (n : BitVec 6) :
    encode (.shri d a f n) = wI 6 d a f (128#9 ++ n) := rfl
@[simp] theorem encode_sari (d a : BitVec 5) (f : BitVec 1) (n : BitVec 6) :
    encode (.sari d a f n) = wI 6 d a f (256#9 ++ n) := rfl
@[simp] theorem encode_slti (d a : BitVec 5) (f : BitVec 1) (i : BitVec 15) :
    encode (.slti d a f i) = wI 7 d a f i := rfl
@[simp] theorem encode_ins16 (d : BitVec 5) (s : BitVec 2) (i : BitVec 16) : encode (.ins16 d s i) = wN 8 d s i := rfl
@[simp] theorem encode_ldi (d : BitVec 5) (i : BitVec 21) : encode (.ldi d i) = wD 9 d i := rfl
@[simp] theorem encode_ldb (d a : BitVec 5) (f : BitVec 1) (o : BitVec 12) :
    encode (.ldb d a f o) = wM 10 d a f 0 o := rfl
@[simp] theorem encode_ldbz (d a : BitVec 5) (f : BitVec 1) (o : BitVec 12) :
    encode (.ldbz d a f o) = wM 10 d a f 1 o := rfl
@[simp] theorem encode_ldh (d a : BitVec 5) (f : BitVec 1) (o : BitVec 12) :
    encode (.ldh d a f o) = wM 10 d a f 2 o := rfl
@[simp] theorem encode_ldhz (d a : BitVec 5) (f : BitVec 1) (o : BitVec 12) :
    encode (.ldhz d a f o) = wM 10 d a f 3 o := rfl
@[simp] theorem encode_ldw (d a : BitVec 5) (f : BitVec 1) (o : BitVec 12) :
    encode (.ldw d a f o) = wM 10 d a f 4 o := rfl
@[simp] theorem encode_ldwz (d a : BitVec 5) (f : BitVec 1) (o : BitVec 12) :
    encode (.ldwz d a f o) = wM 10 d a f 5 o := rfl
@[simp] theorem encode_ldd (d a : BitVec 5) (f : BitVec 1) (o : BitVec 12) :
    encode (.ldd d a f o) = wM 10 d a f 6 o := rfl
@[simp] theorem encode_ldq (d : BitVec 4) (a : BitVec 5) (f : BitVec 1) (o : BitVec 12) :
    encode (.ldq d a f o) = wM 10 (d ++ 0#1) a f 7 o := rfl
@[simp] theorem encode_stb (s a : BitVec 5) (f : BitVec 1) (o : BitVec 12) :
    encode (.stb s a f o) = wM 11 s a f 0 o := rfl
@[simp] theorem encode_sth (s a : BitVec 5) (f : BitVec 1) (o : BitVec 12) :
    encode (.sth s a f o) = wM 11 s a f 1 o := rfl
@[simp] theorem encode_stw (s a : BitVec 5) (f : BitVec 1) (o : BitVec 12) :
    encode (.stw s a f o) = wM 11 s a f 2 o := rfl
@[simp] theorem encode_std (s a : BitVec 5) (f : BitVec 1) (o : BitVec 12) :
    encode (.std s a f o) = wM 11 s a f 3 o := rfl
@[simp] theorem encode_stq (s : BitVec 4) (a : BitVec 5) (f : BitVec 1) (o : BitVec 12) :
    encode (.stq s a f o) = wM 11 (s ++ 0#1) a f 4 o := rfl
@[simp] theorem encode_beq (a b : BitVec 5) (f g : BitVec 1) (o : BitVec 11) :
    encode (.beq a b f g o) = wB 12 a b f g 0 o := rfl
@[simp] theorem encode_bne (a b : BitVec 5) (f g : BitVec 1) (o : BitVec 11) :
    encode (.bne a b f g o) = wB 12 a b f g 1 o := rfl
@[simp] theorem encode_blt (a b : BitVec 5) (f g : BitVec 1) (o : BitVec 11) :
    encode (.blt a b f g o) = wB 12 a b f g 2 o := rfl
@[simp] theorem encode_bge (a b : BitVec 5) (f g : BitVec 1) (o : BitVec 11) :
    encode (.bge a b f g o) = wB 12 a b f g 3 o := rfl
@[simp] theorem encode_bltn (a b : BitVec 5) (f g : BitVec 1) (o : BitVec 11) :
    encode (.bltn a b f g o) = wB 12 a b f g 4 o := rfl
@[simp] theorem encode_bgen (a b : BitVec 5) (f g : BitVec 1) (o : BitVec 11) :
    encode (.bgen a b f g o) = wB 12 a b f g 5 o := rfl
@[simp] theorem encode_bmz (o : BitVec 11) : encode (.bmz o) = wB 12 0 0 0 0 6 o := rfl
@[simp] theorem encode_boq (o : BitVec 11) : encode (.boq o) = wB 12 0 0 0 0 7 o := rfl
@[simp] theorem encode_jmp (o : BitVec 26) : encode (.jmp o) = wJ 13 o := rfl
@[simp] theorem encode_call (o : BitVec 26) : encode (.call o) = wJ 14 o := rfl
@[simp] theorem encode_ret : encode .ret = wZ 15 0 0 0 0 := rfl
@[simp] theorem encode_callr (a : BitVec 5) : encode (.callr a) = wZ 15 0 a 0 1 := rfl
@[simp] theorem encode_jmpr (a : BitVec 5) : encode (.jmpr a) = wZ 15 0 a 0 2 := rfl
@[simp] theorem encode_lexit : encode .lexit = wZ 15 0 0 0 3 := rfl
@[simp] theorem encode_lidx (d : BitVec 5) (l : BitVec 3) : encode (.lidx d l) = wZ 15 d 0 (0#9 ++ l) 4 := rfl
@[simp] theorem encode_lcnt (d : BitVec 5) (l : BitVec 3) : encode (.lcnt d l) = wZ 15 d 0 (0#9 ++ l) 5 := rfl
@[simp] theorem encode_yield : encode .yield = wZ 15 0 0 0 6 := rfl
@[simp] theorem encode_nop : encode .nop = wZ 15 0 0 0 7 := rfl
@[simp] theorem encode_bopush (a : BitVec 5) : encode (.bopush a) = wZ 15 0 a 0 8 := rfl
@[simp] theorem encode_loop (a : BitVec 5) (e : BitVec 16) : encode (.loop a e) = wL 16 a e := rfl
@[simp] theorem encode_loopi (c : BitVec 10) (e : BitVec 16) : encode (.loopi c e) = wLI 17 c e := rfl
@[simp] theorem encode_csrrd (d : BitVec 5) (c : BitVec 12) : encode (.csrrd d c) = wZ 18 d 0 c 0 := rfl
@[simp] theorem encode_csrwr (a : BitVec 5) (c : BitVec 12) : encode (.csrwr a c) = wZ 18 0 a c 1 := rfl
@[simp] theorem encode_csrset (a : BitVec 5) (c : BitVec 12) : encode (.csrset a c) = wZ 18 0 a c 2 := rfl
@[simp] theorem encode_csrclr (a : BitVec 5) (c : BitVec 12) : encode (.csrclr a c) = wZ 18 0 a c 3 := rfl
@[simp] theorem encode_trap (n : BitVec 12) : encode (.trap n) = wZ 18 0 0 n 4 := rfl
@[simp] theorem encode_rett : encode .rett = wZ 18 0 0 0 5 := rfl
@[simp] theorem encode_halt : encode .halt = wZ 18 0 0 0 6 := rfl
@[simp] theorem encode_gtsrd (d : BitVec 5) : encode (.gtsrd d) = wZ 18 d 0 0 7 := rfl
@[simp] theorem encode_evrd (d : BitVec 3) : encode (.evrd d) = wZ 18 (d ++ 0#2) 0 0 8 := rfl
@[simp] theorem encode_evwait : encode .evwait = wZ 18 0 0 0 9 := rfl
@[simp] theorem encode_waita (d a : BitVec 5) : encode (.waita d a) = wZ 18 d a 0 10 := rfl
@[simp] theorem encode_fence (o : BitVec 4) (s : BitVec 3) : encode (.fence o s) = wZ 18 0 0 (0#5 ++ o ++ s) 11 := rfl
@[simp] theorem encode_sbar (a : BitVec 5) : encode (.sbar a) = wZ 18 0 a 0 12 := rfl
@[simp] theorem encode_ifence : encode .ifence = wZ 18 0 0 0 13 := rfl
@[simp] theorem encode_tlbinvAll (a : BitVec 5) (r : BitVec 1) :
    encode (.tlbinvAll a r) = wZ 18 0 a (0#9 ++ r ++ 0#2) 14 := rfl
@[simp] theorem encode_tlbinvPage (a : BitVec 5) (r : BitVec 1) :
    encode (.tlbinvPage a r) = wZ 18 0 a (0#9 ++ r ++ 1#2) 14 := rfl
@[simp] theorem encode_tlbinvContext (a : BitVec 5) (r : BitVec 1) :
    encode (.tlbinvContext a r) = wZ 18 0 a (0#9 ++ r ++ 2#2) 14 := rfl
@[simp] theorem encode_atadd (d a b : BitVec 5) (f g : BitVec 1) (o : BitVec 2) (s : BitVec 3) :
    encode (.atadd d a b f g o s) = wA 19 d a b f g (0#4 ++ o ++ s) := rfl
@[simp] theorem encode_atswp (d a b : BitVec 5) (f g : BitVec 1) (o : BitVec 2) (s : BitVec 3) :
    encode (.atswp d a b f g o s) = wA 19 d a b f g (1#4 ++ o ++ s) := rfl
@[simp] theorem encode_atcas (d a b : BitVec 5) (f g : BitVec 1) (o : BitVec 2) (s : BitVec 3) :
    encode (.atcas d a b f g o s) = wA 19 d a b f g (2#4 ++ o ++ s) := rfl
@[simp] theorem encode_atmin (d a b : BitVec 5) (f g : BitVec 1) (o : BitVec 2) (s : BitVec 3) :
    encode (.atmin d a b f g o s) = wA 19 d a b f g (3#4 ++ o ++ s) := rfl
@[simp] theorem encode_atmax (d a b : BitVec 5) (f g : BitVec 1) (o : BitVec 2) (s : BitVec 3) :
    encode (.atmax d a b f g o s) = wA 19 d a b f g (4#4 ++ o ++ s) := rfl
@[simp] theorem encode_atminn (d a b : BitVec 5) (f g : BitVec 1) (o : BitVec 2) (s : BitVec 3) :
    encode (.atminn d a b f g o s) = wA 19 d a b f g (5#4 ++ o ++ s) := rfl
@[simp] theorem encode_atmaxn (d a b : BitVec 5) (f g : BitVec 1) (o : BitVec 2) (s : BitVec 3) :
    encode (.atmaxn d a b f g o s) = wA 19 d a b f g (6#4 ++ o ++ s) := rfl
@[simp] theorem encode_atand (d a b : BitVec 5) (f g : BitVec 1) (o : BitVec 2) (s : BitVec 3) :
    encode (.atand d a b f g o s) = wA 19 d a b f g (7#4 ++ o ++ s) := rfl
@[simp] theorem encode_ator (d a b : BitVec 5) (f g : BitVec 1) (o : BitVec 2) (s : BitVec 3) :
    encode (.ator d a b f g o s) = wA 19 d a b f g (8#4 ++ o ++ s) := rfl
@[simp] theorem encode_atxor (d a b : BitVec 5) (f g : BitVec 1) (o : BitVec 2) (s : BitVec 3) :
    encode (.atxor d a b f g o s) = wA 19 d a b f g (9#4 ++ o ++ s) := rfl
@[simp] theorem encode_redadd (a b : BitVec 5) (f g o : BitVec 1) (s : BitVec 3) :
    encode (.redadd a b f g o s) = wA 19 0 a b f g (10#4 ++ o ++ 0#1 ++ s) := rfl
@[simp] theorem encode_redmin (a b : BitVec 5) (f g o : BitVec 1) (s : BitVec 3) :
    encode (.redmin a b f g o s) = wA 19 0 a b f g (11#4 ++ o ++ 0#1 ++ s) := rfl
@[simp] theorem encode_redmax (a b : BitVec 5) (f g o : BitVec 1) (s : BitVec 3) :
    encode (.redmax a b f g o s) = wA 19 0 a b f g (12#4 ++ o ++ 0#1 ++ s) := rfl
@[simp] theorem encode_lda (d a : BitVec 5) (f : BitVec 1) (s : BitVec 3) :
    encode (.lda d a f s) = wA 19 d a 0 f 0 (53#6 ++ s) := rfl
@[simp] theorem encode_stl (a b : BitVec 5) (f g : BitVec 1) (s : BitVec 3) :
    encode (.stl a b f g s) = wA 19 0 a b f g (58#6 ++ s) := rfl
@[simp] theorem encode_sytas (d a : BitVec 5) (f : BitVec 1) : encode (.sytas d a f) = wA 20 d a 0 f 0 0 := rfl
@[simp] theorem encode_syfadd (d a b : BitVec 5) (f g : BitVec 1) :
    encode (.syfadd d a b f g) = wA 20 d a b f g 1 := rfl
@[simp] theorem encode_syrd (d a : BitVec 5) (f : BitVec 1) : encode (.syrd d a f) = wA 20 d a 0 f 0 2 := rfl
@[simp] theorem encode_sywr (a b : BitVec 5) (f g : BitVec 1) : encode (.sywr a b f g) = wA 20 0 a b f g 3 := rfl
@[simp] theorem encode_sywait (a b : BitVec 5) (f g : BitVec 1) : encode (.sywait a b f g) = wA 20 0 a b f g 4 := rfl
@[simp] theorem encode_ldff (d a : BitVec 5) (f : BitVec 1) (o : BitVec 12) :
    encode (.ldff d a f o) = wM 21 d a f 0 o := rfl
@[simp] theorem encode_ldfe (d a : BitVec 5) (f : BitVec 1) (o : BitVec 12) :
    encode (.ldfe d a f o) = wM 21 d a f 1 o := rfl
@[simp] theorem encode_stef (s a : BitVec 5) (f : BitVec 1) (o : BitVec 12) :
    encode (.stef s a f o) = wM 21 s a f 2 o := rfl
@[simp] theorem encode_stff (s a : BitVec 5) (f : BitVec 1) (o : BitVec 12) :
    encode (.stff s a f o) = wM 21 s a f 3 o := rfl
@[simp] theorem encode_feclr (a : BitVec 5) (f : BitVec 1) (o : BitVec 12) :
    encode (.feclr a f o) = wM 21 0 a f 4 o := rfl
@[simp] theorem encode_feq (d a : BitVec 5) (f : BitVec 1) (o : BitVec 12) :
    encode (.feq d a f o) = wM 21 d a f 5 o := rfl
@[simp] theorem encode_vrld (d a b : BitVec 5) (f g : BitVec 1) : encode (.vrld d a b f g) = wA 22 d a b f g 0 := rfl
@[simp] theorem encode_vrldle (d : BitVec 4) (a b : BitVec 5) (f g : BitVec 1) :
    encode (.vrldle d a b f g) = wA 22 (d ++ 0#1) a b f g 1 := rfl
@[simp] theorem encode_vrst (d a b : BitVec 5) (f g : BitVec 1) : encode (.vrst d a b f g) = wA 22 d a b f g 2 := rfl
@[simp] theorem encode_vrfloor (a b : BitVec 5) (f g : BitVec 1) :
    encode (.vrfloor a b f g) = wA 22 0 a b f g 3 := rfl
@[simp] theorem encode_vrtop (d a : BitVec 5) (f : BitVec 1) : encode (.vrtop d a f) = wA 22 d a 0 f 0 4 := rfl
@[simp] theorem encode_vrpoll (d a b : BitVec 5) (f g : BitVec 1) :
    encode (.vrpoll d a b f g) = wA 22 d a b f g 5 := rfl
@[simp] theorem encode_qpush (q : BitVec 2) (s : BitVec 5) : encode (.qpush q s) = wQ 23 (0#3 ++ q) s 0 0 := rfl
@[simp] theorem encode_qpop (d : BitVec 5) (q : BitVec 2) : encode (.qpop d q) = wQ 23 d (0#3 ++ q) 0 1 := rfl
@[simp] theorem encode_spbind (n : BitVec 4) (a : BitVec 5) : encode (.spbind n a) = wQ 23 (0#1 ++ n) a 0 2 := rfl
@[simp] theorem encode_spunb (n : BitVec 4) : encode (.spunb n) = wQ 23 (0#1 ++ n) 0 0 3 := rfl
@[simp] theorem encode_spdrain (n : BitVec 4) : encode (.spdrain n) = wQ 23 (0#1 ++ n) 0 0 4 := rfl
@[simp] theorem encode_spstat (d : BitVec 5) (n : BitVec 4) : encode (.spstat d n) = wQ 23 d (0#1 ++ n) 0 5 := rfl
@[simp] theorem encode_bcopy (d a : BitVec 5) : encode (.bcopy d a) = wQ 23 d a 0 6 := rfl
@[simp] theorem encode_xcopy (d a : BitVec 5) : encode (.xcopy d a) = wQ 23 d a 0 7 := rfl
@[simp] theorem encode_tenq (d a : BitVec 5) : encode (.tenq d a) = wQ 23 d a 0 8 := rfl
@[simp] theorem encode_twin (d a : BitVec 5) : encode (.twin d a) = wQ 23 d a 0 9 := rfl
@[simp] theorem encode_trel (a : BitVec 5) : encode (.trel a) = wQ 23 0 a 0 10 := rfl
@[simp] theorem encode_tcancel (a : BitVec 5) : encode (.tcancel a) = wQ 23 0 a 0 11 := rfl
@[simp] theorem encode_bwred (d a : BitVec 5) (b : BitVec 4) : encode (.bwred d a b) = wQ 23 d a (b ++ 0#1) 12 := rfl
@[simp] theorem encode_pgmig (a b : BitVec 5) : encode (.pgmig a b) = wQ 23 0 a b 13 := rfl
@[simp] theorem encode_vadd (d a b : BitVec 5) (p : BitVec 6) : encode (.vadd d a b p) = wV 24 d a b p 0 := rfl
@[simp] theorem encode_vsub (d a b : BitVec 5) (p : BitVec 6) : encode (.vsub d a b p) = wV 24 d a b p 1 := rfl
@[simp] theorem encode_vmul (d a b : BitVec 5) (p : BitVec 6) : encode (.vmul d a b p) = wV 24 d a b p 2 := rfl
@[simp] theorem encode_vmac (d a b : BitVec 5) (p : BitVec 6) : encode (.vmac d a b p) = wV 24 d a b p 3 := rfl
@[simp] theorem encode_vmsb (d a b : BitVec 5) (p : BitVec 6) : encode (.vmsb d a b p) = wV 24 d a b p 4 := rfl
@[simp] theorem encode_vssa (d a b : BitVec 5) (p : BitVec 6) : encode (.vssa d a b p) = wV 24 d a b p 5 := rfl
@[simp] theorem encode_vmin (d a b : BitVec 5) (p : BitVec 6) : encode (.vmin d a b p) = wV 24 d a b p 6 := rfl
@[simp] theorem encode_vmax (d a b : BitVec 5) (p : BitVec 6) : encode (.vmax d a b p) = wV 24 d a b p 7 := rfl
@[simp] theorem encode_vand (d a b : BitVec 5) (p : BitVec 6) : encode (.vand d a b p) = wV 24 d a b p 8 := rfl
@[simp] theorem encode_vor (d a b : BitVec 5) (p : BitVec 6) : encode (.vor d a b p) = wV 24 d a b p 9 := rfl
@[simp] theorem encode_vxor (d a b : BitVec 5) (p : BitVec 6) : encode (.vxor d a b p) = wV 24 d a b p 10 := rfl
@[simp] theorem encode_vandn (d a b : BitVec 5) (p : BitVec 6) : encode (.vandn d a b p) = wV 24 d a b p 11 := rfl
@[simp] theorem encode_vshl (d a b : BitVec 5) (p : BitVec 6) : encode (.vshl d a b p) = wV 24 d a b p 12 := rfl
@[simp] theorem encode_vshr (d a b : BitVec 5) (p : BitVec 6) : encode (.vshr d a b p) = wV 24 d a b p 13 := rfl
@[simp] theorem encode_vmulh (d a b : BitVec 5) (p : BitVec 6) : encode (.vmulh d a b p) = wV 24 d a b p 14 := rfl
@[simp] theorem encode_vsel (d a b : BitVec 5) (p : BitVec 6) : encode (.vsel d a b p) = wV 24 d a b p 15 := rfl
@[simp] theorem encode_vadds (d a b : BitVec 5) (p : BitVec 6) : encode (.vadds d a b p) = wV 25 d a b p 0 := rfl
@[simp] theorem encode_vsubs (d a b : BitVec 5) (p : BitVec 6) : encode (.vsubs d a b p) = wV 25 d a b p 1 := rfl
@[simp] theorem encode_vrsubs (d a b : BitVec 5) (p : BitVec 6) : encode (.vrsubs d a b p) = wV 25 d a b p 2 := rfl
@[simp] theorem encode_vmuls (d a b : BitVec 5) (p : BitVec 6) : encode (.vmuls d a b p) = wV 25 d a b p 3 := rfl
@[simp] theorem encode_vmacs (d a b : BitVec 5) (p : BitVec 6) : encode (.vmacs d a b p) = wV 25 d a b p 4 := rfl
@[simp] theorem encode_vmins (d a b : BitVec 5) (p : BitVec 6) : encode (.vmins d a b p) = wV 25 d a b p 5 := rfl
@[simp] theorem encode_vmaxs (d a b : BitVec 5) (p : BitVec 6) : encode (.vmaxs d a b p) = wV 25 d a b p 6 := rfl
@[simp] theorem encode_vands (d a b : BitVec 5) (p : BitVec 6) : encode (.vands d a b p) = wV 25 d a b p 7 := rfl
@[simp] theorem encode_vors (d a b : BitVec 5) (p : BitVec 6) : encode (.vors d a b p) = wV 25 d a b p 8 := rfl
@[simp] theorem encode_vxors (d a b : BitVec 5) (p : BitVec 6) : encode (.vxors d a b p) = wV 25 d a b p 9 := rfl
@[simp] theorem encode_vshls (d a b : BitVec 5) (p : BitVec 6) : encode (.vshls d a b p) = wV 25 d a b p 10 := rfl
@[simp] theorem encode_vshrs (d a b : BitVec 5) (p : BitVec 6) : encode (.vshrs d a b p) = wV 25 d a b p 11 := rfl
@[simp] theorem encode_vbcast (d b : BitVec 5) (p : BitVec 6) : encode (.vbcast d b p) = wV 25 d 0 b p 12 := rfl
@[simp] theorem encode_vrand (d a b : BitVec 5) (p : BitVec 6) : encode (.vrand d a b p) = wV 25 d a b p 13 := rfl
@[simp] theorem encode_vslup (d a b : BitVec 5) (p : BitVec 6) : encode (.vslup d a b p) = wV 25 d a b p 14 := rfl
@[simp] theorem encode_vsldn (d a b : BitVec 5) (p : BitVec 6) : encode (.vsldn d a b p) = wV 25 d a b p 15 := rfl
@[simp] theorem encode_vmov (d a : BitVec 5) (p : BitVec 6) : encode (.vmov d a p) = wV 26 d a 0 p 0 := rfl
@[simp] theorem encode_vnot (d a : BitVec 5) (p : BitVec 6) : encode (.vnot d a p) = wV 26 d a 0 p 1 := rfl
@[simp] theorem encode_vneg (d a : BitVec 5) (p : BitVec 6) : encode (.vneg d a p) = wV 26 d a 0 p 2 := rfl
@[simp] theorem encode_vabs (d a : BitVec 5) (p : BitVec 6) : encode (.vabs d a p) = wV 26 d a 0 p 3 := rfl
@[simp] theorem encode_vcvt (d a : BitVec 5) (p : BitVec 6) : encode (.vcvt d a p) = wV 26 d a 0 p 4 := rfl
@[simp] theorem encode_vsatc (d a : BitVec 5) (p : BitVec 6) : encode (.vsatc d a p) = wV 26 d a 0 p 5 := rfl
@[simp] theorem encode_vhad (d a k : BitVec 5) (p : BitVec 6) : encode (.vhad d a k p) = wV 26 d a k p 6 := rfl
@[simp] theorem encode_vidx (d : BitVec 5) (s t : BitVec 8) : encode (.vidx d s t) = wVX 27 d s t 0 := rfl
@[simp] theorem encode_vceq (d : BitVec 6) (a b : BitVec 5) (p : BitVec 6) :
    encode (.vceq d a b p) = wVC 28 d a b p 0 := rfl
@[simp] theorem encode_vcne (d : BitVec 6) (a b : BitVec 5) (p : BitVec 6) :
    encode (.vcne d a b p) = wVC 28 d a b p 1 := rfl
@[simp] theorem encode_vclt (d : BitVec 6) (a b : BitVec 5) (p : BitVec 6) :
    encode (.vclt d a b p) = wVC 28 d a b p 2 := rfl
@[simp] theorem encode_vcle (d : BitVec 6) (a b : BitVec 5) (p : BitVec 6) :
    encode (.vcle d a b p) = wVC 28 d a b p 3 := rfl
@[simp] theorem encode_vceqs (d : BitVec 6) (a b : BitVec 5) (p : BitVec 6) :
    encode (.vceqs d a b p) = wVC 28 d a b p 4 := rfl
@[simp] theorem encode_vcnes (d : BitVec 6) (a b : BitVec 5) (p : BitVec 6) :
    encode (.vcnes d a b p) = wVC 28 d a b p 5 := rfl
@[simp] theorem encode_vclts (d : BitVec 6) (a b : BitVec 5) (p : BitVec 6) :
    encode (.vclts d a b p) = wVC 28 d a b p 6 := rfl
@[simp] theorem encode_vcles (d : BitVec 6) (a b : BitVec 5) (p : BitVec 6) :
    encode (.vcles d a b p) = wVC 28 d a b p 7 := rfl
@[simp] theorem encode_vcgts (d : BitVec 6) (a b : BitVec 5) (p : BitVec 6) :
    encode (.vcgts d a b p) = wVC 28 d a b p 8 := rfl
@[simp] theorem encode_vcges (d : BitVec 6) (a b : BitVec 5) (p : BitVec 6) :
    encode (.vcges d a b p) = wVC 28 d a b p 9 := rfl
@[simp] theorem encode_vtst (d : BitVec 6) (a b : BitVec 5) (p : BitVec 6) :
    encode (.vtst d a b p) = wVC 28 d a b p 10 := rfl
@[simp] theorem encode_fceq (d : BitVec 6) (a b : BitVec 5) (p : BitVec 6) :
    encode (.fceq d a b p) = wVC 28 d a b p 11 := rfl
@[simp] theorem encode_fclt (d : BitVec 6) (a b : BitVec 5) (p : BitVec 6) :
    encode (.fclt d a b p) = wVC 28 d a b p 12 := rfl
@[simp] theorem encode_fcle (d : BitVec 6) (a b : BitVec 5) (p : BitVec 6) :
    encode (.fcle d a b p) = wVC 28 d a b p 13 := rfl
@[simp] theorem encode_fcun (d : BitVec 6) (a b : BitVec 5) (p : BitVec 6) :
    encode (.fcun d a b p) = wVC 28 d a b p 14 := rfl
@[simp] theorem encode_pand (d a b : BitVec 6) : encode (.pand d a b) = wP 29 d a b 0 := rfl
@[simp] theorem encode_por (d a b : BitVec 6) : encode (.por d a b) = wP 29 d a b 1 := rfl
@[simp] theorem encode_pxor (d a b : BitVec 6) : encode (.pxor d a b) = wP 29 d a b 2 := rfl
@[simp] theorem encode_pandn (d a b : BitVec 6) : encode (.pandn d a b) = wP 29 d a b 3 := rfl
@[simp] theorem encode_pnot (d a : BitVec 6) : encode (.pnot d a) = wP 29 d a 0 4 := rfl
@[simp] theorem encode_pmov (d a : BitVec 6) : encode (.pmov d a) = wP 29 d a 0 5 := rfl
@[simp] theorem encode_pall (d : BitVec 6) : encode (.pall d) = wP 29 d 0 0 6 := rfl
@[simp] theorem encode_pclr (d : BitVec 6) : encode (.pclr d) = wP 29 d 0 0 7 := rfl
@[simp] theorem encode_pcnt (d : BitVec 5) (a : BitVec 6) : encode (.pcnt d a) = wP 29 (d ++ 0#1) a 0 8 := rfl
@[simp] theorem encode_pffs (d : BitVec 5) (a : BitVec 6) : encode (.pffs d a) = wP 29 (d ++ 0#1) a 0 9 := rfl
@[simp] theorem encode_pfilt (d a b : BitVec 6) : encode (.pfilt d a b) = wP 29 d a b 10 := rfl
@[simp] theorem encode_mpush (a : BitVec 6) : encode (.mpush a) = wP 29 0 a 0 11 := rfl
@[simp] theorem encode_minv : encode .minv = wP 29 0 0 0 12 := rfl
@[simp] theorem encode_mpop : encode .mpop = wP 29 0 0 0 13 := rfl
@[simp] theorem encode_mtop (d : BitVec 6) : encode (.mtop d) = wP 29 d 0 0 14 := rfl
@[simp] theorem encode_seamrd (d : BitVec 6) : encode (.seamrd d) = wP 29 d 0 0 15 := rfl
@[simp] theorem encode_seamwr (a : BitVec 6) : encode (.seamwr a) = wP 29 0 a 0 16 := rfl
@[simp] theorem encode_vredsum (d a b : BitVec 5) (p : BitVec 6) : encode (.vredsum d a b p) = wV 30 d a b p 0 := rfl
@[simp] theorem encode_vredmin (d a b : BitVec 5) (p : BitVec 6) : encode (.vredmin d a b p) = wV 30 d a b p 1 := rfl
@[simp] theorem encode_vredmax (d a b : BitVec 5) (p : BitVec 6) : encode (.vredmax d a b p) = wV 30 d a b p 2 := rfl
@[simp] theorem encode_vredand (d a b : BitVec 5) (p : BitVec 6) : encode (.vredand d a b p) = wV 30 d a b p 3 := rfl
@[simp] theorem encode_vredor (d a b : BitVec 5) (p : BitVec 6) : encode (.vredor d a b p) = wV 30 d a b p 4 := rfl
@[simp] theorem encode_vargmax (d a b : BitVec 5) (p : BitVec 6) : encode (.vargmax d a b p) = wV 30 d a b p 5 := rfl
@[simp] theorem encode_vargmin (d a b : BitVec 5) (p : BitVec 6) : encode (.vargmin d a b p) = wV 30 d a b p 6 := rfl
@[simp] theorem encode_fredsum (d a b : BitVec 5) (p : BitVec 6) : encode (.fredsum d a b p) = wV 30 d a b p 7 := rfl
@[simp] theorem encode_fredmax (d a b : BitVec 5) (p : BitVec 6) : encode (.fredmax d a b p) = wV 30 d a b p 8 := rfl
@[simp] theorem encode_fargmax (d a b : BitVec 5) (p : BitVec 6) : encode (.fargmax d a b p) = wV 30 d a b p 9 := rfl
@[simp] theorem encode_vscansum (d a : BitVec 5) (p : BitVec 6) : encode (.vscansum d a p) = wV 31 d a 0 p 0 := rfl
@[simp] theorem encode_vscanmax (d a : BitVec 5) (p : BitVec 6) : encode (.vscanmax d a p) = wV 31 d a 0 p 1 := rfl
@[simp] theorem encode_vscanmin (d a : BitVec 5) (p : BitVec 6) : encode (.vscanmin d a p) = wV 31 d a 0 p 2 := rfl
@[simp] theorem encode_fscansum (d a : BitVec 5) (p : BitVec 6) : encode (.fscansum d a p) = wV 31 d a 0 p 3 := rfl
@[simp] theorem encode_vcompress (d a : BitVec 5) (p : BitVec 6) : encode (.vcompress d a p) = wV 31 d a 0 p 4 := rfl
@[simp] theorem encode_vexpand (d a : BitVec 5) (p : BitVec 6) : encode (.vexpand d a p) = wV 31 d a 0 p 5 := rfl
@[simp] theorem encode_vperm (d a b : BitVec 5) (p : BitVec 6) : encode (.vperm d a b p) = wV 31 d a b p 6 := rfl
@[simp] theorem encode_fadd (d a b : BitVec 5) (p : BitVec 6) : encode (.fadd d a b p) = wV 32 d a b p 0 := rfl
@[simp] theorem encode_fsub (d a b : BitVec 5) (p : BitVec 6) : encode (.fsub d a b p) = wV 32 d a b p 1 := rfl
@[simp] theorem encode_fmul (d a b : BitVec 5) (p : BitVec 6) : encode (.fmul d a b p) = wV 32 d a b p 2 := rfl
@[simp] theorem encode_fma (d a b : BitVec 5) (p : BitVec 6) : encode (.fma d a b p) = wV 32 d a b p 3 := rfl
@[simp] theorem encode_fmin (d a b : BitVec 5) (p : BitVec 6) : encode (.fmin d a b p) = wV 32 d a b p 4 := rfl
@[simp] theorem encode_fmax (d a b : BitVec 5) (p : BitVec 6) : encode (.fmax d a b p) = wV 32 d a b p 5 := rfl
@[simp] theorem encode_fabs (d a : BitVec 5) (p : BitVec 6) : encode (.fabs d a p) = wV 32 d a 0 p 6 := rfl
@[simp] theorem encode_fneg (d a : BitVec 5) (p : BitVec 6) : encode (.fneg d a p) = wV 32 d a 0 p 7 := rfl
@[simp] theorem encode_fcvt (d a : BitVec 5) (p : BitVec 6) : encode (.fcvt d a p) = wV 32 d a 0 p 8 := rfl
@[simp] theorem encode_fcvti (d a : BitVec 5) (p : BitVec 6) : encode (.fcvti d a p) = wV 32 d a 0 p 9 := rfl
@[simp] theorem encode_fcvtf (d a : BitVec 5) (p : BitVec 6) : encode (.fcvtf d a p) = wV 32 d a 0 p 10 := rfl
@[simp] theorem encode_fexp2 (d a : BitVec 5) (p : BitVec 6) : encode (.fexp2 d a p) = wV 32 d a 0 p 11 := rfl
@[simp] theorem encode_frcp (d a : BitVec 5) (p : BitVec 6) : encode (.frcp d a p) = wV 32 d a 0 p 12 := rfl
@[simp] theorem encode_fscl (d a b : BitVec 5) (p : BitVec 6) : encode (.fscl d a b p) = wV 32 d a b p 13 := rfl
@[simp] theorem encode_mxscl (d a : BitVec 5) (p : BitVec 6) : encode (.mxscl d a p) = wV 33 d a 0 p 0 := rfl
@[simp] theorem encode_mxqnt (d a : BitVec 5) (p : BitVec 6) : encode (.mxqnt d a p) = wV 33 d a 0 p 1 := rfl
@[simp] theorem encode_mxbdot (d a b : BitVec 5) (p : BitVec 6) : encode (.mxbdot d a b p) = wV 33 d a b p 2 := rfl
@[simp] theorem encode_emov (e f : BitVec 4) : encode (.emov e f) = wV 33 (0#1 ++ e) (0#1 ++ f) 0 0 3 := rfl
@[simp] theorem encode_vqnt (d a : BitVec 5) (p : BitVec 6) : encode (.vqnt d a p) = wV 33 d a 0 p 4 := rfl
@[simp] theorem encode_vld (d a : BitVec 5) (p : BitVec 6) : encode (.vld d a p) = wV 34 d a 0 p 0 := rfl
@[simp] theorem encode_vst (s a : BitVec 5) (p : BitVec 6) : encode (.vst s a p) = wV 34 s a 0 p 1 := rfl
@[simp] theorem encode_vlds (d a b : BitVec 5) (p : BitVec 6) : encode (.vlds d a b p) = wV 34 d a b p 2 := rfl
@[simp] theorem encode_vsts (s a b : BitVec 5) (p : BitVec 6) : encode (.vsts s a b p) = wV 34 s a b p 3 := rfl
@[simp] theorem encode_vldx (d a b : BitVec 5) (p : BitVec 6) : encode (.vldx d a b p) = wV 34 d a b p 4 := rfl
@[simp] theorem encode_vstx (s a b : BitVec 5) (p : BitVec 6) : encode (.vstx s a b p) = wV 34 s a b p 5 := rfl
@[simp] theorem encode_vldl (d a : BitVec 5) (p : BitVec 6) : encode (.vldl d a p) = wV 34 d a 0 p 6 := rfl
@[simp] theorem encode_vstl (s a : BitVec 5) (p : BitVec 6) : encode (.vstl s a p) = wV 34 s a 0 p 7 := rfl
@[simp] theorem encode_pld (a : BitVec 5) (p : BitVec 6) : encode (.pld a p) = wV 34 0 a 0 p 8 := rfl
@[simp] theorem encode_pst (a : BitVec 5) (p : BitVec 6) : encode (.pst a p) = wV 34 0 a 0 p 9 := rfl
@[simp] theorem encode_mxld (d a : BitVec 5) (e : BitVec 4) (p : BitVec 6) :
    encode (.mxld d a e p) = wV 34 d a (0#1 ++ e) p 10 := rfl
@[simp] theorem encode_mxst (s a : BitVec 5) (e : BitVec 4) (p : BitVec 6) :
    encode (.mxst s a e p) = wV 34 s a (0#1 ++ e) p 11 := rfl
@[simp] theorem encode_vvrld (d a b : BitVec 5) (p : BitVec 6) : encode (.vvrld d a b p) = wV 34 d a b p 12 := rfl
@[simp] theorem encode_vvrst (s a b : BitVec 5) (p : BitVec 6) : encode (.vvrst s a b p) = wV 34 s a b p 13 := rfl
@[simp] theorem encode_setvlx (d a : BitVec 5) (o : BitVec 16) : encode (.setvlx d a o) = wSV 35 d a o := rfl
@[simp] theorem encode_setvl (d a : BitVec 5) : encode (.setvl d a) = wZ 36 d a 0 0 := rfl
@[simp] theorem encode_setvlf (d a : BitVec 5) : encode (.setvlf d a) = wZ 36 d a 0 1 := rfl
@[simp] theorem encode_vkill (a : BitVec 5) : encode (.vkill a) = wZ 36 0 a 0 2 := rfl
@[simp] theorem encode_setew (a b : BitVec 4) (d : BitVec 5) (x y z : BitVec 1) :
    encode (.setew a b d x y z) = wEW 37 a b d x y z := rfl
@[simp] theorem encode_pgclr (t : BitVec 2) : encode (.pgclr t) = wPG 38 0 0 0 t 0 := rfl
@[simp] theorem encode_pgadd (d a b : BitVec 5) (t : BitVec 2) :
    encode (.pgadd d a b t) = wPG 38 (0#1 ++ d) a b t 1 := rfl
@[simp] theorem encode_pganc (d : BitVec 6) (a b : BitVec 5) (t : BitVec 2) :
    encode (.pganc d a b t) = wPG 38 d a b t 2 := rfl
@[simp] theorem encode_pgpos (d a : BitVec 5) (t : BitVec 2) :
    encode (.pgpos d a t) = wPG 38 (0#1 ++ d) a 0 t 3 := rfl
@[simp] theorem encode_pgpath (d a : BitVec 5) (t : BitVec 2) :
    encode (.pgpath d a t) = wPG 38 (0#1 ++ d) a 0 t 4 := rfl
@[simp] theorem encode_pgprune (d a b : BitVec 5) (t : BitVec 2) :
    encode (.pgprune d a b t) = wPG 38 (0#1 ++ d) a b t 5 := rfl
@[simp] theorem encode_pgrd (d a c : BitVec 5) (t : BitVec 2) :
    encode (.pgrd d a c t) = wPG 38 (0#1 ++ d) a c t 6 := rfl
@[simp] theorem encode_pgcnt (d a b : BitVec 5) (t : BitVec 2) :
    encode (.pgcnt d a b t) = wPG 38 (0#1 ++ d) a b t 7 := rfl
@[simp] theorem encode_pgsize (d : BitVec 5) (t : BitVec 2) : encode (.pgsize d t) = wPG 38 (0#1 ++ d) 0 0 t 8 := rfl
@[simp] theorem encode_split (n : BitVec 5) : encode (.split n) = wQ 39 n 0 0 0 := rfl
@[simp] theorem encode_join : encode .join = wQ 39 0 0 0 1 := rfl
@[simp] theorem encode_mtid (d : BitVec 5) : encode (.mtid d) = wQ 39 d 0 0 2 := rfl
@[simp] theorem encode_pfx (p : BitVec 6) (i : BitVec 1) (v : BitVec 5) (c e l u : BitVec 1) :
    encode (.pfx p i v c e l u) = wX 40 p i v c e l u := rfl

end Sys2Proof.Machine
end

