-- ==== Sys2Proof/Laws/State.lean ====
section
/-! SUPPORT. Sys2Proof/Laws/State.lean: what each named update of the state leaves in each field, so that no proof unfolds
a record update. -/

namespace Sys2Proof.Machine


/-! ## State.setHart -/

@[simp] theorem State.setHart_gts (s : State) (h : Hart) : (s.setHart h).gts = s.gts := rfl
@[simp] theorem State.setHart_agenda (s : State) (h : Hart) : (s.setHart h).agenda = s.agenda := rfl
@[simp] theorem State.setHart_loc (s : State) (h : Hart) : (s.setHart h).loc = s.loc := rfl
@[simp] theorem State.setHart_who (s : State) (h : Hart) : (s.setHart h).who = s.who := rfl
@[simp] theorem State.setHart_free (s : State) (h : Hart) : (s.setHart h).free = s.free := rfl
@[simp] theorem State.setHart_auto (s : State) (h : Hart) : (s.setHart h).auto = s.auto := rfl
@[simp] theorem State.setHart_others (s : State) (h : Hart) : (s.setHart h).others = s.others := rfl
@[simp] theorem State.setHart_mem (s : State) (h : Hart) : (s.setHart h).mem = s.mem := rfl
@[simp] theorem State.setHart_poison (s : State) (h : Hart) : (s.setHart h).poison = s.poison := rfl
@[simp] theorem State.setHart_dies (s : State) (h : Hart) : (s.setHart h).dies = s.dies := rfl
@[simp] theorem State.setHart_regions (s : State) (h : Hart) : (s.setHart h).regions = s.regions := rfl
@[simp] theorem State.setHart_making (s : State) (h : Hart) : (s.setHart h).making = s.making := rfl
@[simp] theorem State.setHart_sync (s : State) (h : Hart) : (s.setHart h).sync = s.sync := rfl
@[simp] theorem State.setHart_syncUpd (s : State) (h : Hart) : (s.setHart h).syncUpd = s.syncUpd := rfl
@[simp] theorem State.setHart_mirrors (s : State) (h : Hart) : (s.setHart h).mirrors = s.mirrors := rfl
@[simp] theorem State.setHart_syncMsgs (s : State) (h : Hart) : (s.setHart h).syncMsgs = s.syncMsgs := rfl
@[simp] theorem State.setHart_queues (s : State) (h : Hart) : (s.setHart h).queues = s.queues := rfl
@[simp] theorem State.setHart_served (s : State) (h : Hart) : (s.setHart h).served = s.served := rfl
@[simp] theorem State.setHart_orders (s : State) (h : Hart) : (s.setHart h).orders = s.orders := rfl
@[simp] theorem State.setHart_ctxs (s : State) (h : Hart) : (s.setHart h).ctxs = s.ctxs := rfl
@[simp] theorem State.setHart_cmds (s : State) (h : Hart) : (s.setHart h).cmds = s.cmds := rfl
@[simp] theorem State.setHart_launches (s : State) (h : Hart) : (s.setHart h).launches = s.launches := rfl
@[simp] theorem State.setHart_teams (s : State) (h : Hart) : (s.setHart h).teams = s.teams := rfl
@[simp] theorem State.setHart_nextId (s : State) (h : Hart) : (s.setHart h).nextId = s.nextId := rfl
@[simp] theorem State.setHart_ring (s : State) (h : Hart) : (s.setHart h).ring = s.ring := rfl
@[simp] theorem State.setHart_power (s : State) (h : Hart) : (s.setHart h).power = s.power := rfl
@[simp] theorem State.setHart_mig (s : State) (h : Hart) : (s.setHart h).mig = s.mig := rfl
@[simp] theorem State.setHart_links (s : State) (h : Hart) : (s.setHart h).links = s.links := rfl
@[simp] theorem State.setHart_mgmt (s : State) (h : Hart) : (s.setHart h).mgmt = s.mgmt := rfl
@[simp] theorem State.setHart_hostLines (s : State) (h : Hart) : (s.setHart h).hostLines = s.hostLines := rfl
@[simp] theorem State.setHart_remotes (s : State) (h : Hart) : (s.setHart h).remotes = s.remotes := rfl
@[simp] theorem State.setHart_hostRead (s : State) (h : Hart) : (s.setHart h).hostRead = s.hostRead := rfl
@[simp] theorem State.setHart_starts (s : State) (h : Hart) : (s.setHart h).starts = s.starts := rfl
@[simp] theorem State.setHart_timers (s : State) (h : Hart) : (s.setHart h).timers = s.timers := rfl
@[simp] theorem State.setHart_core_resident (s : State) (h : Hart) :
    (s.setHart h).core.resident = s.core.resident := rfl
@[simp] theorem State.setHart_core_icache (s : State) (h : Hart) : (s.setHart h).core.icache = s.core.icache := rfl
@[simp] theorem State.setHart_core_l1 (s : State) (h : Hart) : (s.setHart h).core.l1 = s.core.l1 := rfl
@[simp] theorem State.setHart_core_tlb (s : State) (h : Hart) : (s.setHart h).core.tlb = s.core.tlb := rfl
@[simp] theorem State.setHart_core_bobbin (s : State) (h : Hart) : (s.setHart h).core.bobbin = s.core.bobbin := rfl
@[simp] theorem State.setHart_core_xcopy (s : State) (h : Hart) : (s.setHart h).core.xcopy = s.core.xcopy := rfl
@[simp] theorem State.setHart_core_opBuf (s : State) (h : Hart) : (s.setHart h).core.opBuf = s.core.opBuf := rfl
@[simp] theorem State.setHart_core_carry (s : State) (h : Hart) : (s.setHart h).core.carry = s.core.carry := rfl
@[simp] theorem State.setHart_core_compare (s : State) (h : Hart) : (s.setHart h).core.compare = s.core.compare := rfl
@[simp] theorem State.setHart_core_laneGroups (s : State) (h : Hart) :
    (s.setHart h).core.laneGroups = s.core.laneGroups := rfl
@[simp] theorem State.setHart_core_spareGroups (s : State) (h : Hart) :
    (s.setHart h).core.spareGroups = s.core.spareGroups := rfl
@[simp] theorem State.setHart_core_spareRows (s : State) (h : Hart) :
    (s.setHart h).core.spareRows = s.core.spareRows := rfl
@[simp] theorem State.setHart_core_failedRows (s : State) (h : Hart) :
    (s.setHart h).core.failedRows = s.core.failedRows := rfl
@[simp] theorem State.setHart_core_laneErrs (s : State) (h : Hart) :
    (s.setHart h).core.laneErrs = s.core.laneErrs := rfl
@[simp] theorem State.setHart_core_stitchErrs (s : State) (h : Hart) :
    (s.setHart h).core.stitchErrs = s.core.stitchErrs := rfl
@[simp] theorem State.setHart_core_bufErrs (s : State) (h : Hart) : (s.setHart h).core.bufErrs = s.core.bufErrs := rfl
@[simp] theorem State.setHart_core_moveErrs (s : State) (h : Hart) :
    (s.setHart h).core.moveErrs = s.core.moveErrs := rfl

/-! ## State.setThr -/

@[simp] theorem State.setThr_gts (s : State) (t : Thread) : (s.setThr t).gts = s.gts := rfl
@[simp] theorem State.setThr_agenda (s : State) (t : Thread) : (s.setThr t).agenda = s.agenda := rfl
@[simp] theorem State.setThr_loc (s : State) (t : Thread) : (s.setThr t).loc = s.loc := rfl
@[simp] theorem State.setThr_who (s : State) (t : Thread) : (s.setThr t).who = s.who := rfl
@[simp] theorem State.setThr_free (s : State) (t : Thread) : (s.setThr t).free = s.free := rfl
@[simp] theorem State.setThr_auto (s : State) (t : Thread) : (s.setThr t).auto = s.auto := rfl
@[simp] theorem State.setThr_others (s : State) (t : Thread) : (s.setThr t).others = s.others := rfl
@[simp] theorem State.setThr_mem (s : State) (t : Thread) : (s.setThr t).mem = s.mem := rfl
@[simp] theorem State.setThr_poison (s : State) (t : Thread) : (s.setThr t).poison = s.poison := rfl
@[simp] theorem State.setThr_dies (s : State) (t : Thread) : (s.setThr t).dies = s.dies := rfl
@[simp] theorem State.setThr_regions (s : State) (t : Thread) : (s.setThr t).regions = s.regions := rfl
@[simp] theorem State.setThr_making (s : State) (t : Thread) : (s.setThr t).making = s.making := rfl
@[simp] theorem State.setThr_sync (s : State) (t : Thread) : (s.setThr t).sync = s.sync := rfl
@[simp] theorem State.setThr_syncUpd (s : State) (t : Thread) : (s.setThr t).syncUpd = s.syncUpd := rfl
@[simp] theorem State.setThr_mirrors (s : State) (t : Thread) : (s.setThr t).mirrors = s.mirrors := rfl
@[simp] theorem State.setThr_syncMsgs (s : State) (t : Thread) : (s.setThr t).syncMsgs = s.syncMsgs := rfl
@[simp] theorem State.setThr_queues (s : State) (t : Thread) : (s.setThr t).queues = s.queues := rfl
@[simp] theorem State.setThr_served (s : State) (t : Thread) : (s.setThr t).served = s.served := rfl
@[simp] theorem State.setThr_orders (s : State) (t : Thread) : (s.setThr t).orders = s.orders := rfl
@[simp] theorem State.setThr_ctxs (s : State) (t : Thread) : (s.setThr t).ctxs = s.ctxs := rfl
@[simp] theorem State.setThr_cmds (s : State) (t : Thread) : (s.setThr t).cmds = s.cmds := rfl
@[simp] theorem State.setThr_launches (s : State) (t : Thread) : (s.setThr t).launches = s.launches := rfl
@[simp] theorem State.setThr_teams (s : State) (t : Thread) : (s.setThr t).teams = s.teams := rfl
@[simp] theorem State.setThr_nextId (s : State) (t : Thread) : (s.setThr t).nextId = s.nextId := rfl
@[simp] theorem State.setThr_ring (s : State) (t : Thread) : (s.setThr t).ring = s.ring := rfl
@[simp] theorem State.setThr_power (s : State) (t : Thread) : (s.setThr t).power = s.power := rfl
@[simp] theorem State.setThr_mig (s : State) (t : Thread) : (s.setThr t).mig = s.mig := rfl
@[simp] theorem State.setThr_links (s : State) (t : Thread) : (s.setThr t).links = s.links := rfl
@[simp] theorem State.setThr_mgmt (s : State) (t : Thread) : (s.setThr t).mgmt = s.mgmt := rfl
@[simp] theorem State.setThr_hostLines (s : State) (t : Thread) : (s.setThr t).hostLines = s.hostLines := rfl
@[simp] theorem State.setThr_remotes (s : State) (t : Thread) : (s.setThr t).remotes = s.remotes := rfl
@[simp] theorem State.setThr_hostRead (s : State) (t : Thread) : (s.setThr t).hostRead = s.hostRead := rfl
@[simp] theorem State.setThr_starts (s : State) (t : Thread) : (s.setThr t).starts = s.starts := rfl
@[simp] theorem State.setThr_timers (s : State) (t : Thread) : (s.setThr t).timers = s.timers := rfl
@[simp] theorem State.setThr_core_resident (s : State) (t : Thread) :
    (s.setThr t).core.resident = s.core.resident := rfl
@[simp] theorem State.setThr_core_icache (s : State) (t : Thread) : (s.setThr t).core.icache = s.core.icache := rfl
@[simp] theorem State.setThr_core_l1 (s : State) (t : Thread) : (s.setThr t).core.l1 = s.core.l1 := rfl
@[simp] theorem State.setThr_core_tlb (s : State) (t : Thread) : (s.setThr t).core.tlb = s.core.tlb := rfl
@[simp] theorem State.setThr_core_bobbin (s : State) (t : Thread) : (s.setThr t).core.bobbin = s.core.bobbin := rfl
@[simp] theorem State.setThr_core_xcopy (s : State) (t : Thread) : (s.setThr t).core.xcopy = s.core.xcopy := rfl
@[simp] theorem State.setThr_core_opBuf (s : State) (t : Thread) : (s.setThr t).core.opBuf = s.core.opBuf := rfl
@[simp] theorem State.setThr_core_carry (s : State) (t : Thread) : (s.setThr t).core.carry = s.core.carry := rfl
@[simp] theorem State.setThr_core_compare (s : State) (t : Thread) : (s.setThr t).core.compare = s.core.compare := rfl
@[simp] theorem State.setThr_core_laneGroups (s : State) (t : Thread) :
    (s.setThr t).core.laneGroups = s.core.laneGroups := rfl
@[simp] theorem State.setThr_core_spareGroups (s : State) (t : Thread) :
    (s.setThr t).core.spareGroups = s.core.spareGroups := rfl
@[simp] theorem State.setThr_core_spareRows (s : State) (t : Thread) :
    (s.setThr t).core.spareRows = s.core.spareRows := rfl
@[simp] theorem State.setThr_core_failedRows (s : State) (t : Thread) :
    (s.setThr t).core.failedRows = s.core.failedRows := rfl
@[simp] theorem State.setThr_core_laneErrs (s : State) (t : Thread) :
    (s.setThr t).core.laneErrs = s.core.laneErrs := rfl
@[simp] theorem State.setThr_core_stitchErrs (s : State) (t : Thread) :
    (s.setThr t).core.stitchErrs = s.core.stitchErrs := rfl
@[simp] theorem State.setThr_core_bufErrs (s : State) (t : Thread) : (s.setThr t).core.bufErrs = s.core.bufErrs := rfl
@[simp] theorem State.setThr_core_moveErrs (s : State) (t : Thread) :
    (s.setThr t).core.moveErrs = s.core.moveErrs := rfl

/-! ## State.setEst -/

@[simp] theorem State.setEst_gts (s : State) (x : EState) : (s.setEst x).gts = s.gts := rfl
@[simp] theorem State.setEst_agenda (s : State) (x : EState) : (s.setEst x).agenda = s.agenda := rfl
@[simp] theorem State.setEst_loc (s : State) (x : EState) : (s.setEst x).loc = s.loc := rfl
@[simp] theorem State.setEst_who (s : State) (x : EState) : (s.setEst x).who = s.who := rfl
@[simp] theorem State.setEst_free (s : State) (x : EState) : (s.setEst x).free = s.free := rfl
@[simp] theorem State.setEst_auto (s : State) (x : EState) : (s.setEst x).auto = s.auto := rfl
@[simp] theorem State.setEst_others (s : State) (x : EState) : (s.setEst x).others = s.others := rfl
@[simp] theorem State.setEst_mem (s : State) (x : EState) : (s.setEst x).mem = s.mem := rfl
@[simp] theorem State.setEst_poison (s : State) (x : EState) : (s.setEst x).poison = s.poison := rfl
@[simp] theorem State.setEst_dies (s : State) (x : EState) : (s.setEst x).dies = s.dies := rfl
@[simp] theorem State.setEst_regions (s : State) (x : EState) : (s.setEst x).regions = s.regions := rfl
@[simp] theorem State.setEst_making (s : State) (x : EState) : (s.setEst x).making = s.making := rfl
@[simp] theorem State.setEst_sync (s : State) (x : EState) : (s.setEst x).sync = s.sync := rfl
@[simp] theorem State.setEst_syncUpd (s : State) (x : EState) : (s.setEst x).syncUpd = s.syncUpd := rfl
@[simp] theorem State.setEst_mirrors (s : State) (x : EState) : (s.setEst x).mirrors = s.mirrors := rfl
@[simp] theorem State.setEst_syncMsgs (s : State) (x : EState) : (s.setEst x).syncMsgs = s.syncMsgs := rfl
@[simp] theorem State.setEst_queues (s : State) (x : EState) : (s.setEst x).queues = s.queues := rfl
@[simp] theorem State.setEst_served (s : State) (x : EState) : (s.setEst x).served = s.served := rfl
@[simp] theorem State.setEst_orders (s : State) (x : EState) : (s.setEst x).orders = s.orders := rfl
@[simp] theorem State.setEst_ctxs (s : State) (x : EState) : (s.setEst x).ctxs = s.ctxs := rfl
@[simp] theorem State.setEst_cmds (s : State) (x : EState) : (s.setEst x).cmds = s.cmds := rfl
@[simp] theorem State.setEst_launches (s : State) (x : EState) : (s.setEst x).launches = s.launches := rfl
@[simp] theorem State.setEst_teams (s : State) (x : EState) : (s.setEst x).teams = s.teams := rfl
@[simp] theorem State.setEst_nextId (s : State) (x : EState) : (s.setEst x).nextId = s.nextId := rfl
@[simp] theorem State.setEst_ring (s : State) (x : EState) : (s.setEst x).ring = s.ring := rfl
@[simp] theorem State.setEst_power (s : State) (x : EState) : (s.setEst x).power = s.power := rfl
@[simp] theorem State.setEst_mig (s : State) (x : EState) : (s.setEst x).mig = s.mig := rfl
@[simp] theorem State.setEst_links (s : State) (x : EState) : (s.setEst x).links = s.links := rfl
@[simp] theorem State.setEst_mgmt (s : State) (x : EState) : (s.setEst x).mgmt = s.mgmt := rfl
@[simp] theorem State.setEst_hostLines (s : State) (x : EState) : (s.setEst x).hostLines = s.hostLines := rfl
@[simp] theorem State.setEst_remotes (s : State) (x : EState) : (s.setEst x).remotes = s.remotes := rfl
@[simp] theorem State.setEst_hostRead (s : State) (x : EState) : (s.setEst x).hostRead = s.hostRead := rfl
@[simp] theorem State.setEst_starts (s : State) (x : EState) : (s.setEst x).starts = s.starts := rfl
@[simp] theorem State.setEst_timers (s : State) (x : EState) : (s.setEst x).timers = s.timers := rfl
@[simp] theorem State.setEst_core_resident (s : State) (x : EState) :
    (s.setEst x).core.resident = s.core.resident := rfl
@[simp] theorem State.setEst_core_icache (s : State) (x : EState) : (s.setEst x).core.icache = s.core.icache := rfl
@[simp] theorem State.setEst_core_l1 (s : State) (x : EState) : (s.setEst x).core.l1 = s.core.l1 := rfl
@[simp] theorem State.setEst_core_tlb (s : State) (x : EState) : (s.setEst x).core.tlb = s.core.tlb := rfl
@[simp] theorem State.setEst_core_bobbin (s : State) (x : EState) : (s.setEst x).core.bobbin = s.core.bobbin := rfl
@[simp] theorem State.setEst_core_xcopy (s : State) (x : EState) : (s.setEst x).core.xcopy = s.core.xcopy := rfl
@[simp] theorem State.setEst_core_opBuf (s : State) (x : EState) : (s.setEst x).core.opBuf = s.core.opBuf := rfl
@[simp] theorem State.setEst_core_carry (s : State) (x : EState) : (s.setEst x).core.carry = s.core.carry := rfl
@[simp] theorem State.setEst_core_compare (s : State) (x : EState) : (s.setEst x).core.compare = s.core.compare := rfl
@[simp] theorem State.setEst_core_laneGroups (s : State) (x : EState) :
    (s.setEst x).core.laneGroups = s.core.laneGroups := rfl
@[simp] theorem State.setEst_core_spareGroups (s : State) (x : EState) :
    (s.setEst x).core.spareGroups = s.core.spareGroups := rfl
@[simp] theorem State.setEst_core_spareRows (s : State) (x : EState) :
    (s.setEst x).core.spareRows = s.core.spareRows := rfl
@[simp] theorem State.setEst_core_failedRows (s : State) (x : EState) :
    (s.setEst x).core.failedRows = s.core.failedRows := rfl
@[simp] theorem State.setEst_core_laneErrs (s : State) (x : EState) :
    (s.setEst x).core.laneErrs = s.core.laneErrs := rfl
@[simp] theorem State.setEst_core_stitchErrs (s : State) (x : EState) :
    (s.setEst x).core.stitchErrs = s.core.stitchErrs := rfl
@[simp] theorem State.setEst_core_bufErrs (s : State) (x : EState) : (s.setEst x).core.bufErrs = s.core.bufErrs := rfl
@[simp] theorem State.setEst_core_moveErrs (s : State) (x : EState) :
    (s.setEst x).core.moveErrs = s.core.moveErrs := rfl
@[simp] theorem State.setHart_core_hart (s : State) (h : Hart) : (s.setHart h).core.hart = h := rfl
@[simp] theorem State.setThr_core_hart (s : State) (t : Thread) :
    (s.setThr t).core.hart = s.core.hart.setThr t s.who := rfl
@[simp] theorem State.setEst_core_hart (s : State) (x : EState) :
    (s.setEst x).core.hart = s.core.hart.setEst x s.who := rfl
@[simp] theorem State.setHart_setHart (s : State) (h k : Hart) : (s.setHart h).setHart k = s.setHart k := rfl

/-! ## State.physStore -/

@[simp] theorem State.physStore_gts (s : State) (a : Nat) (bs : List Byte) : (s.physStore a bs).gts = s.gts := rfl
@[simp] theorem State.physStore_agenda (s : State) (a : Nat) (bs : List Byte) :
    (s.physStore a bs).agenda = s.agenda := rfl
@[simp] theorem State.physStore_loc (s : State) (a : Nat) (bs : List Byte) : (s.physStore a bs).loc = s.loc := rfl
@[simp] theorem State.physStore_who (s : State) (a : Nat) (bs : List Byte) : (s.physStore a bs).who = s.who := rfl
@[simp] theorem State.physStore_free (s : State) (a : Nat) (bs : List Byte) : (s.physStore a bs).free = s.free := rfl
@[simp] theorem State.physStore_auto (s : State) (a : Nat) (bs : List Byte) : (s.physStore a bs).auto = s.auto := rfl
@[simp] theorem State.physStore_core (s : State) (a : Nat) (bs : List Byte) : (s.physStore a bs).core = s.core := rfl
@[simp] theorem State.physStore_others (s : State) (a : Nat) (bs : List Byte) :
    (s.physStore a bs).others = s.others := rfl
@[simp] theorem State.physStore_dies (s : State) (a : Nat) (bs : List Byte) : (s.physStore a bs).dies = s.dies := rfl
@[simp] theorem State.physStore_regions (s : State) (a : Nat) (bs : List Byte) :
    (s.physStore a bs).regions = s.regions := rfl
@[simp] theorem State.physStore_making (s : State) (a : Nat) (bs : List Byte) :
    (s.physStore a bs).making = s.making := rfl
@[simp] theorem State.physStore_sync (s : State) (a : Nat) (bs : List Byte) : (s.physStore a bs).sync = s.sync := rfl
@[simp] theorem State.physStore_syncUpd (s : State) (a : Nat) (bs : List Byte) :
    (s.physStore a bs).syncUpd = s.syncUpd := rfl
@[simp] theorem State.physStore_mirrors (s : State) (a : Nat) (bs : List Byte) :
    (s.physStore a bs).mirrors = s.mirrors := rfl
@[simp] theorem State.physStore_syncMsgs (s : State) (a : Nat) (bs : List Byte) :
    (s.physStore a bs).syncMsgs = s.syncMsgs := rfl
@[simp] theorem State.physStore_queues (s : State) (a : Nat) (bs : List Byte) :
    (s.physStore a bs).queues = s.queues := rfl
@[simp] theorem State.physStore_served (s : State) (a : Nat) (bs : List Byte) :
    (s.physStore a bs).served = s.served := rfl
@[simp] theorem State.physStore_orders (s : State) (a : Nat) (bs : List Byte) :
    (s.physStore a bs).orders = s.orders := rfl
@[simp] theorem State.physStore_ctxs (s : State) (a : Nat) (bs : List Byte) : (s.physStore a bs).ctxs = s.ctxs := rfl
@[simp] theorem State.physStore_cmds (s : State) (a : Nat) (bs : List Byte) : (s.physStore a bs).cmds = s.cmds := rfl
@[simp] theorem State.physStore_launches (s : State) (a : Nat) (bs : List Byte) :
    (s.physStore a bs).launches = s.launches := rfl
@[simp] theorem State.physStore_teams (s : State) (a : Nat) (bs : List Byte) :
    (s.physStore a bs).teams = s.teams := rfl
@[simp] theorem State.physStore_nextId (s : State) (a : Nat) (bs : List Byte) :
    (s.physStore a bs).nextId = s.nextId := rfl
@[simp] theorem State.physStore_ring (s : State) (a : Nat) (bs : List Byte) : (s.physStore a bs).ring = s.ring := rfl
@[simp] theorem State.physStore_power (s : State) (a : Nat) (bs : List Byte) :
    (s.physStore a bs).power = s.power := rfl
@[simp] theorem State.physStore_mig (s : State) (a : Nat) (bs : List Byte) : (s.physStore a bs).mig = s.mig := rfl
@[simp] theorem State.physStore_links (s : State) (a : Nat) (bs : List Byte) :
    (s.physStore a bs).links = s.links := rfl
@[simp] theorem State.physStore_mgmt (s : State) (a : Nat) (bs : List Byte) : (s.physStore a bs).mgmt = s.mgmt := rfl
@[simp] theorem State.physStore_hostLines (s : State) (a : Nat) (bs : List Byte) :
    (s.physStore a bs).hostLines = s.hostLines := rfl
@[simp] theorem State.physStore_remotes (s : State) (a : Nat) (bs : List Byte) :
    (s.physStore a bs).remotes = s.remotes := rfl
@[simp] theorem State.physStore_hostRead (s : State) (a : Nat) (bs : List Byte) :
    (s.physStore a bs).hostRead = s.hostRead := rfl
@[simp] theorem State.physStore_starts (s : State) (a : Nat) (bs : List Byte) :
    (s.physStore a bs).starts = s.starts := rfl
@[simp] theorem State.physStore_timers (s : State) (a : Nat) (bs : List Byte) :
    (s.physStore a bs).timers = s.timers := rfl

/-! ## State.recall -/

@[simp] theorem State.recall_gts (s : State) (c : Option CoreId) (ls : List Nat) : (s.recall c ls).gts = s.gts := rfl
@[simp] theorem State.recall_agenda (s : State) (c : Option CoreId) (ls : List Nat) :
    (s.recall c ls).agenda = s.agenda := rfl
@[simp] theorem State.recall_loc (s : State) (c : Option CoreId) (ls : List Nat) : (s.recall c ls).loc = s.loc := rfl
@[simp] theorem State.recall_who (s : State) (c : Option CoreId) (ls : List Nat) : (s.recall c ls).who = s.who := rfl
@[simp] theorem State.recall_free (s : State) (c : Option CoreId) (ls : List Nat) :
    (s.recall c ls).free = s.free := rfl
@[simp] theorem State.recall_auto (s : State) (c : Option CoreId) (ls : List Nat) :
    (s.recall c ls).auto = s.auto := rfl
@[simp] theorem State.recall_mem (s : State) (c : Option CoreId) (ls : List Nat) : (s.recall c ls).mem = s.mem := rfl
@[simp] theorem State.recall_poison (s : State) (c : Option CoreId) (ls : List Nat) :
    (s.recall c ls).poison = s.poison := rfl
@[simp] theorem State.recall_dies (s : State) (c : Option CoreId) (ls : List Nat) :
    (s.recall c ls).dies = s.dies := rfl
@[simp] theorem State.recall_regions (s : State) (c : Option CoreId) (ls : List Nat) :
    (s.recall c ls).regions = s.regions := rfl
@[simp] theorem State.recall_making (s : State) (c : Option CoreId) (ls : List Nat) :
    (s.recall c ls).making = s.making := rfl
@[simp] theorem State.recall_sync (s : State) (c : Option CoreId) (ls : List Nat) :
    (s.recall c ls).sync = s.sync := rfl
@[simp] theorem State.recall_syncUpd (s : State) (c : Option CoreId) (ls : List Nat) :
    (s.recall c ls).syncUpd = s.syncUpd := rfl
@[simp] theorem State.recall_mirrors (s : State) (c : Option CoreId) (ls : List Nat) :
    (s.recall c ls).mirrors = s.mirrors := rfl
@[simp] theorem State.recall_syncMsgs (s : State) (c : Option CoreId) (ls : List Nat) :
    (s.recall c ls).syncMsgs = s.syncMsgs := rfl
@[simp] theorem State.recall_queues (s : State) (c : Option CoreId) (ls : List Nat) :
    (s.recall c ls).queues = s.queues := rfl
@[simp] theorem State.recall_served (s : State) (c : Option CoreId) (ls : List Nat) :
    (s.recall c ls).served = s.served := rfl
@[simp] theorem State.recall_orders (s : State) (c : Option CoreId) (ls : List Nat) :
    (s.recall c ls).orders = s.orders := rfl
@[simp] theorem State.recall_ctxs (s : State) (c : Option CoreId) (ls : List Nat) :
    (s.recall c ls).ctxs = s.ctxs := rfl
@[simp] theorem State.recall_cmds (s : State) (c : Option CoreId) (ls : List Nat) :
    (s.recall c ls).cmds = s.cmds := rfl
@[simp] theorem State.recall_launches (s : State) (c : Option CoreId) (ls : List Nat) :
    (s.recall c ls).launches = s.launches := rfl
@[simp] theorem State.recall_teams (s : State) (c : Option CoreId) (ls : List Nat) :
    (s.recall c ls).teams = s.teams := rfl
@[simp] theorem State.recall_nextId (s : State) (c : Option CoreId) (ls : List Nat) :
    (s.recall c ls).nextId = s.nextId := rfl
@[simp] theorem State.recall_ring (s : State) (c : Option CoreId) (ls : List Nat) :
    (s.recall c ls).ring = s.ring := rfl
@[simp] theorem State.recall_power (s : State) (c : Option CoreId) (ls : List Nat) :
    (s.recall c ls).power = s.power := rfl
@[simp] theorem State.recall_mig (s : State) (c : Option CoreId) (ls : List Nat) : (s.recall c ls).mig = s.mig := rfl
@[simp] theorem State.recall_links (s : State) (c : Option CoreId) (ls : List Nat) :
    (s.recall c ls).links = s.links := rfl
@[simp] theorem State.recall_mgmt (s : State) (c : Option CoreId) (ls : List Nat) :
    (s.recall c ls).mgmt = s.mgmt := rfl
@[simp] theorem State.recall_hostLines (s : State) (c : Option CoreId) (ls : List Nat) :
    (s.recall c ls).hostLines = s.hostLines := rfl
@[simp] theorem State.recall_remotes (s : State) (c : Option CoreId) (ls : List Nat) :
    (s.recall c ls).remotes = s.remotes := rfl
@[simp] theorem State.recall_hostRead (s : State) (c : Option CoreId) (ls : List Nat) :
    (s.recall c ls).hostRead = s.hostRead := rfl
@[simp] theorem State.recall_starts (s : State) (c : Option CoreId) (ls : List Nat) :
    (s.recall c ls).starts = s.starts := rfl
@[simp] theorem State.recall_timers (s : State) (c : Option CoreId) (ls : List Nat) :
    (s.recall c ls).timers = s.timers := rfl

/-! ## State.clearWhole -/

@[simp] theorem State.clearWhole_gts (s : State) (xs : List (Nat × Nat)) : (s.clearWhole xs).gts = s.gts := rfl
@[simp] theorem State.clearWhole_agenda (s : State) (xs : List (Nat × Nat)) :
    (s.clearWhole xs).agenda = s.agenda := rfl
@[simp] theorem State.clearWhole_loc (s : State) (xs : List (Nat × Nat)) : (s.clearWhole xs).loc = s.loc := rfl
@[simp] theorem State.clearWhole_who (s : State) (xs : List (Nat × Nat)) : (s.clearWhole xs).who = s.who := rfl
@[simp] theorem State.clearWhole_free (s : State) (xs : List (Nat × Nat)) : (s.clearWhole xs).free = s.free := rfl
@[simp] theorem State.clearWhole_auto (s : State) (xs : List (Nat × Nat)) : (s.clearWhole xs).auto = s.auto := rfl
@[simp] theorem State.clearWhole_core (s : State) (xs : List (Nat × Nat)) : (s.clearWhole xs).core = s.core := rfl
@[simp] theorem State.clearWhole_others (s : State) (xs : List (Nat × Nat)) :
    (s.clearWhole xs).others = s.others := rfl
@[simp] theorem State.clearWhole_mem (s : State) (xs : List (Nat × Nat)) : (s.clearWhole xs).mem = s.mem := rfl
@[simp] theorem State.clearWhole_dies (s : State) (xs : List (Nat × Nat)) : (s.clearWhole xs).dies = s.dies := rfl
@[simp] theorem State.clearWhole_regions (s : State) (xs : List (Nat × Nat)) :
    (s.clearWhole xs).regions = s.regions := rfl
@[simp] theorem State.clearWhole_making (s : State) (xs : List (Nat × Nat)) :
    (s.clearWhole xs).making = s.making := rfl
@[simp] theorem State.clearWhole_sync (s : State) (xs : List (Nat × Nat)) : (s.clearWhole xs).sync = s.sync := rfl
@[simp] theorem State.clearWhole_syncUpd (s : State) (xs : List (Nat × Nat)) :
    (s.clearWhole xs).syncUpd = s.syncUpd := rfl
@[simp] theorem State.clearWhole_mirrors (s : State) (xs : List (Nat × Nat)) :
    (s.clearWhole xs).mirrors = s.mirrors := rfl
@[simp] theorem State.clearWhole_syncMsgs (s : State) (xs : List (Nat × Nat)) :
    (s.clearWhole xs).syncMsgs = s.syncMsgs := rfl
@[simp] theorem State.clearWhole_queues (s : State) (xs : List (Nat × Nat)) :
    (s.clearWhole xs).queues = s.queues := rfl
@[simp] theorem State.clearWhole_served (s : State) (xs : List (Nat × Nat)) :
    (s.clearWhole xs).served = s.served := rfl
@[simp] theorem State.clearWhole_orders (s : State) (xs : List (Nat × Nat)) :
    (s.clearWhole xs).orders = s.orders := rfl
@[simp] theorem State.clearWhole_ctxs (s : State) (xs : List (Nat × Nat)) : (s.clearWhole xs).ctxs = s.ctxs := rfl
@[simp] theorem State.clearWhole_cmds (s : State) (xs : List (Nat × Nat)) : (s.clearWhole xs).cmds = s.cmds := rfl
@[simp] theorem State.clearWhole_launches (s : State) (xs : List (Nat × Nat)) :
    (s.clearWhole xs).launches = s.launches := rfl
@[simp] theorem State.clearWhole_teams (s : State) (xs : List (Nat × Nat)) : (s.clearWhole xs).teams = s.teams := rfl
@[simp] theorem State.clearWhole_nextId (s : State) (xs : List (Nat × Nat)) :
    (s.clearWhole xs).nextId = s.nextId := rfl
@[simp] theorem State.clearWhole_ring (s : State) (xs : List (Nat × Nat)) : (s.clearWhole xs).ring = s.ring := rfl
@[simp] theorem State.clearWhole_power (s : State) (xs : List (Nat × Nat)) : (s.clearWhole xs).power = s.power := rfl
@[simp] theorem State.clearWhole_mig (s : State) (xs : List (Nat × Nat)) : (s.clearWhole xs).mig = s.mig := rfl
@[simp] theorem State.clearWhole_links (s : State) (xs : List (Nat × Nat)) : (s.clearWhole xs).links = s.links := rfl
@[simp] theorem State.clearWhole_mgmt (s : State) (xs : List (Nat × Nat)) : (s.clearWhole xs).mgmt = s.mgmt := rfl
@[simp] theorem State.clearWhole_hostLines (s : State) (xs : List (Nat × Nat)) :
    (s.clearWhole xs).hostLines = s.hostLines := rfl
@[simp] theorem State.clearWhole_remotes (s : State) (xs : List (Nat × Nat)) :
    (s.clearWhole xs).remotes = s.remotes := rfl
@[simp] theorem State.clearWhole_hostRead (s : State) (xs : List (Nat × Nat)) :
    (s.clearWhole xs).hostRead = s.hostRead := rfl
@[simp] theorem State.clearWhole_starts (s : State) (xs : List (Nat × Nat)) :
    (s.clearWhole xs).starts = s.starts := rfl
@[simp] theorem State.clearWhole_timers (s : State) (xs : List (Nat × Nat)) :
    (s.clearWhole xs).timers = s.timers := rfl
@[simp] theorem State.physStore_mem (s : State) (a : Nat) (bs : List Byte) :
    (s.physStore a bs).mem = memWrite s.mem a bs := rfl

/-! ## Threads and lane sides of a hart -/

@[simp] theorem Hart.setThr_team (h : Hart) (t : Thread) (w : Who) :
    (h.setThr t w).team = h.team := by cases w <;> rfl
@[simp] theorem Hart.setEst_team (h : Hart) (x : EState) (w : Who) :
    (h.setEst x w).team = h.team := by cases w <;> rfl
@[simp] theorem Hart.setThr_ctx (h : Hart) (t : Thread) (w : Who) : (h.setThr t w).ctx = h.ctx := by cases w <;> rfl
@[simp] theorem Hart.setEst_ctx (h : Hart) (x : EState) (w : Who) : (h.setEst x w).ctx = h.ctx := by cases w <;> rfl
@[simp] theorem Hart.setThr_hartid (h : Hart) (t : Thread) (w : Who) :
    (h.setThr t w).hartid = h.hartid := by cases w <;> rfl
@[simp] theorem Hart.setEst_hartid (h : Hart) (x : EState) (w : Who) :
    (h.setEst x w).hartid = h.hartid := by cases w <;> rfl
@[simp] theorem Hart.setThr_teamid (h : Hart) (t : Thread) (w : Who) :
    (h.setThr t w).teamid = h.teamid := by cases w <;> rfl
@[simp] theorem Hart.setEst_teamid (h : Hart) (x : EState) (w : Who) :
    (h.setEst x w).teamid = h.teamid := by cases w <;> rfl
@[simp] theorem Hart.setThr_teamsize (h : Hart) (t : Thread) (w : Who) :
    (h.setThr t w).teamsize = h.teamsize := by cases w <;> rfl
@[simp] theorem Hart.setEst_teamsize (h : Hart) (x : EState) (w : Who) :
    (h.setEst x w).teamsize = h.teamsize := by cases w <;> rfl
@[simp] theorem Hart.setThr_corelid (h : Hart) (t : Thread) (w : Who) :
    (h.setThr t w).corelid = h.corelid := by cases w <;> rfl
@[simp] theorem Hart.setEst_corelid (h : Hart) (x : EState) (w : Who) :
    (h.setEst x w).corelid = h.corelid := by cases w <;> rfl
@[simp] theorem Hart.setThr_split (h : Hart) (t : Thread) (w : Who) :
    (h.setThr t w).split = h.split := by cases w <;> rfl
@[simp] theorem Hart.setEst_split (h : Hart) (x : EState) (w : Who) :
    (h.setEst x w).split = h.split := by cases w <;> rfl
@[simp] theorem Hart.setThr_splitSave (h : Hart) (t : Thread) (w : Who) :
    (h.setThr t w).splitSave = h.splitSave := by cases w <;> rfl
@[simp] theorem Hart.setEst_splitSave (h : Hart) (x : EState) (w : Who) :
    (h.setEst x w).splitSave = h.splitSave := by cases w <;> rfl
@[simp] theorem Hart.setThr_trapMt (h : Hart) (t : Thread) (w : Who) :
    (h.setThr t w).trapMt = h.trapMt := by cases w <;> rfl
@[simp] theorem Hart.setEst_trapMt (h : Hart) (x : EState) (w : Who) :
    (h.setEst x w).trapMt = h.trapMt := by cases w <;> rfl
@[simp] theorem Hart.setThr_cycles (h : Hart) (t : Thread) (w : Who) :
    (h.setThr t w).cycles = h.cycles := by cases w <;> rfl
@[simp] theorem Hart.setEst_cycles (h : Hart) (x : EState) (w : Who) :
    (h.setEst x w).cycles = h.cycles := by cases w <;> rfl
@[simp] theorem Hart.setThr_ds (h : Hart) (t : Thread) (w : Who) : (h.setThr t w).ds = h.ds := by cases w <;> rfl
@[simp] theorem Hart.setEst_ds (h : Hart) (x : EState) (w : Who) : (h.setEst x w).ds = h.ds := by cases w <;> rfl
@[simp] theorem Hart.setThr_dsPending (h : Hart) (t : Thread) (w : Who) :
    (h.setThr t w).dsPending = h.dsPending := by cases w <;> rfl
@[simp] theorem Hart.setEst_dsPending (h : Hart) (x : EState) (w : Who) :
    (h.setEst x w).dsPending = h.dsPending := by cases w <;> rfl
@[simp] theorem Hart.setThr_fetimeout (h : Hart) (t : Thread) (w : Who) :
    (h.setThr t w).fetimeout = h.fetimeout := by cases w <;> rfl
@[simp] theorem Hart.setEst_fetimeout (h : Hart) (x : EState) (w : Who) :
    (h.setEst x w).fetimeout = h.fetimeout := by cases w <;> rfl
@[simp] theorem Hart.setThr_vtimeout (h : Hart) (t : Thread) (w : Who) :
    (h.setThr t w).vtimeout = h.vtimeout := by cases w <;> rfl
@[simp] theorem Hart.setEst_vtimeout (h : Hart) (x : EState) (w : Who) :
    (h.setEst x w).vtimeout = h.vtimeout := by cases w <;> rfl
@[simp] theorem Hart.setThr_waittimeout (h : Hart) (t : Thread) (w : Who) :
    (h.setThr t w).waittimeout = h.waittimeout := by cases w <;> rfl
@[simp] theorem Hart.setEst_waittimeout (h : Hart) (x : EState) (w : Who) :
    (h.setEst x w).waittimeout = h.waittimeout := by cases w <;> rfl
@[simp] theorem Hart.setThr_predeadline (h : Hart) (t : Thread) (w : Who) :
    (h.setThr t w).predeadline = h.predeadline := by cases w <;> rfl
@[simp] theorem Hart.setEst_predeadline (h : Hart) (x : EState) (w : Who) :
    (h.setEst x w).predeadline = h.predeadline := by cases w <;> rfl
@[simp] theorem Hart.setThr_ctxbase (h : Hart) (t : Thread) (w : Who) :
    (h.setThr t w).ctxbase = h.ctxbase := by cases w <;> rfl
@[simp] theorem Hart.setEst_ctxbase (h : Hart) (x : EState) (w : Who) :
    (h.setEst x w).ctxbase = h.ctxbase := by cases w <;> rfl
@[simp] theorem Hart.setThr_area (h : Hart) (t : Thread) (w : Who) :
    (h.setThr t w).area = h.area := by cases w <;> rfl
@[simp] theorem Hart.setEst_area (h : Hart) (x : EState) (w : Who) :
    (h.setEst x w).area = h.area := by cases w <;> rfl
@[simp] theorem Hart.setThr_backing (h : Hart) (t : Thread) (w : Who) :
    (h.setThr t w).backing = h.backing := by cases w <;> rfl
@[simp] theorem Hart.setEst_backing (h : Hart) (x : EState) (w : Who) :
    (h.setEst x w).backing = h.backing := by cases w <;> rfl
@[simp] theorem Hart.setThr_tilesave (h : Hart) (t : Thread) (w : Who) :
    (h.setThr t w).tilesave = h.tilesave := by cases w <;> rfl
@[simp] theorem Hart.setEst_tilesave (h : Hart) (x : EState) (w : Who) :
    (h.setEst x w).tilesave = h.tilesave := by cases w <;> rfl
@[simp] theorem Hart.setThr_qs (h : Hart) (t : Thread) (w : Who) : (h.setThr t w).qs = h.qs := by cases w <;> rfl
@[simp] theorem Hart.setEst_qs (h : Hart) (x : EState) (w : Who) : (h.setEst x w).qs = h.qs := by cases w <;> rfl
@[simp] theorem Hart.setThr_bo (h : Hart) (t : Thread) (w : Who) : (h.setThr t w).bo = h.bo := by cases w <;> rfl
@[simp] theorem Hart.setEst_bo (h : Hart) (x : EState) (w : Who) : (h.setEst x w).bo = h.bo := by cases w <;> rfl
@[simp] theorem Hart.setThr_spad (h : Hart) (t : Thread) (w : Who) :
    (h.setThr t w).spad = h.spad := by cases w <;> rfl
@[simp] theorem Hart.setEst_spad (h : Hart) (x : EState) (w : Who) :
    (h.setEst x w).spad = h.spad := by cases w <;> rfl
@[simp] theorem Hart.setThr_spadEmpty (h : Hart) (t : Thread) (w : Who) :
    (h.setThr t w).spadEmpty = h.spadEmpty := by cases w <;> rfl
@[simp] theorem Hart.setEst_spadEmpty (h : Hart) (x : EState) (w : Who) :
    (h.setEst x w).spadEmpty = h.spadEmpty := by cases w <;> rfl
@[simp] theorem Hart.setThr_spadWait (h : Hart) (t : Thread) (w : Who) :
    (h.setThr t w).spadWait = h.spadWait := by cases w <;> rfl
@[simp] theorem Hart.setEst_spadWait (h : Hart) (x : EState) (w : Who) :
    (h.setEst x w).spadWait = h.spadWait := by cases w <;> rfl
@[simp] theorem Hart.setThr_pool (h : Hart) (t : Thread) (w : Who) :
    (h.setThr t w).pool = h.pool := by cases w <;> rfl
@[simp] theorem Hart.setEst_pool (h : Hart) (x : EState) (w : Who) :
    (h.setEst x w).pool = h.pool := by cases w <;> rfl
@[simp] theorem Hart.setThr_damaged (h : Hart) (t : Thread) (w : Who) :
    (h.setThr t w).damaged = h.damaged := by cases w <;> rfl
@[simp] theorem Hart.setEst_damaged (h : Hart) (x : EState) (w : Who) :
    (h.setEst x w).damaged = h.damaged := by cases w <;> rfl
@[simp] theorem Hart.setThr_preds (h : Hart) (t : Thread) (w : Who) :
    (h.setThr t w).preds = h.preds := by cases w <;> rfl
@[simp] theorem Hart.setEst_preds (h : Hart) (x : EState) (w : Who) :
    (h.setEst x w).preds = h.preds := by cases w <;> rfl
@[simp] theorem Hart.setThr_levels (h : Hart) (t : Thread) (w : Who) :
    (h.setThr t w).levels = h.levels := by cases w <;> rfl
@[simp] theorem Hart.setEst_levels (h : Hart) (x : EState) (w : Who) :
    (h.setEst x w).levels = h.levels := by cases w <;> rfl
@[simp] theorem Hart.setThr_seam (h : Hart) (t : Thread) (w : Who) :
    (h.setThr t w).seam = h.seam := by cases w <;> rfl
@[simp] theorem Hart.setEst_seam (h : Hart) (x : EState) (w : Who) :
    (h.setEst x w).seam = h.seam := by cases w <;> rfl
@[simp] theorem Hart.setThr_slice (h : Hart) (t : Thread) (w : Who) :
    (h.setThr t w).slice = h.slice := by cases w <;> rfl
@[simp] theorem Hart.setEst_slice (h : Hart) (x : EState) (w : Who) :
    (h.setEst x w).slice = h.slice := by cases w <;> rfl
@[simp] theorem Hart.setThr_scales (h : Hart) (t : Thread) (w : Who) :
    (h.setThr t w).scales = h.scales := by cases w <;> rfl
@[simp] theorem Hart.setEst_scales (h : Hart) (x : EState) (w : Who) :
    (h.setEst x w).scales = h.scales := by cases w <;> rfl
@[simp] theorem Hart.setThr_trees (h : Hart) (t : Thread) (w : Who) :
    (h.setThr t w).trees = h.trees := by cases w <;> rfl
@[simp] theorem Hart.setEst_trees (h : Hart) (x : EState) (w : Who) :
    (h.setEst x w).trees = h.trees := by cases w <;> rfl
@[simp] theorem Hart.setThr_spools (h : Hart) (t : Thread) (w : Who) :
    (h.setThr t w).spools = h.spools := by cases w <;> rfl
@[simp] theorem Hart.setEst_spools (h : Hart) (x : EState) (w : Who) :
    (h.setEst x w).spools = h.spools := by cases w <;> rfl
@[simp] theorem Hart.setThr_evq (h : Hart) (t : Thread) (w : Who) : (h.setThr t w).evq = h.evq := by cases w <;> rfl
@[simp] theorem Hart.setEst_evq (h : Hart) (x : EState) (w : Who) : (h.setEst x w).evq = h.evq := by cases w <;> rfl
@[simp] theorem Hart.setThr_evHeld (h : Hart) (t : Thread) (w : Who) :
    (h.setThr t w).evHeld = h.evHeld := by cases w <;> rfl
@[simp] theorem Hart.setEst_evHeld (h : Hart) (x : EState) (w : Who) :
    (h.setEst x w).evHeld = h.evHeld := by cases w <;> rfl
@[simp] theorem Hart.setThr_nextTicket (h : Hart) (t : Thread) (w : Who) :
    (h.setThr t w).nextTicket = h.nextTicket := by cases w <;> rfl
@[simp] theorem Hart.setEst_nextTicket (h : Hart) (x : EState) (w : Who) :
    (h.setEst x w).nextTicket = h.nextTicket := by cases w <;> rfl
@[simp] theorem Hart.setThr_iters (h : Hart) (t : Thread) (w : Who) :
    (h.setThr t w).iters = h.iters := by cases w <;> rfl
@[simp] theorem Hart.setEst_iters (h : Hart) (x : EState) (w : Who) :
    (h.setEst x w).iters = h.iters := by cases w <;> rfl
@[simp] theorem Hart.setThr_inIter (h : Hart) (t : Thread) (w : Who) :
    (h.setThr t w).inIter = h.inIter := by cases w <;> rfl
@[simp] theorem Hart.setEst_inIter (h : Hart) (x : EState) (w : Who) :
    (h.setEst x w).inIter = h.inIter := by cases w <;> rfl
@[simp] theorem Hart.setThr_fillSeq (h : Hart) (t : Thread) (w : Who) :
    (h.setThr t w).fillSeq = h.fillSeq := by cases w <;> rfl
@[simp] theorem Hart.setEst_fillSeq (h : Hart) (x : EState) (w : Who) :
    (h.setEst x w).fillSeq = h.fillSeq := by cases w <;> rfl
@[simp] theorem Hart.setThr_writeSeq (h : Hart) (t : Thread) (w : Who) :
    (h.setThr t w).writeSeq = h.writeSeq := by cases w <;> rfl
@[simp] theorem Hart.setEst_writeSeq (h : Hart) (x : EState) (w : Who) :
    (h.setEst x w).writeSeq = h.writeSeq := by cases w <;> rfl
@[simp] theorem Hart.setThr_park (h : Hart) (t : Thread) (w : Who) :
    (h.setThr t w).park = h.park := by cases w <;> rfl
@[simp] theorem Hart.setEst_park (h : Hart) (x : EState) (w : Who) :
    (h.setEst x w).park = h.park := by cases w <;> rfl

/-- A thread written is the thread read back. -/
@[simp] theorem Hart.thr_setThr (h : Hart) (t : Thread) (w : Who) : (h.setThr t w).thr w = t := by
  cases w <;> simp [Hart.setThr, Hart.thr]

/-- Another thread keeps its state. -/
theorem Hart.thr_setThr_ne (h : Hart) (t : Thread) {w v : Who} (n : v ≠ w) : (h.setThr t w).thr v = h.thr v := by
  cases w <;> cases v <;> simp_all [Hart.setThr, Hart.thr, Vector.getElem_set, Fin.ext_iff]
  exact if_neg (Ne.symm n) ▸ rfl

/-- Writing a thread twice leaves the second value. -/
@[simp] theorem Hart.setThr_setThr (h : Hart) (t u : Thread) (w : Who) : (h.setThr t w).setThr u w = h.setThr u w := by
  cases w <;> simp [Hart.setThr, Vector.set_set]

/-- A lane side written is the lane side read back. -/
@[simp] theorem Hart.est_setEst (h : Hart) (x : EState) (w : Who) : (h.setEst x w).est w = x := by
  cases w <;> simp [Hart.setEst, Hart.est]

/-- Writing a thread leaves every lane side. -/
@[simp] theorem Hart.est_setThr (h : Hart) (t : Thread) (w v : Who) : (h.setThr t w).est v = h.est v := by
  cases w <;> cases v <;> simp [Hart.setThr, Hart.est, Vector.getElem_set]
  split <;> simp_all

/-- Writing a lane side leaves every thread. -/
@[simp] theorem Hart.thr_setEst (h : Hart) (x : EState) (w v : Who) : (h.setEst x w).thr v = h.thr v := by
  cases w <;> cases v <;> simp [Hart.setEst, Hart.thr, Vector.getElem_set]
  split <;> simp_all

/-- Writing the thread in focus twice leaves the second value. -/
@[simp] theorem State.setThr_setThr (s : State) (t u : Thread) : (s.setThr t).setThr u = s.setThr u := by
  simp [State.setThr]

/-! ## What is in focus after an update -/

@[simp] theorem State.setThr_thr (s : State) (t : Thread) : (s.setThr t).thr = t := by simp [State.thr]
@[simp] theorem State.setThr_est (s : State) (t : Thread) : (s.setThr t).est = s.est := by simp [State.est]
@[simp] theorem State.setThr_hart (s : State) (t : Thread) : (s.setThr t).hart = s.hart.setThr t s.who := rfl
@[simp] theorem State.setEst_thr (s : State) (x : EState) : (s.setEst x).thr = s.thr := by simp [State.thr]
@[simp] theorem State.setEst_est (s : State) (x : EState) : (s.setEst x).est = x := by simp [State.est]
@[simp] theorem State.setEst_hart (s : State) (x : EState) : (s.setEst x).hart = s.hart.setEst x s.who := rfl
@[simp] theorem State.setHart_thr (s : State) (h : Hart) : (s.setHart h).thr = h.thr s.who := rfl
@[simp] theorem State.setHart_est (s : State) (h : Hart) : (s.setHart h).est = h.est s.who := rfl
@[simp] theorem State.setHart_hart (s : State) (h : Hart) : (s.setHart h).hart = h := rfl

/-! ## Scalar registers of a thread (R16, R17) -/

@[simp] theorem Thread.setReg_pc (t : Thread) (r : BitVec 5) (v : Word) : (t.setReg r v).pc = t.pc := rfl
@[simp] theorem Thread.setReg_fills (t : Thread) (r : BitVec 5) (v : Word) : (t.setReg r v).fills = t.fills := rfl
@[simp] theorem Thread.setReg_clvl (t : Thread) (r : BitVec 5) (v : Word) : (t.setReg r v).clvl = t.clvl := rfl
@[simp] theorem Thread.setReg_loops (t : Thread) (r : BitVec 5) (v : Word) : (t.setReg r v).loops = t.loops := rfl
@[simp] theorem Thread.setReg_rets (t : Thread) (r : BitVec 5) (v : Word) : (t.setReg r v).rets = t.rets := rfl
@[simp] theorem Thread.setReg_run (t : Thread) (r : BitVec 5) (v : Word) : (t.setReg r v).run = t.run := rfl
@[simp] theorem Thread.setReg_wait (t : Thread) (r : BitVec 5) (v : Word) : (t.setReg r v).wait = t.wait := rfl
@[simp] theorem Thread.setReg_posted (t : Thread) (r : BitVec 5) (v : Word) : (t.setReg r v).posted = t.posted := rfl
@[simp] theorem Thread.setReg_deferred (t : Thread) (r : BitVec 5) (v : Word) :
    (t.setReg r v).deferred = t.deferred := rfl
@[simp] theorem Thread.setReg_tcause (t : Thread) (r : BitVec 5) (v : Word) : (t.setReg r v).tcause = t.tcause := rfl
@[simp] theorem Thread.setReg_tval (t : Thread) (r : BitVec 5) (v : Word) : (t.setReg r v).tval = t.tval := rfl
@[simp] theorem Thread.setReg_tpc (t : Thread) (r : BitVec 5) (v : Word) : (t.setReg r v).tpc = t.tpc := rfl
@[simp] theorem Thread.setReg_tmt (t : Thread) (r : BitVec 5) (v : Word) : (t.setReg r v).tmt = t.tmt := rfl
@[simp] theorem Thread.setReg_busy (t : Thread) (r : BitVec 5) (v : Word) : (t.setReg r v).busy = t.busy := rfl
@[simp] theorem Thread.setReg_super (t : Thread) (r : BitVec 5) (v : Word) : (t.setReg r v).super = t.super := rfl
@[simp] theorem Thread.setReg_pfxp (t : Thread) (r : BitVec 5) (v : Word) : (t.setReg r v).pfxp = t.pfxp := rfl
@[simp] theorem Thread.setReg_plvl (t : Thread) (r : BitVec 5) (v : Word) : (t.setReg r v).plvl = t.plvl := rfl
@[simp] theorem Thread.setReg_tvec (t : Thread) (r : BitVec 5) (v : Word) : (t.setReg r v).tvec = t.tvec := rfl
@[simp] theorem Thread.setReg_tkeep (t : Thread) (r : BitVec 5) (v : Word) : (t.setReg r v).tkeep = t.tkeep := rfl
@[simp] theorem Thread.setReg_cut (t : Thread) (r : BitVec 5) (v : Word) : (t.setReg r v).cut = t.cut := rfl
@[simp] theorem Thread.setEmpty_pc (t : Thread) (r : BitVec 5) : (t.setEmpty r).pc = t.pc := rfl
@[simp] theorem Thread.setEmpty_g (t : Thread) (r : BitVec 5) : (t.setEmpty r).g = t.g := rfl
@[simp] theorem Thread.setEmpty_fills (t : Thread) (r : BitVec 5) : (t.setEmpty r).fills = t.fills := rfl
@[simp] theorem Thread.setEmpty_clvl (t : Thread) (r : BitVec 5) : (t.setEmpty r).clvl = t.clvl := rfl
@[simp] theorem Thread.setEmpty_loops (t : Thread) (r : BitVec 5) : (t.setEmpty r).loops = t.loops := rfl
@[simp] theorem Thread.setEmpty_rets (t : Thread) (r : BitVec 5) : (t.setEmpty r).rets = t.rets := rfl
@[simp] theorem Thread.setEmpty_run (t : Thread) (r : BitVec 5) : (t.setEmpty r).run = t.run := rfl
@[simp] theorem Thread.setEmpty_wait (t : Thread) (r : BitVec 5) : (t.setEmpty r).wait = t.wait := rfl
@[simp] theorem Thread.setEmpty_posted (t : Thread) (r : BitVec 5) : (t.setEmpty r).posted = t.posted := rfl
@[simp] theorem Thread.setEmpty_deferred (t : Thread) (r : BitVec 5) : (t.setEmpty r).deferred = t.deferred := rfl
@[simp] theorem Thread.setEmpty_tcause (t : Thread) (r : BitVec 5) : (t.setEmpty r).tcause = t.tcause := rfl
@[simp] theorem Thread.setEmpty_tval (t : Thread) (r : BitVec 5) : (t.setEmpty r).tval = t.tval := rfl
@[simp] theorem Thread.setEmpty_tpc (t : Thread) (r : BitVec 5) : (t.setEmpty r).tpc = t.tpc := rfl
@[simp] theorem Thread.setEmpty_tmt (t : Thread) (r : BitVec 5) : (t.setEmpty r).tmt = t.tmt := rfl
@[simp] theorem Thread.setEmpty_busy (t : Thread) (r : BitVec 5) : (t.setEmpty r).busy = t.busy := rfl
@[simp] theorem Thread.setEmpty_super (t : Thread) (r : BitVec 5) : (t.setEmpty r).super = t.super := rfl
@[simp] theorem Thread.setEmpty_pfxp (t : Thread) (r : BitVec 5) : (t.setEmpty r).pfxp = t.pfxp := rfl
@[simp] theorem Thread.setEmpty_plvl (t : Thread) (r : BitVec 5) : (t.setEmpty r).plvl = t.plvl := rfl
@[simp] theorem Thread.setEmpty_tvec (t : Thread) (r : BitVec 5) : (t.setEmpty r).tvec = t.tvec := rfl
@[simp] theorem Thread.setEmpty_tkeep (t : Thread) (r : BitVec 5) : (t.setEmpty r).tkeep = t.tkeep := rfl
@[simp] theorem Thread.setEmpty_cut (t : Thread) (r : BitVec 5) : (t.setEmpty r).cut = t.cut := rfl

/-- A register written holds the value; the others keep theirs. -/
theorem Thread.reg_setReg (t : Thread) (r q : BitVec 5) (v : Word) :
    (t.setReg r v).reg q = if r = q then v else t.reg q := by
  simp only [Thread.reg, Thread.setReg, Vector.getElem_set]
  by_cases h : r = q
  · simp [h]
  · have : r.toNat ≠ q.toNat := fun e => h (BitVec.eq_of_toNat_eq e)
    simp [h, this]

/-- A register written is full; the others keep their mark. -/
theorem Thread.isFull_setReg (t : Thread) (r q : BitVec 5) (v : Word) :
    (t.setReg r v).isFull q = (decide (r = q) || t.isFull q) := by
  have hq := q.isLt
  simp only [Thread.isFull, Thread.setReg, BitVec.getLsbD_or, BitVec.getLsbD_shiftLeft]
  by_cases h : r = q
  · subst h; simp [hq]
  · have n : r.toNat ≠ q.toNat := fun e => h (BitVec.eq_of_toNat_eq e)
    simp only [h, decide_false, Bool.false_or]
    rcases Nat.lt_or_ge q.toNat r.toNat with l | l
    · simp [l]
    · have : q.toNat - r.toNat ≠ 0 := by omega
      simp [this]

end Sys2Proof.Machine
end

