-- ==== Sys2Proof/Laws/Issue.lean ====
section
/-! SUPPORT. Sys2Proof/Laws/Issue.lean: what issuing an instruction does (R38): with its checks passed and its sources
full, its body runs. -/

namespace Sys2Proof.Machine

/-- No source is empty when all are full. -/
theorem firstEmpty_none {t : Thread} {l : List (BitVec 5 × BitVec 1)} (h : ∀ p ∈ l, t.isFull p.1 = true) :
    firstEmpty t l = none := by
  induction l with
  | nil => rfl
  | cons p r ih =>
    obtain ⟨r0, m⟩ := p
    have h0 : t.isFull r0 = true := h (r0, m) (by simp)
    simp [firstEmpty, h0, ih (fun q hq => h q (by simp [hq]))]

/-- The body of an instruction runs when its checks pass and its sources are full. -/
theorem issue_next {w : BitVec 32} {srcs : List (BitVec 5 × BitVec 1)} {s : State} {body : State → Res}
    (hr : s.core.resident = true) (hg : gate w s = none) (hs : ∀ p ∈ srcs, s.thr.isFull p.1 = true) :
    issue w srcs s body = .next (finish (body s)) := by
  simp only [issue, hr, hg, firstEmpty_none (fun p hp => hs p (List.mem_filter.1 hp).1)]
  simp

/-- As `issue_next`, for an instruction with a last check of R37. -/
theorem issueIll_next {w : BitVec 32} {ill : State → Bool} {srcs : List (BitVec 5 × BitVec 1)} {s : State}
    {body : State → Res} (hr : s.core.resident = true) (hi : ill s = false) (hg : gate w s = none)
    (hs : ∀ p ∈ srcs, s.thr.isFull p.1 = true) : issueIll w ill srcs s body = .next (finish (body s)) := by
  simp [issueIll, hi, issue_next hr hg hs]

/-- An instruction of a hart that is placed always answers a next state. -/
theorem issue_total {w : BitVec 32} {srcs : List (BitVec 5 × BitVec 1)} {s : State} {body : State → Res}
    (hr : s.core.resident = true) : ∃ t, issue w srcs s body = .next t := by
  simp [issue, hr]

/-- A check that names a cause takes its trap with the instruction word as value. -/
theorem issue_gate {w : BitVec 32} {srcs : List (BitVec 5 × BitVec 1)} {s : State} {body : State → Res} {c : Cause}
    (hr : s.core.resident = true) (hg : gate w s = some c) :
    issue w srcs s body = .next (s.takeTrap c (w.setWidth 64) s.thr.pc) := by
  simp [issue, hr, hg, finish]

/-- A register written once no fill of it is outstanding. -/
theorem writeReg_free {s : State} {d : BitVec 5} {v : Word} (h : s.thr.pendingReg [d] = false) :
    writeReg s d v = .adv (s.setThr (s.thr.setReg d v)) := by
  simp [writeReg, h]

/-- The thread in focus read back after it was replaced. -/
@[simp] theorem State.thr_setThr (s : State) (t : Thread) : (s.setThr t).core.hart.thr s.who = t := by simp

end Sys2Proof.Machine
end

