-- ==== Sys2Proof/Laws/Places.lean ====
section
/-! SUPPORT. Sys2Proof/Laws/Places.lean: reading back the cores, dies, clusters, links, queues and listed values that an
update has set, and those that it leaves. -/

namespace Sys2Proof.Machine

/-! ## Association lists -/

theorem assocGet_assocSet {α β : Type} [DecidableEq α] (d v : β) (l : List (α × β)) (a b : α) :
    assocGet d (assocSet l a v) b = if a = b then v else assocGet d l b := by
  induction l with
  | nil => simp [assocSet, assocGet]
  | cons x r ih =>
    obtain ⟨k, w⟩ := x
    by_cases h : k = a
    · subst h; by_cases hb : k = b <;> simp [assocSet, assocGet, hb]
    · by_cases hb : k = b
      · subst hb; simp [assocSet, assocGet, h, Ne.symm h]
      · simp [assocSet, assocGet, h, hb, ih]

theorem assocFind_assocSet {α β : Type} [DecidableEq α] (v : β) (l : List (α × β)) (a b : α) :
    assocFind (assocSet l a v) b = if a = b then some v else assocFind l b := by
  induction l with
  | nil => simp [assocSet, assocFind]
  | cons x r ih =>
    obtain ⟨k, w⟩ := x
    by_cases h : k = a
    · subst h; by_cases hb : k = b <;> simp [assocSet, assocFind, hb]
    · by_cases hb : k = b
      · subst hb; simp [assocSet, assocFind, h, Ne.symm h]
      · simp [assocSet, assocFind, h, hb, ih]

@[simp] theorem assocGet_set_same {α β : Type} [DecidableEq α] (d v : β) (l : List (α × β)) (a : α) :
    assocGet d (assocSet l a v) a = v := by simp [assocGet_assocSet]

@[simp] theorem assocFind_set_same {α β : Type} [DecidableEq α] (v : β) (l : List (α × β)) (a : α) :
    assocFind (assocSet l a v) a = some v := by simp [assocFind_assocSet]

/-- The value of a key in a list mapped over its values. -/
theorem assocGet_map {α β : Type} [DecidableEq α] (f : α → β → β) (d : β) (l : List (α × β)) (a : α)
    (h : f a d = d) : assocGet d (l.map (fun x => (x.1, f x.1 x.2))) a = f a (assocGet d l a) := by
  induction l with
  | nil => simp [assocGet, h]
  | cons x r ih =>
    obtain ⟨k, w⟩ := x
    by_cases hk : k = a
    · subst hk; simp [assocGet]
    · simp [assocGet, hk, ih]

/-! ## Vectors as lists -/

/-- A vector's element read through its list. -/
theorem vec_getD {α : Type} {n : Nat} (v : Vector α n) (d : α) {i : Nat} (h : i < n) : v.toList.getD i d = v[i] := by
  simp [List.getD_eq_getElem?_getD, h]

/-- A vector's element read through its list after one was set. -/
theorem vec_getD_set {α : Type} {n : Nat} (v : Vector α n) (d x : α) {i : Nat} (h : i < n) (j : Nat) :
    (v.set i x h).toList.getD j d = if i = j then x else v.toList.getD j d := by
  by_cases hj : j < n
  · rw [vec_getD _ _ hj, vec_getD _ _ hj, Vector.getElem_set]
  · have : ¬ i = j := by omega
    simp [List.getD_eq_getElem?_getD, hj, this]

/-! ## Cores -/

@[simp] theorem State.getCore_setCore_same (s : State) (c : CoreId) (k : Core) : (s.setCore c k).getCore c = k := by
  unfold State.setCore State.getCore
  by_cases h : c = s.loc
  · rw [if_pos h, if_pos h]
  · rw [if_neg h, if_neg h]; exact assocGet_set_same _ _ _ _

theorem State.getCore_setCore_other (s : State) {c d : CoreId} (k : Core) (h : d ≠ c) :
    (s.setCore c k).getCore d = s.getCore d := by
  unfold State.setCore State.getCore
  by_cases hc : c = s.loc
  · have hd : ¬ d = s.loc := fun e => h (e.trans hc.symm)
    rw [if_pos hc, if_neg hd, if_neg hd]
  · rw [if_neg hc]
    by_cases hd : d = s.loc
    · rw [if_pos hd, if_pos hd]
    · rw [if_neg hd, if_neg hd, assocGet_assocSet, if_neg (Ne.symm h)]

@[simp] theorem State.setCore_loc (s : State) (c : CoreId) (k : Core) : (s.setCore c k).loc = s.loc := by
  unfold State.setCore; split <;> rfl

@[simp] theorem State.setCore_mem (s : State) (c : CoreId) (k : Core) : (s.setCore c k).mem = s.mem := by
  unfold State.setCore; split <;> rfl

@[simp] theorem State.setCore_gts (s : State) (c : CoreId) (k : Core) : (s.setCore c k).gts = s.gts := by
  unfold State.setCore; split <;> rfl

@[simp] theorem State.setCore_power (s : State) (c : CoreId) (k : Core) : (s.setCore c k).power = s.power := by
  unfold State.setCore; split <;> rfl

@[simp] theorem State.setCore_dies (s : State) (c : CoreId) (k : Core) : (s.setCore c k).dies = s.dies := by
  unfold State.setCore; split <;> rfl

@[simp] theorem State.setCore_teams (s : State) (c : CoreId) (k : Core) : (s.setCore c k).teams = s.teams := by
  unfold State.setCore; split <;> rfl

@[simp] theorem State.setCore_regions (s : State) (c : CoreId) (k : Core) : (s.setCore c k).regions = s.regions := by
  unfold State.setCore; split <;> rfl

@[simp] theorem State.setCore_mig (s : State) (c : CoreId) (k : Core) : (s.setCore c k).mig = s.mig := by
  unfold State.setCore; split <;> rfl

@[simp] theorem State.setCore_mgmt (s : State) (c : CoreId) (k : Core) : (s.setCore c k).mgmt = s.mgmt := by
  unfold State.setCore; split <;> rfl

/-- The core that an update replaces takes the focus as replaced. -/
@[simp] theorem State.onThr_eq (s : State) (c : CoreId) (w : Who) (f : Thread → Thread) :
    (s.onThr c w f).getCore c = { s.getCore c with hart := (s.getCore c).hart.setThr (f ((s.getCore c).hart.thr w)) w } := by
  simp [State.onThr]

@[simp] theorem State.onHart_eq (s : State) (c : CoreId) (f : Hart → Hart) :
    (s.onHart c f).getCore c = { s.getCore c with hart := f (s.getCore c).hart } := by
  simp [State.onHart]

/-! ## Dies and clusters -/

theorem State.die_setDie (s : State) {n : Nat} (f : Die → Die) (h : n < 8) (m : Nat) :
    (s.setDie n f).die m = if n = m then f (s.die n) else s.die m := by
  simp only [State.setDie, h, dite_true, State.die, vec_getD_set, vec_getD _ _ h]

@[simp] theorem State.die_setDie_same (s : State) {n : Nat} (f : Die → Die) (h : n < 8) :
    (s.setDie n f).die n = f (s.die n) := by simp [State.die_setDie s f h]

theorem State.cluster_setCluster (s : State) {d n : Nat} (f : Cluster → Cluster) (hd : d < 8) (hn : n < 66) (e m : Nat) :
    (s.setCluster d n f).cluster e m = if d = e ∧ n = m then f (s.cluster d n) else s.cluster e m := by
  simp only [State.setCluster, State.cluster, State.die_setDie s _ hd, hn, dite_true]
  by_cases he : d = e
  · subst he; simp only [if_true, true_and, vec_getD_set, vec_getD _ _ hn]
  · simp [he]

/-! ## Links and queues -/

@[simp] theorem State.link_setLink (s : State) {p : Nat} (f : Link → Link) (h : p < 5) :
    (s.setLink p f).link p = f (s.link p) := by
  simp [State.setLink, h, State.link]

theorem State.queue_setQueue (s : State) {q : Nat} (f : Queue → Queue) (h : q < 64) (r : Nat) :
    (s.setQueue q f).queue r = if q = r then f (s.queue q) else s.queue r := by
  simp only [State.setQueue, h, dite_true, State.queue, vec_getD_set, vec_getD _ _ h]

@[simp] theorem State.queue_setQueue_same (s : State) {q : Nat} (f : Queue → Queue) (h : q < 64) :
    (s.setQueue q f).queue q = f (s.queue q) := by simp [State.queue_setQueue s f h]

end Sys2Proof.Machine
end

