-- ==== Sys2Proof/Laws/Memory.lean ====
section
/-! SUPPORT. Sys2Proof/Laws/Memory.lean: what reading and writing bytes of memory do, and that every operation that
changes memory keeps its canonical form. -/

namespace Sys2Proof.Machine

/-! ## The canonical form -/

/-- The canonical form said of the list: no listed byte is 0 and the addresses rise. -/
theorem memWf_iff (m : List Host.Cell) :
    memWf m = true ↔ (∀ c ∈ m, c.2 ≠ 0) ∧ (m.map (·.1)).Pairwise (· < ·) := by
  simp [memWf]

/-- A filter keeps the canonical form. -/
theorem memWf_filter {m : List Host.Cell} (h : memWf m = true) (p : Host.Cell → Bool) : memWf (m.filter p) = true := by
  rw [memWf_iff] at *
  exact ⟨fun c hc => h.1 c (List.mem_filter.1 hc).1, h.2.sublist (List.filter_sublist.map _)⟩

/-- Three canonical pieces in ascending ranges make a canonical list. -/
theorem memWf_append3 {l m r : List Host.Cell} {a b : Nat} (hl : memWf l = true) (hm : memWf m = true)
    (hr : memWf r = true) (la : ∀ c ∈ l, c.1 < a) (ma : ∀ c ∈ m, a ≤ c.1 ∧ c.1 < b) (rb : ∀ c ∈ r, b ≤ c.1)
    (hab : a ≤ b) : memWf (l ++ m ++ r) = true := by
  rw [memWf_iff] at *
  refine ⟨?_, ?_⟩
  · intro c hc
    simp only [List.mem_append] at hc
    rcases hc with (h | h) | h
    · exact hl.1 c h
    · exact hm.1 c h
    · exact hr.1 c h
  · rw [List.map_append, List.map_append, List.pairwise_append, List.pairwise_append]
    refine ⟨⟨hl.2, hm.2, ?_⟩, hr.2, ?_⟩
    · intro x hx y hy
      obtain ⟨c, hc, rfl⟩ := List.mem_map.1 hx
      obtain ⟨d, hd, rfl⟩ := List.mem_map.1 hy
      have := la c hc; have := ma d hd; omega
    · intro x hx y hy
      obtain ⟨d, hd, rfl⟩ := List.mem_map.1 hy
      have hd := rb d hd
      rcases List.mem_append.1 hx with h | h
      · obtain ⟨c, hc, rfl⟩ := List.mem_map.1 h; have := la c hc; omega
      · obtain ⟨c, hc, rfl⟩ := List.mem_map.1 h; have := ma c hc; omega

/-- The cells of bytes lie in their range. -/
theorem cellsOf_range (a : Nat) (bs : List Byte) : ∀ c ∈ cellsOf a bs, a ≤ c.1 ∧ c.1 < a + bs.length := by
  induction bs generalizing a with
  | nil => simp [cellsOf]
  | cons b r ih =>
    intro c hc
    simp only [cellsOf] at hc
    split at hc
    · have := ih (a + 1) c hc; simp only [List.length_cons]; omega
    · rcases List.mem_cons.1 hc with rfl | h
      · simp
      · have := ih (a + 1) c h; simp only [List.length_cons]; omega

theorem memWf_cellsOf (a : Nat) (bs : List Byte) : memWf (cellsOf a bs) = true := by
  induction bs generalizing a with
  | nil => rfl
  | cons b r ih =>
    simp only [cellsOf]
    split
    · exact ih (a + 1)
    · next hb =>
      have h := (memWf_iff _).1 (ih (a + 1))
      rw [memWf_iff]
      refine ⟨?_, ?_⟩
      · intro c hc
        rcases List.mem_cons.1 hc with rfl | hc
        · exact hb
        · exact h.1 c hc
      · rw [List.map_cons, List.pairwise_cons]
        refine ⟨?_, h.2⟩
        intro x hx
        obtain ⟨c, hc, rfl⟩ := List.mem_map.1 hx
        have := cellsOf_range (a + 1) r c hc
        omega

/-- Writing bytes keeps the canonical form. -/
theorem memWf_memWrite {m : List Host.Cell} (h : memWf m = true) (a : Nat) (bs : List Byte) :
    memWf (memWrite m a bs) = true :=
  memWf_append3 (b := a + bs.length) (memWf_filter h _) (memWf_cellsOf a bs) (memWf_filter h _) (by simp)
    (cellsOf_range a bs) (by simp) (by omega)

/-- A list moved up or down as one piece stays canonical. -/
theorem memWf_shift {m : List Host.Cell} (h : memWf m = true) (src dst : Nat) (hs : ∀ c ∈ m, src ≤ c.1) :
    memWf (m.map (fun c => ((c.1 - src + dst, c.2) : Host.Cell))) = true := by
  rw [memWf_iff] at *
  refine ⟨?_, ?_⟩
  · intro c hc
    obtain ⟨d, hd, rfl⟩ := List.mem_map.1 hc
    exact h.1 d hd
  · rw [List.map_map, List.pairwise_map]
    have h2 := List.pairwise_map.1 h.2
    refine h2.imp_of_mem ?_
    intro x y hx hy hxy
    have := hs x hx; have := hs y hy
    simp only [Function.comp]
    omega

/-- Copying a range keeps the canonical form. -/
theorem memWf_memCopy {m : List Host.Cell} (h : memWf m = true) (src dst n : Nat) :
    memWf (memCopy m src dst n) = true := by
  unfold memCopy
  refine memWf_append3 (a := dst) (b := dst + n) (memWf_filter h _) (memWf_shift (memWf_filter h _) src dst ?_)
    (memWf_filter h _) (by simp) ?_ (by simp) (by omega)
  · intro c hc; simp at hc; exact hc.2.1
  · intro c hc
    obtain ⟨d, hd, rfl⟩ := List.mem_map.1 hc
    simp at hd
    show dst ≤ d.1 - src + dst ∧ d.1 - src + dst < dst + n
    omega

/-! ## Reading after writing -/

/-- What the second list holds of an address that the first does not list. -/
theorem memGet_append_right {l : List Host.Cell} (r : List Host.Cell) {x : Nat} (h : ∀ c ∈ l, c.1 ≠ x) :
    memGet (l ++ r) x = memGet r x := by
  induction l with
  | nil => rfl
  | cons c l ih =>
    have h1 : c.1 ≠ x := h c (by simp)
    rw [List.cons_append, memGet, if_neg h1, ih (fun d hd => h d (by simp [hd]))]

/-- An address that nothing lists reads 0. -/
theorem memGet_unlisted {l : List Host.Cell} {x : Nat} (h : ∀ c ∈ l, c.1 ≠ x) : memGet l x = 0 := by
  induction l with
  | nil => rfl
  | cons c l ih =>
    have h1 : c.1 ≠ x := h c (by simp)
    rw [memGet, if_neg h1, ih (fun d hd => h d (by simp [hd]))]

/-- What the first list holds of an address that the second does not list. -/
theorem memGet_append_left (l : List Host.Cell) {r : List Host.Cell} {x : Nat} (h : ∀ c ∈ r, c.1 ≠ x) :
    memGet (l ++ r) x = memGet l x := by
  induction l with
  | nil => exact memGet_unlisted h
  | cons c l ih => rw [List.cons_append, memGet, memGet, ih]

theorem memGet_filter (m : List Host.Cell) (p : Nat → Bool) (x : Nat) :
    memGet (m.filter (fun c => p c.1)) x = if p x = true then memGet m x else 0 := by
  induction m with
  | nil => simp [memGet]
  | cons c l ih =>
    obtain ⟨k, b⟩ := c
    by_cases hk : k = x
    · subst hk
      by_cases hp : p k = true
      · simp [hp, memGet]
      · simp only [Bool.not_eq_true] at hp
        simp [hp, ih]
    · by_cases hp : p k = true
      · simp [hp, memGet, hk, ih]
      · simp only [Bool.not_eq_true] at hp
        simp [hp, memGet, hk, ih]

theorem memGet_cellsOf (a : Nat) (bs : List Byte) (x : Nat) :
    memGet (cellsOf a bs) x = if a ≤ x ∧ x < a + bs.length then bs.getD (x - a) 0 else 0 := by
  induction bs generalizing a with
  | nil =>
    have : ¬(a ≤ x ∧ x < a + 0) := by omega
    simp [cellsOf, memGet]
  | cons b r ih =>
    have key : ∀ l : List Host.Cell, l = cellsOf (a + 1) r → x ≠ a → memGet l x =
        if a ≤ x ∧ x < a + (b :: r).length then (b :: r).getD (x - a) 0 else 0 := by
      intro l hl hx
      rw [hl, ih]
      simp only [List.length_cons]
      by_cases h : a + 1 ≤ x ∧ x < a + 1 + r.length
      · have h2 : a ≤ x ∧ x < a + (r.length + 1) := by omega
        rw [if_pos h, if_pos h2]
        obtain ⟨k, rfl⟩ : ∃ k, x = a + 1 + k := ⟨x - (a + 1), by omega⟩
        have e1 : a + 1 + k - (a + 1) = k := by omega
        have e2 : a + 1 + k - a = k + 1 := by omega
        rw [e1, e2]; rfl
      · have h2 : ¬(a ≤ x ∧ x < a + (r.length + 1)) := by omega
        rw [if_neg h, if_neg h2]
    simp only [cellsOf]
    split
    · next hb =>
      by_cases hx : x = a
      · subst hx
        rw [ih]
        have : ¬(x + 1 ≤ x ∧ x < x + 1 + r.length) := by omega
        rw [if_neg this]
        simp [hb]
      · exact key _ rfl hx
    · by_cases hx : x = a
      · subst hx; simp [memGet]
      · have hx' : ¬ a = x := fun e => hx e.symm
        simp only [memGet, hx', if_false]
        exact key _ rfl hx

/-- A byte read after bytes were written: the byte written there, elsewhere the byte before. -/
theorem memGet_memWrite (m : List Host.Cell) (a : Nat) (bs : List Byte) (x : Nat) :
    memGet (memWrite m a bs) x = if a ≤ x ∧ x < a + bs.length then bs.getD (x - a) 0 else memGet m x := by
  have f1 := memGet_filter m (fun k => decide (k < a)) x
  have f2 := memGet_filter m (fun k => decide (a + bs.length ≤ k)) x
  have low : ¬ x < a → ∀ c ∈ m.filter (fun c => decide (c.1 < a)), c.1 ≠ x := by
    intro h c hc e; simp at hc; omega
  have high : ¬ a + bs.length ≤ x → ∀ c ∈ m.filter (fun c => decide (a + bs.length ≤ c.1)), c.1 ≠ x := by
    intro h c hc e; simp at hc; omega
  have mid : ¬(a ≤ x ∧ x < a + bs.length) → ∀ c ∈ cellsOf a bs, c.1 ≠ x := by
    intro h c hc e; have := cellsOf_range a bs c hc; omega
  unfold memWrite
  by_cases h1 : x < a
  · rw [memGet_append_left _ (high (by omega)), memGet_append_left _ (mid (by omega)), f1, if_neg (by omega : ¬(a ≤ x ∧ x < a + bs.length))]
    simp [h1]
  · by_cases h2 : x < a + bs.length
    · rw [memGet_append_left _ (high (by omega)), memGet_append_right _ (low h1), memGet_cellsOf,
        if_pos ⟨by omega, h2⟩, if_pos ⟨by omega, h2⟩]
    · rw [List.append_assoc, memGet_append_right _ (low h1), memGet_append_right _ (mid (by omega)), f2,
        if_neg (by omega : ¬(a ≤ x ∧ x < a + bs.length))]
      simp; omega

/-- Bytes outside a store read as before. -/
theorem memGet_memWrite_outside (m : List Host.Cell) {a x : Nat} (bs : List Byte) (h : x < a ∨ a + bs.length ≤ x) :
    memGet (memWrite m a bs) x = memGet m x := by
  rw [memGet_memWrite, if_neg (by omega)]

/-! ## The operations that change memory -/

/-- Reset memory is canonical. -/
theorem memOk_reset : State.reset.memOk := rfl

theorem memOk_physStore {s : State} (h : s.memOk) (a : Nat) (bs : List Byte) : (s.physStore a bs).memOk :=
  memWf_memWrite h a bs

theorem memOk_clearBank {s : State} (h : s.memOk) (die bank : Nat) : (s.clearBank die bank).memOk :=
  memWf_filter h _

theorem memOk_copyPage {s : State} (h : s.memOk) (src dst n : Nat) : (s.copyPage src dst n).memOk :=
  memWf_memCopy h src dst n

end Sys2Proof.Machine
end

