-- ==== Sys2Proof/Laws/Operands.lean ====
section
/-! SUPPORT. Sys2Proof/Laws/Operands.lean: what reading the operands of a vector instruction does when no spool stands for
a field and the lanes have nothing to report (R111, R237, R249-R253). -/

namespace Sys2Proof.Machine

/-- The source that a field gives when no spool stands for its register. -/
def plainSrc (s : State) : Option (BitVec 5) → VSrc
  | none => {}
  | some r => { planes := (s.est.vreg r).planes }

/-- No spool stands for a field. -/
def State.plainField (s : State) (f : Option (BitVec 5)) : Bool :=
  match f with
  | none => true
  | some r => (aliasOf s.hart s.who r).isNone

/-- The lanes have nothing to report: no stored bit of the hart has bad parity, and no check will fail (R249-R253). -/
def State.quietLanes (s : State) : Bool :=
  s.hart.damaged.isEmpty && s.core.laneErrs.isEmpty && s.core.stitchErrs.isEmpty && s.core.bufErrs.isEmpty

theorem withSrc_plain {s : State} {start : Nat} {f : Option (BitVec 5)} {k : VSrc → Res} (h : s.plainField f = true) :
    withSrc s start f k = k (plainSrc s f) := by
  cases f with
  | none => rfl
  | some r =>
    have h' : aliasOf s.hart s.who r = none := by simpa [State.plainField] using h
    simp [withSrc, readSrc, h', plainSrc]

theorem withDst_plain {s : State} {f : Option (BitVec 5)} {k : Option Nat → Res} (h : s.plainField f = true) :
    withDst s f k = k none := by
  cases f with
  | none => rfl
  | some r =>
    have h' : aliasOf s.hart s.who r = none := by simpa [State.plainField] using h
    simp [withDst, h']

theorem laneCheck_quiet {s : State} {checked : Bool} {u : LaneUse} (h : s.quietLanes = true) :
    laneCheck s checked u = (none, s) := by
  simp only [State.quietLanes, Bool.and_eq_true, List.isEmpty_iff] at h
  obtain ⟨⟨⟨hd, hl⟩, hs⟩, hb⟩ := h
  simp [laneCheck, badMarks, hd, hl, hs, hb, leastOf]

/-- Quiet lanes let an instruction go on. -/
theorem lanesThen_quiet {s : State} {checked : Bool} {u : LaneUse} {k : State → Res} (h : s.quietLanes = true) :
    lanesThen s checked u k = k s := by
  simp [lanesThen, laneCheck_quiet h]

theorem firstFault_plain (s : State) (f g : Option (BitVec 5)) (js : List Nat) :
    firstFault [plainSrc s f, plainSrc s g] js = none := by
  cases f <;> cases g <;> rfl

/-- The operands are read and the instruction goes on with them. -/
theorem vreadAll_plain {s : State} {kind : LaneKind} {va vb vd : Option (BitVec 5)} {acc : Bool} {act : List Nat}
    {k : State → VIn → Res} (ha : s.plainField va = true) (hb : s.plainField vb = true) (hd : s.plainField vd = true)
    (hl : s.quietLanes = true) :
    vreadAll s kind va vb vd acc act k =
      k s { a := plainSrc s va, b := plainSrc s vb, dst := none, act := act, base := laneBase s.hart s.who } := by
  simp only [vreadAll, withSrc_plain ha, withSrc_plain hb, withDst_plain hd, firstFault_plain, withWrites, lanesThen_quiet hl]

/-- As `vreadAll_plain`, for a memory instruction that starts at VSTART and is not being forced. -/
theorem memStart_plain {w : BitVec 32} {s : State} {p : BitVec 6} {va vb vd : Option (BitVec 5)} {act : List Nat}
    {k : State → VIn → Nat → List Nat → Option (Nat × MemStop) → Res} (hh : s.held false = false)
    (hc : s.thr.cut = none) (ha : s.plainField va = true) (hb : s.plainField vb = true) (hd : s.plainField vd = true)
    (hl : s.quietLanes = true) :
    memStart w s p va vb vd act k =
      k s { a := plainSrc s va, b := plainSrc s vb, dst := none, act := act, base := laneBase s.hart s.who }
        s.est.vstart.toNat (act.filter (fun j => decide (s.est.vstart.toNat ≤ j))) none := by
  simp only [memStart, hh, withSrc_plain ha, withSrc_plain hb, withDst_plain hd, firstFault_plain, memStop, hc,
    lanesThen_quiet hl]
  simp

end Sys2Proof.Machine
end

