-- ==== Sys2Proof/Laws/PerInstr.lean ====
section
/-! SUPPORT. Sys2Proof/Laws/PerInstr.lean: statements made of every instruction, one lemma for each constructor. -/

namespace Sys2Proof.Laws.RoundTrip

/-- The word of a well-formed instruction that has an encoding decodes to it. -/
def Statement (i : Instr) : Prop := i.encoded = true → i.wellFormed = true → decode (encode i) = .ok i

/-- An operation or event has no encoding. -/
theorem of_event {i : Instr} (h : encode i = 0) : Statement i := by
  intro he; simp [Instr.encoded, h] at he

theorem add (d a b : BitVec 5) (f g : BitVec 1) : Statement (.add d a b f g) := by
  intro _ h
  show decode (wA 1 d a b f g 0) = _
  have p0 : bits (wA 1 d a b f g 0) 26 6 = 1#6 := wA_major ..
  have p1 : bits (wA 1 d a b f g 0) 0 9 = 0#9 := wA_fn ..
  have r0 : bits (wA 1 d a b f g 0) 21 5 = d := wA_d ..
  have r1 : bits (wA 1 d a b f g 0) 16 5 = a := wA_a ..
  have r2 : bits (wA 1 d a b f g 0) 11 5 = b := wA_b ..
  have r3 : bits (wA 1 d a b f g 0) 10 1 = f := wA_f ..
  have r4 : bits (wA 1 d a b f g 0) 9 1 = g := wA_g ..
  rw [decode_1 p0, decodeInt_0 p1, r0, r1, r2, r3, r4]
  exact accept_ok (by rfl) h
theorem sub (d a b : BitVec 5) (f g : BitVec 1) : Statement (.sub d a b f g) := by
  intro _ h
  show decode (wA 1 d a b f g 1) = _
  have p0 : bits (wA 1 d a b f g 1) 26 6 = 1#6 := wA_major ..
  have p1 : bits (wA 1 d a b f g 1) 0 9 = 1#9 := wA_fn ..
  have r0 : bits (wA 1 d a b f g 1) 21 5 = d := wA_d ..
  have r1 : bits (wA 1 d a b f g 1) 16 5 = a := wA_a ..
  have r2 : bits (wA 1 d a b f g 1) 11 5 = b := wA_b ..
  have r3 : bits (wA 1 d a b f g 1) 10 1 = f := wA_f ..
  have r4 : bits (wA 1 d a b f g 1) 9 1 = g := wA_g ..
  rw [decode_1 p0, decodeInt_1 p1, r0, r1, r2, r3, r4]
  exact accept_ok (by rfl) h
theorem mul (d a b : BitVec 5) (f g : BitVec 1) : Statement (.mul d a b f g) := by
  intro _ h
  show decode (wA 1 d a b f g 2) = _
  have p0 : bits (wA 1 d a b f g 2) 26 6 = 1#6 := wA_major ..
  have p1 : bits (wA 1 d a b f g 2) 0 9 = 2#9 := wA_fn ..
  have r0 : bits (wA 1 d a b f g 2) 21 5 = d := wA_d ..
  have r1 : bits (wA 1 d a b f g 2) 16 5 = a := wA_a ..
  have r2 : bits (wA 1 d a b f g 2) 11 5 = b := wA_b ..
  have r3 : bits (wA 1 d a b f g 2) 10 1 = f := wA_f ..
  have r4 : bits (wA 1 d a b f g 2) 9 1 = g := wA_g ..
  rw [decode_1 p0, decodeInt_2 p1, r0, r1, r2, r3, r4]
  exact accept_ok (by rfl) h
theorem mulh (d a b : BitVec 5) (f g : BitVec 1) : Statement (.mulh d a b f g) := by
  intro _ h
  show decode (wA 1 d a b f g 3) = _
  have p0 : bits (wA 1 d a b f g 3) 26 6 = 1#6 := wA_major ..
  have p1 : bits (wA 1 d a b f g 3) 0 9 = 3#9 := wA_fn ..
  have r0 : bits (wA 1 d a b f g 3) 21 5 = d := wA_d ..
  have r1 : bits (wA 1 d a b f g 3) 16 5 = a := wA_a ..
  have r2 : bits (wA 1 d a b f g 3) 11 5 = b := wA_b ..
  have r3 : bits (wA 1 d a b f g 3) 10 1 = f := wA_f ..
  have r4 : bits (wA 1 d a b f g 3) 9 1 = g := wA_g ..
  rw [decode_1 p0, decodeInt_3 p1, r0, r1, r2, r3, r4]
  exact accept_ok (by rfl) h
theorem mulhn (d a b : BitVec 5) (f g : BitVec 1) : Statement (.mulhn d a b f g) := by
  intro _ h
  show decode (wA 1 d a b f g 4) = _
  have p0 : bits (wA 1 d a b f g 4) 26 6 = 1#6 := wA_major ..
  have p1 : bits (wA 1 d a b f g 4) 0 9 = 4#9 := wA_fn ..
  have r0 : bits (wA 1 d a b f g 4) 21 5 = d := wA_d ..
  have r1 : bits (wA 1 d a b f g 4) 16 5 = a := wA_a ..
  have r2 : bits (wA 1 d a b f g 4) 11 5 = b := wA_b ..
  have r3 : bits (wA 1 d a b f g 4) 10 1 = f := wA_f ..
  have r4 : bits (wA 1 d a b f g 4) 9 1 = g := wA_g ..
  rw [decode_1 p0, decodeInt_4 p1, r0, r1, r2, r3, r4]
  exact accept_ok (by rfl) h
theorem div (d a b : BitVec 5) (f g : BitVec 1) : Statement (.div d a b f g) := by
  intro _ h
  show decode (wA 1 d a b f g 5) = _
  have p0 : bits (wA 1 d a b f g 5) 26 6 = 1#6 := wA_major ..
  have p1 : bits (wA 1 d a b f g 5) 0 9 = 5#9 := wA_fn ..
  have r0 : bits (wA 1 d a b f g 5) 21 5 = d := wA_d ..
  have r1 : bits (wA 1 d a b f g 5) 16 5 = a := wA_a ..
  have r2 : bits (wA 1 d a b f g 5) 11 5 = b := wA_b ..
  have r3 : bits (wA 1 d a b f g 5) 10 1 = f := wA_f ..
  have r4 : bits (wA 1 d a b f g 5) 9 1 = g := wA_g ..
  rw [decode_1 p0, decodeInt_5 p1, r0, r1, r2, r3, r4]
  exact accept_ok (by rfl) h
theorem divn (d a b : BitVec 5) (f g : BitVec 1) : Statement (.divn d a b f g) := by
  intro _ h
  show decode (wA 1 d a b f g 6) = _
  have p0 : bits (wA 1 d a b f g 6) 26 6 = 1#6 := wA_major ..
  have p1 : bits (wA 1 d a b f g 6) 0 9 = 6#9 := wA_fn ..
  have r0 : bits (wA 1 d a b f g 6) 21 5 = d := wA_d ..
  have r1 : bits (wA 1 d a b f g 6) 16 5 = a := wA_a ..
  have r2 : bits (wA 1 d a b f g 6) 11 5 = b := wA_b ..
  have r3 : bits (wA 1 d a b f g 6) 10 1 = f := wA_f ..
  have r4 : bits (wA 1 d a b f g 6) 9 1 = g := wA_g ..
  rw [decode_1 p0, decodeInt_6 p1, r0, r1, r2, r3, r4]
  exact accept_ok (by rfl) h
theorem rem (d a b : BitVec 5) (f g : BitVec 1) : Statement (.rem d a b f g) := by
  intro _ h
  show decode (wA 1 d a b f g 7) = _
  have p0 : bits (wA 1 d a b f g 7) 26 6 = 1#6 := wA_major ..
  have p1 : bits (wA 1 d a b f g 7) 0 9 = 7#9 := wA_fn ..
  have r0 : bits (wA 1 d a b f g 7) 21 5 = d := wA_d ..
  have r1 : bits (wA 1 d a b f g 7) 16 5 = a := wA_a ..
  have r2 : bits (wA 1 d a b f g 7) 11 5 = b := wA_b ..
  have r3 : bits (wA 1 d a b f g 7) 10 1 = f := wA_f ..
  have r4 : bits (wA 1 d a b f g 7) 9 1 = g := wA_g ..
  rw [decode_1 p0, decodeInt_7 p1, r0, r1, r2, r3, r4]
  exact accept_ok (by rfl) h
theorem remn (d a b : BitVec 5) (f g : BitVec 1) : Statement (.remn d a b f g) := by
  intro _ h
  show decode (wA 1 d a b f g 8) = _
  have p0 : bits (wA 1 d a b f g 8) 26 6 = 1#6 := wA_major ..
  have p1 : bits (wA 1 d a b f g 8) 0 9 = 8#9 := wA_fn ..
  have r0 : bits (wA 1 d a b f g 8) 21 5 = d := wA_d ..
  have r1 : bits (wA 1 d a b f g 8) 16 5 = a := wA_a ..
  have r2 : bits (wA 1 d a b f g 8) 11 5 = b := wA_b ..
  have r3 : bits (wA 1 d a b f g 8) 10 1 = f := wA_f ..
  have r4 : bits (wA 1 d a b f g 8) 9 1 = g := wA_g ..
  rw [decode_1 p0, decodeInt_8 p1, r0, r1, r2, r3, r4]
  exact accept_ok (by rfl) h
theorem and (d a b : BitVec 5) (f g : BitVec 1) : Statement (.and d a b f g) := by
  intro _ h
  show decode (wA 1 d a b f g 9) = _
  have p0 : bits (wA 1 d a b f g 9) 26 6 = 1#6 := wA_major ..
  have p1 : bits (wA 1 d a b f g 9) 0 9 = 9#9 := wA_fn ..
  have r0 : bits (wA 1 d a b f g 9) 21 5 = d := wA_d ..
  have r1 : bits (wA 1 d a b f g 9) 16 5 = a := wA_a ..
  have r2 : bits (wA 1 d a b f g 9) 11 5 = b := wA_b ..
  have r3 : bits (wA 1 d a b f g 9) 10 1 = f := wA_f ..
  have r4 : bits (wA 1 d a b f g 9) 9 1 = g := wA_g ..
  rw [decode_1 p0, decodeInt_9 p1, r0, r1, r2, r3, r4]
  exact accept_ok (by rfl) h
theorem or (d a b : BitVec 5) (f g : BitVec 1) : Statement (.or d a b f g) := by
  intro _ h
  show decode (wA 1 d a b f g 10) = _
  have p0 : bits (wA 1 d a b f g 10) 26 6 = 1#6 := wA_major ..
  have p1 : bits (wA 1 d a b f g 10) 0 9 = 10#9 := wA_fn ..
  have r0 : bits (wA 1 d a b f g 10) 21 5 = d := wA_d ..
  have r1 : bits (wA 1 d a b f g 10) 16 5 = a := wA_a ..
  have r2 : bits (wA 1 d a b f g 10) 11 5 = b := wA_b ..
  have r3 : bits (wA 1 d a b f g 10) 10 1 = f := wA_f ..
  have r4 : bits (wA 1 d a b f g 10) 9 1 = g := wA_g ..
  rw [decode_1 p0, decodeInt_10 p1, r0, r1, r2, r3, r4]
  exact accept_ok (by rfl) h
theorem xor (d a b : BitVec 5) (f g : BitVec 1) : Statement (.xor d a b f g) := by
  intro _ h
  show decode (wA 1 d a b f g 11) = _
  have p0 : bits (wA 1 d a b f g 11) 26 6 = 1#6 := wA_major ..
  have p1 : bits (wA 1 d a b f g 11) 0 9 = 11#9 := wA_fn ..
  have r0 : bits (wA 1 d a b f g 11) 21 5 = d := wA_d ..
  have r1 : bits (wA 1 d a b f g 11) 16 5 = a := wA_a ..
  have r2 : bits (wA 1 d a b f g 11) 11 5 = b := wA_b ..
  have r3 : bits (wA 1 d a b f g 11) 10 1 = f := wA_f ..
  have r4 : bits (wA 1 d a b f g 11) 9 1 = g := wA_g ..
  rw [decode_1 p0, decodeInt_11 p1, r0, r1, r2, r3, r4]
  exact accept_ok (by rfl) h
theorem andn (d a b : BitVec 5) (f g : BitVec 1) : Statement (.andn d a b f g) := by
  intro _ h
  show decode (wA 1 d a b f g 12) = _
  have p0 : bits (wA 1 d a b f g 12) 26 6 = 1#6 := wA_major ..
  have p1 : bits (wA 1 d a b f g 12) 0 9 = 12#9 := wA_fn ..
  have r0 : bits (wA 1 d a b f g 12) 21 5 = d := wA_d ..
  have r1 : bits (wA 1 d a b f g 12) 16 5 = a := wA_a ..
  have r2 : bits (wA 1 d a b f g 12) 11 5 = b := wA_b ..
  have r3 : bits (wA 1 d a b f g 12) 10 1 = f := wA_f ..
  have r4 : bits (wA 1 d a b f g 12) 9 1 = g := wA_g ..
  rw [decode_1 p0, decodeInt_12 p1, r0, r1, r2, r3, r4]
  exact accept_ok (by rfl) h
theorem shl (d a b : BitVec 5) (f g : BitVec 1) : Statement (.shl d a b f g) := by
  intro _ h
  show decode (wA 1 d a b f g 13) = _
  have p0 : bits (wA 1 d a b f g 13) 26 6 = 1#6 := wA_major ..
  have p1 : bits (wA 1 d a b f g 13) 0 9 = 13#9 := wA_fn ..
  have r0 : bits (wA 1 d a b f g 13) 21 5 = d := wA_d ..
  have r1 : bits (wA 1 d a b f g 13) 16 5 = a := wA_a ..
  have r2 : bits (wA 1 d a b f g 13) 11 5 = b := wA_b ..
  have r3 : bits (wA 1 d a b f g 13) 10 1 = f := wA_f ..
  have r4 : bits (wA 1 d a b f g 13) 9 1 = g := wA_g ..
  rw [decode_1 p0, decodeInt_13 p1, r0, r1, r2, r3, r4]
  exact accept_ok (by rfl) h
theorem shr (d a b : BitVec 5) (f g : BitVec 1) : Statement (.shr d a b f g) := by
  intro _ h
  show decode (wA 1 d a b f g 14) = _
  have p0 : bits (wA 1 d a b f g 14) 26 6 = 1#6 := wA_major ..
  have p1 : bits (wA 1 d a b f g 14) 0 9 = 14#9 := wA_fn ..
  have r0 : bits (wA 1 d a b f g 14) 21 5 = d := wA_d ..
  have r1 : bits (wA 1 d a b f g 14) 16 5 = a := wA_a ..
  have r2 : bits (wA 1 d a b f g 14) 11 5 = b := wA_b ..
  have r3 : bits (wA 1 d a b f g 14) 10 1 = f := wA_f ..
  have r4 : bits (wA 1 d a b f g 14) 9 1 = g := wA_g ..
  rw [decode_1 p0, decodeInt_14 p1, r0, r1, r2, r3, r4]
  exact accept_ok (by rfl) h
theorem sar (d a b : BitVec 5) (f g : BitVec 1) : Statement (.sar d a b f g) := by
  intro _ h
  show decode (wA 1 d a b f g 15) = _
  have p0 : bits (wA 1 d a b f g 15) 26 6 = 1#6 := wA_major ..
  have p1 : bits (wA 1 d a b f g 15) 0 9 = 15#9 := wA_fn ..
  have r0 : bits (wA 1 d a b f g 15) 21 5 = d := wA_d ..
  have r1 : bits (wA 1 d a b f g 15) 16 5 = a := wA_a ..
  have r2 : bits (wA 1 d a b f g 15) 11 5 = b := wA_b ..
  have r3 : bits (wA 1 d a b f g 15) 10 1 = f := wA_f ..
  have r4 : bits (wA 1 d a b f g 15) 9 1 = g := wA_g ..
  rw [decode_1 p0, decodeInt_15 p1, r0, r1, r2, r3, r4]
  exact accept_ok (by rfl) h
theorem min (d a b : BitVec 5) (f g : BitVec 1) : Statement (.min d a b f g) := by
  intro _ h
  show decode (wA 1 d a b f g 16) = _
  have p0 : bits (wA 1 d a b f g 16) 26 6 = 1#6 := wA_major ..
  have p1 : bits (wA 1 d a b f g 16) 0 9 = 16#9 := wA_fn ..
  have r0 : bits (wA 1 d a b f g 16) 21 5 = d := wA_d ..
  have r1 : bits (wA 1 d a b f g 16) 16 5 = a := wA_a ..
  have r2 : bits (wA 1 d a b f g 16) 11 5 = b := wA_b ..
  have r3 : bits (wA 1 d a b f g 16) 10 1 = f := wA_f ..
  have r4 : bits (wA 1 d a b f g 16) 9 1 = g := wA_g ..
  rw [decode_1 p0, decodeInt_16 p1, r0, r1, r2, r3, r4]
  exact accept_ok (by rfl) h
theorem max (d a b : BitVec 5) (f g : BitVec 1) : Statement (.max d a b f g) := by
  intro _ h
  show decode (wA 1 d a b f g 17) = _
  have p0 : bits (wA 1 d a b f g 17) 26 6 = 1#6 := wA_major ..
  have p1 : bits (wA 1 d a b f g 17) 0 9 = 17#9 := wA_fn ..
  have r0 : bits (wA 1 d a b f g 17) 21 5 = d := wA_d ..
  have r1 : bits (wA 1 d a b f g 17) 16 5 = a := wA_a ..
  have r2 : bits (wA 1 d a b f g 17) 11 5 = b := wA_b ..
  have r3 : bits (wA 1 d a b f g 17) 10 1 = f := wA_f ..
  have r4 : bits (wA 1 d a b f g 17) 9 1 = g := wA_g ..
  rw [decode_1 p0, decodeInt_17 p1, r0, r1, r2, r3, r4]
  exact accept_ok (by rfl) h
theorem minn (d a b : BitVec 5) (f g : BitVec 1) : Statement (.minn d a b f g) := by
  intro _ h
  show decode (wA 1 d a b f g 18) = _
  have p0 : bits (wA 1 d a b f g 18) 26 6 = 1#6 := wA_major ..
  have p1 : bits (wA 1 d a b f g 18) 0 9 = 18#9 := wA_fn ..
  have r0 : bits (wA 1 d a b f g 18) 21 5 = d := wA_d ..
  have r1 : bits (wA 1 d a b f g 18) 16 5 = a := wA_a ..
  have r2 : bits (wA 1 d a b f g 18) 11 5 = b := wA_b ..
  have r3 : bits (wA 1 d a b f g 18) 10 1 = f := wA_f ..
  have r4 : bits (wA 1 d a b f g 18) 9 1 = g := wA_g ..
  rw [decode_1 p0, decodeInt_18 p1, r0, r1, r2, r3, r4]
  exact accept_ok (by rfl) h
theorem maxn (d a b : BitVec 5) (f g : BitVec 1) : Statement (.maxn d a b f g) := by
  intro _ h
  show decode (wA 1 d a b f g 19) = _
  have p0 : bits (wA 1 d a b f g 19) 26 6 = 1#6 := wA_major ..
  have p1 : bits (wA 1 d a b f g 19) 0 9 = 19#9 := wA_fn ..
  have r0 : bits (wA 1 d a b f g 19) 21 5 = d := wA_d ..
  have r1 : bits (wA 1 d a b f g 19) 16 5 = a := wA_a ..
  have r2 : bits (wA 1 d a b f g 19) 11 5 = b := wA_b ..
  have r3 : bits (wA 1 d a b f g 19) 10 1 = f := wA_f ..
  have r4 : bits (wA 1 d a b f g 19) 9 1 = g := wA_g ..
  rw [decode_1 p0, decodeInt_19 p1, r0, r1, r2, r3, r4]
  exact accept_ok (by rfl) h
theorem slt (d a b : BitVec 5) (f g : BitVec 1) : Statement (.slt d a b f g) := by
  intro _ h
  show decode (wA 1 d a b f g 20) = _
  have p0 : bits (wA 1 d a b f g 20) 26 6 = 1#6 := wA_major ..
  have p1 : bits (wA 1 d a b f g 20) 0 9 = 20#9 := wA_fn ..
  have r0 : bits (wA 1 d a b f g 20) 21 5 = d := wA_d ..
  have r1 : bits (wA 1 d a b f g 20) 16 5 = a := wA_a ..
  have r2 : bits (wA 1 d a b f g 20) 11 5 = b := wA_b ..
  have r3 : bits (wA 1 d a b f g 20) 10 1 = f := wA_f ..
  have r4 : bits (wA 1 d a b f g 20) 9 1 = g := wA_g ..
  rw [decode_1 p0, decodeInt_20 p1, r0, r1, r2, r3, r4]
  exact accept_ok (by rfl) h
theorem sltn (d a b : BitVec 5) (f g : BitVec 1) : Statement (.sltn d a b f g) := by
  intro _ h
  show decode (wA 1 d a b f g 21) = _
  have p0 : bits (wA 1 d a b f g 21) 26 6 = 1#6 := wA_major ..
  have p1 : bits (wA 1 d a b f g 21) 0 9 = 21#9 := wA_fn ..
  have r0 : bits (wA 1 d a b f g 21) 21 5 = d := wA_d ..
  have r1 : bits (wA 1 d a b f g 21) 16 5 = a := wA_a ..
  have r2 : bits (wA 1 d a b f g 21) 11 5 = b := wA_b ..
  have r3 : bits (wA 1 d a b f g 21) 10 1 = f := wA_f ..
  have r4 : bits (wA 1 d a b f g 21) 9 1 = g := wA_g ..
  rw [decode_1 p0, decodeInt_21 p1, r0, r1, r2, r3, r4]
  exact accept_ok (by rfl) h
theorem clz (d a : BitVec 5) (f : BitVec 1) : Statement (.clz d a f) := by
  intro _ h
  show decode (wA 1 d a 0 f 0 22) = _
  have p0 : bits (wA 1 d a 0 f 0 22) 26 6 = 1#6 := wA_major ..
  have p1 : bits (wA 1 d a 0 f 0 22) 0 9 = 22#9 := wA_fn ..
  have z0 : bits (wA 1 d a 0 f 0 22) 11 5 = 0#5 := wA_b ..
  have z1 : bits (wA 1 d a 0 f 0 22) 9 1 = 0#1 := wA_g ..
  have r0 : bits (wA 1 d a 0 f 0 22) 21 5 = d := wA_d ..
  have r1 : bits (wA 1 d a 0 f 0 22) 16 5 = a := wA_a ..
  have r2 : bits (wA 1 d a 0 f 0 22) 10 1 = f := wA_f ..
  rw [decode_1 p0, decodeInt_22 p1, r0, r1, r2]
  exact accept_ok (by simp only [List.all_cons, List.all_nil, z0, z1]; rfl) h
theorem ctz (d a : BitVec 5) (f : BitVec 1) : Statement (.ctz d a f) := by
  intro _ h
  show decode (wA 1 d a 0 f 0 23) = _
  have p0 : bits (wA 1 d a 0 f 0 23) 26 6 = 1#6 := wA_major ..
  have p1 : bits (wA 1 d a 0 f 0 23) 0 9 = 23#9 := wA_fn ..
  have z0 : bits (wA 1 d a 0 f 0 23) 11 5 = 0#5 := wA_b ..
  have z1 : bits (wA 1 d a 0 f 0 23) 9 1 = 0#1 := wA_g ..
  have r0 : bits (wA 1 d a 0 f 0 23) 21 5 = d := wA_d ..
  have r1 : bits (wA 1 d a 0 f 0 23) 16 5 = a := wA_a ..
  have r2 : bits (wA 1 d a 0 f 0 23) 10 1 = f := wA_f ..
  rw [decode_1 p0, decodeInt_23 p1, r0, r1, r2]
  exact accept_ok (by simp only [List.all_cons, List.all_nil, z0, z1]; rfl) h
theorem popc (d a : BitVec 5) (f : BitVec 1) : Statement (.popc d a f) := by
  intro _ h
  show decode (wA 1 d a 0 f 0 24) = _
  have p0 : bits (wA 1 d a 0 f 0 24) 26 6 = 1#6 := wA_major ..
  have p1 : bits (wA 1 d a 0 f 0 24) 0 9 = 24#9 := wA_fn ..
  have z0 : bits (wA 1 d a 0 f 0 24) 11 5 = 0#5 := wA_b ..
  have z1 : bits (wA 1 d a 0 f 0 24) 9 1 = 0#1 := wA_g ..
  have r0 : bits (wA 1 d a 0 f 0 24) 21 5 = d := wA_d ..
  have r1 : bits (wA 1 d a 0 f 0 24) 16 5 = a := wA_a ..
  have r2 : bits (wA 1 d a 0 f 0 24) 10 1 = f := wA_f ..
  rw [decode_1 p0, decodeInt_24 p1, r0, r1, r2]
  exact accept_ok (by simp only [List.all_cons, List.all_nil, z0, z1]; rfl) h
theorem mov (d a : BitVec 5) (f : BitVec 1) : Statement (.mov d a f) := by
  intro _ h
  show decode (wA 1 d a 0 f 0 25) = _
  have p0 : bits (wA 1 d a 0 f 0 25) 26 6 = 1#6 := wA_major ..
  have p1 : bits (wA 1 d a 0 f 0 25) 0 9 = 25#9 := wA_fn ..
  have z0 : bits (wA 1 d a 0 f 0 25) 11 5 = 0#5 := wA_b ..
  have z1 : bits (wA 1 d a 0 f 0 25) 9 1 = 0#1 := wA_g ..
  have r0 : bits (wA 1 d a 0 f 0 25) 21 5 = d := wA_d ..
  have r1 : bits (wA 1 d a 0 f 0 25) 16 5 = a := wA_a ..
  have r2 : bits (wA 1 d a 0 f 0 25) 10 1 = f := wA_f ..
  rw [decode_1 p0, decodeInt_25 p1, r0, r1, r2]
  exact accept_ok (by simp only [List.all_cons, List.all_nil, z0, z1]; rfl) h
theorem gfull (d a : BitVec 5) : Statement (.gfull d a) := by
  intro _ h
  show decode (wA 1 d a 0 0 0 26) = _
  have p0 : bits (wA 1 d a 0 0 0 26) 26 6 = 1#6 := wA_major ..
  have p1 : bits (wA 1 d a 0 0 0 26) 0 9 = 26#9 := wA_fn ..
  have z0 : bits (wA 1 d a 0 0 0 26) 9 7 = 0#7 := bits_join 9 1 10 6 7 rfl rfl (wA_g ..)
    (bits_join 10 1 11 5 6 rfl rfl (wA_f ..)
    (wA_b ..))
  have r0 : bits (wA 1 d a 0 0 0 26) 21 5 = d := wA_d ..
  have r1 : bits (wA 1 d a 0 0 0 26) 16 5 = a := wA_a ..
  rw [decode_1 p0, decodeInt_26 p1, r0, r1]
  exact accept_ok (by simp only [List.all_cons, List.all_nil, z0]; rfl) h
theorem gempty (d : BitVec 5) : Statement (.gempty d) := by
  intro _ h
  show decode (wA 1 d 0 0 0 0 27) = _
  have p0 : bits (wA 1 d 0 0 0 0 27) 26 6 = 1#6 := wA_major ..
  have p1 : bits (wA 1 d 0 0 0 0 27) 0 9 = 27#9 := wA_fn ..
  have z0 : bits (wA 1 d 0 0 0 0 27) 9 12 = 0#12 := bits_join 9 1 10 11 12 rfl rfl (wA_g ..)
    (bits_join 10 1 11 10 11 rfl rfl (wA_f ..)
    (bits_join 11 5 16 5 10 rfl rfl (wA_b ..)
    (wA_a ..)))
  have r0 : bits (wA 1 d 0 0 0 0 27) 21 5 = d := wA_d ..
  rw [decode_1 p0, decodeInt_27 p1, r0]
  exact accept_ok (by simp only [List.all_cons, List.all_nil, z0]; rfl) h
theorem addi (d a : BitVec 5) (f : BitVec 1) (i : BitVec 15) : Statement (.addi d a f i) := by
  intro _ h
  show decode (wI 2 d a f i) = _
  have p0 : bits (wI 2 d a f i) 26 6 = 2#6 := wI_major ..
  have r0 : bits (wI 2 d a f i) 21 5 = d := wI_d ..
  have r1 : bits (wI 2 d a f i) 16 5 = a := wI_a ..
  have r2 : bits (wI 2 d a f i) 15 1 = f := wI_f ..
  have r3 : bits (wI 2 d a f i) 0 15 = i := wI_i ..
  rw [decode_2 p0, r0, r1, r2, r3]
  exact accept_ok (by rfl) h
theorem andi (d a : BitVec 5) (f : BitVec 1) (i : BitVec 15) : Statement (.andi d a f i) := by
  intro _ h
  show decode (wI 3 d a f i) = _
  have p0 : bits (wI 3 d a f i) 26 6 = 3#6 := wI_major ..
  have r0 : bits (wI 3 d a f i) 21 5 = d := wI_d ..
  have r1 : bits (wI 3 d a f i) 16 5 = a := wI_a ..
  have r2 : bits (wI 3 d a f i) 15 1 = f := wI_f ..
  have r3 : bits (wI 3 d a f i) 0 15 = i := wI_i ..
  rw [decode_3 p0, r0, r1, r2, r3]
  exact accept_ok (by rfl) h
theorem ori (d a : BitVec 5) (f : BitVec 1) (i : BitVec 15) : Statement (.ori d a f i) := by
  intro _ h
  show decode (wI 4 d a f i) = _
  have p0 : bits (wI 4 d a f i) 26 6 = 4#6 := wI_major ..
  have r0 : bits (wI 4 d a f i) 21 5 = d := wI_d ..
  have r1 : bits (wI 4 d a f i) 16 5 = a := wI_a ..
  have r2 : bits (wI 4 d a f i) 15 1 = f := wI_f ..
  have r3 : bits (wI 4 d a f i) 0 15 = i := wI_i ..
  rw [decode_4 p0, r0, r1, r2, r3]
  exact accept_ok (by rfl) h
theorem xori (d a : BitVec 5) (f : BitVec 1) (i : BitVec 15) : Statement (.xori d a f i) := by
  intro _ h
  show decode (wI 5 d a f i) = _
  have p0 : bits (wI 5 d a f i) 26 6 = 5#6 := wI_major ..
  have r0 : bits (wI 5 d a f i) 21 5 = d := wI_d ..
  have r1 : bits (wI 5 d a f i) 16 5 = a := wI_a ..
  have r2 : bits (wI 5 d a f i) 15 1 = f := wI_f ..
  have r3 : bits (wI 5 d a f i) 0 15 = i := wI_i ..
  rw [decode_5 p0, r0, r1, r2, r3]
  exact accept_ok (by rfl) h
theorem shli (d a : BitVec 5) (f : BitVec 1) (n : BitVec 6) : Statement (.shli d a f n) := by
  intro _ h
  show decode (wI 6 d a f (0#9 ++ n)) = _
  have p0 : bits (wI 6 d a f (0#9 ++ n)) 26 6 = 6#6 := wI_major ..
  have p1 : bits (wI 6 d a f (0#9 ++ n)) 13 2 = 0#2 := (bits_sub (m := 15) 0 13 13 2 rfl (by decide)).trans
    ((congrArg _ (wI_i ..)).trans ((by decide : ∀ (n : BitVec 6), BitVec.extractLsb' 13 2 ((0#9 ++ n) : BitVec 15) = 0#2) n))
  have z0 : bits (wI 6 d a f (0#9 ++ n)) 6 7 = 0#7 := (bits_sub (m := 15) 0 6 6 7 rfl (by decide)).trans
    ((congrArg _ (wI_i ..)).trans ((by decide : ∀ (n : BitVec 6), BitVec.extractLsb' 6 7 ((0#9 ++ n) : BitVec 15) = 0#7) n))
  have r0 : bits (wI 6 d a f (0#9 ++ n)) 21 5 = d := wI_d ..
  have r1 : bits (wI 6 d a f (0#9 ++ n)) 16 5 = a := wI_a ..
  have r2 : bits (wI 6 d a f (0#9 ++ n)) 15 1 = f := wI_f ..
  have r3 : bits (wI 6 d a f (0#9 ++ n)) 0 6 = n := (bits_sub (m := 15) 0 0 0 6 rfl (by decide)).trans
    ((congrArg _ (wI_i ..)).trans ((by decide : ∀ (n : BitVec 6), BitVec.extractLsb' 0 6 ((0#9 ++ n) : BitVec 15) = n) n))
  rw [decode_6 p0, decodeShfi_0 p1, r0, r1, r2, r3]
  exact accept_ok (by simp only [List.all_cons, List.all_nil, z0]; rfl) h
theorem shri (d a : BitVec 5) (f : BitVec 1) (n : BitVec 6) : Statement (.shri d a f n) := by
  intro _ h
  show decode (wI 6 d a f (128#9 ++ n)) = _
  have p0 : bits (wI 6 d a f (128#9 ++ n)) 26 6 = 6#6 := wI_major ..
  have p1 : bits (wI 6 d a f (128#9 ++ n)) 13 2 = 1#2 := (bits_sub (m := 15) 0 13 13 2 rfl (by decide)).trans
    ((congrArg _ (wI_i ..)).trans ((by decide : ∀ (n : BitVec 6), BitVec.extractLsb' 13 2 ((128#9 ++ n) : BitVec 15) = 1#2) n))
  have z0 : bits (wI 6 d a f (128#9 ++ n)) 6 7 = 0#7 := (bits_sub (m := 15) 0 6 6 7 rfl (by decide)).trans
    ((congrArg _ (wI_i ..)).trans ((by decide : ∀ (n : BitVec 6), BitVec.extractLsb' 6 7 ((128#9 ++ n) : BitVec 15) = 0#7) n))
  have r0 : bits (wI 6 d a f (128#9 ++ n)) 21 5 = d := wI_d ..
  have r1 : bits (wI 6 d a f (128#9 ++ n)) 16 5 = a := wI_a ..
  have r2 : bits (wI 6 d a f (128#9 ++ n)) 15 1 = f := wI_f ..
  have r3 : bits (wI 6 d a f (128#9 ++ n)) 0 6 = n := (bits_sub (m := 15) 0 0 0 6 rfl (by decide)).trans
    ((congrArg _ (wI_i ..)).trans ((by decide : ∀ (n : BitVec 6), BitVec.extractLsb' 0 6 ((128#9 ++ n) : BitVec 15) = n) n))
  rw [decode_6 p0, decodeShfi_1 p1, r0, r1, r2, r3]
  exact accept_ok (by simp only [List.all_cons, List.all_nil, z0]; rfl) h
theorem sari (d a : BitVec 5) (f : BitVec 1) (n : BitVec 6) : Statement (.sari d a f n) := by
  intro _ h
  show decode (wI 6 d a f (256#9 ++ n)) = _
  have p0 : bits (wI 6 d a f (256#9 ++ n)) 26 6 = 6#6 := wI_major ..
  have p1 : bits (wI 6 d a f (256#9 ++ n)) 13 2 = 2#2 := (bits_sub (m := 15) 0 13 13 2 rfl (by decide)).trans
    ((congrArg _ (wI_i ..)).trans ((by decide : ∀ (n : BitVec 6), BitVec.extractLsb' 13 2 ((256#9 ++ n) : BitVec 15) = 2#2) n))
  have z0 : bits (wI 6 d a f (256#9 ++ n)) 6 7 = 0#7 := (bits_sub (m := 15) 0 6 6 7 rfl (by decide)).trans
    ((congrArg _ (wI_i ..)).trans ((by decide : ∀ (n : BitVec 6), BitVec.extractLsb' 6 7 ((256#9 ++ n) : BitVec 15) = 0#7) n))
  have r0 : bits (wI 6 d a f (256#9 ++ n)) 21 5 = d := wI_d ..
  have r1 : bits (wI 6 d a f (256#9 ++ n)) 16 5 = a := wI_a ..
  have r2 : bits (wI 6 d a f (256#9 ++ n)) 15 1 = f := wI_f ..
  have r3 : bits (wI 6 d a f (256#9 ++ n)) 0 6 = n := (bits_sub (m := 15) 0 0 0 6 rfl (by decide)).trans
    ((congrArg _ (wI_i ..)).trans ((by decide : ∀ (n : BitVec 6), BitVec.extractLsb' 0 6 ((256#9 ++ n) : BitVec 15) = n) n))
  rw [decode_6 p0, decodeShfi_2 p1, r0, r1, r2, r3]
  exact accept_ok (by simp only [List.all_cons, List.all_nil, z0]; rfl) h
theorem slti (d a : BitVec 5) (f : BitVec 1) (i : BitVec 15) : Statement (.slti d a f i) := by
  intro _ h
  show decode (wI 7 d a f i) = _
  have p0 : bits (wI 7 d a f i) 26 6 = 7#6 := wI_major ..
  have r0 : bits (wI 7 d a f i) 21 5 = d := wI_d ..
  have r1 : bits (wI 7 d a f i) 16 5 = a := wI_a ..
  have r2 : bits (wI 7 d a f i) 15 1 = f := wI_f ..
  have r3 : bits (wI 7 d a f i) 0 15 = i := wI_i ..
  rw [decode_7 p0, r0, r1, r2, r3]
  exact accept_ok (by rfl) h
theorem ins16 (d : BitVec 5) (s : BitVec 2) (i : BitVec 16) : Statement (.ins16 d s i) := by
  intro _ h
  show decode (wN 8 d s i) = _
  have p0 : bits (wN 8 d s i) 26 6 = 8#6 := wN_major ..
  have z0 : bits (wN 8 d s i) 0 3 = 0#3 := wN_gap0 ..
  have r0 : bits (wN 8 d s i) 21 5 = d := wN_d ..
  have r1 : bits (wN 8 d s i) 19 2 = s := wN_s ..
  have r2 : bits (wN 8 d s i) 3 16 = i := wN_i ..
  rw [decode_8 p0, r0, r1, r2]
  exact accept_ok (by simp only [List.all_cons, List.all_nil, z0]; rfl) h
theorem ldi (d : BitVec 5) (i : BitVec 21) : Statement (.ldi d i) := by
  intro _ h
  show decode (wD 9 d i) = _
  have p0 : bits (wD 9 d i) 26 6 = 9#6 := wD_major ..
  have r0 : bits (wD 9 d i) 21 5 = d := wD_d ..
  have r1 : bits (wD 9 d i) 0 21 = i := wD_i ..
  rw [decode_9 p0, r0, r1]
  exact accept_ok (by rfl) h
theorem ldb (d a : BitVec 5) (f : BitVec 1) (o : BitVec 12) : Statement (.ldb d a f o) := by
  intro _ h
  show decode (wM 10 d a f 0 o) = _
  have p0 : bits (wM 10 d a f 0 o) 26 6 = 10#6 := wM_major ..
  have p1 : bits (wM 10 d a f 0 o) 12 3 = 0#3 := wM_fn ..
  have r0 : bits (wM 10 d a f 0 o) 21 5 = d := wM_d ..
  have r1 : bits (wM 10 d a f 0 o) 16 5 = a := wM_a ..
  have r2 : bits (wM 10 d a f 0 o) 15 1 = f := wM_f ..
  have r3 : bits (wM 10 d a f 0 o) 0 12 = o := wM_o ..
  rw [decode_10 p0, decodeLoad_0 p1, r0, r1, r2, r3]
  exact accept_ok (by rfl) h
theorem ldbz (d a : BitVec 5) (f : BitVec 1) (o : BitVec 12) : Statement (.ldbz d a f o) := by
  intro _ h
  show decode (wM 10 d a f 1 o) = _
  have p0 : bits (wM 10 d a f 1 o) 26 6 = 10#6 := wM_major ..
  have p1 : bits (wM 10 d a f 1 o) 12 3 = 1#3 := wM_fn ..
  have r0 : bits (wM 10 d a f 1 o) 21 5 = d := wM_d ..
  have r1 : bits (wM 10 d a f 1 o) 16 5 = a := wM_a ..
  have r2 : bits (wM 10 d a f 1 o) 15 1 = f := wM_f ..
  have r3 : bits (wM 10 d a f 1 o) 0 12 = o := wM_o ..
  rw [decode_10 p0, decodeLoad_1 p1, r0, r1, r2, r3]
  exact accept_ok (by rfl) h
theorem ldh (d a : BitVec 5) (f : BitVec 1) (o : BitVec 12) : Statement (.ldh d a f o) := by
  intro _ h
  show decode (wM 10 d a f 2 o) = _
  have p0 : bits (wM 10 d a f 2 o) 26 6 = 10#6 := wM_major ..
  have p1 : bits (wM 10 d a f 2 o) 12 3 = 2#3 := wM_fn ..
  have r0 : bits (wM 10 d a f 2 o) 21 5 = d := wM_d ..
  have r1 : bits (wM 10 d a f 2 o) 16 5 = a := wM_a ..
  have r2 : bits (wM 10 d a f 2 o) 15 1 = f := wM_f ..
  have r3 : bits (wM 10 d a f 2 o) 0 12 = o := wM_o ..
  rw [decode_10 p0, decodeLoad_2 p1, r0, r1, r2, r3]
  exact accept_ok (by rfl) h
theorem ldhz (d a : BitVec 5) (f : BitVec 1) (o : BitVec 12) : Statement (.ldhz d a f o) := by
  intro _ h
  show decode (wM 10 d a f 3 o) = _
  have p0 : bits (wM 10 d a f 3 o) 26 6 = 10#6 := wM_major ..
  have p1 : bits (wM 10 d a f 3 o) 12 3 = 3#3 := wM_fn ..
  have r0 : bits (wM 10 d a f 3 o) 21 5 = d := wM_d ..
  have r1 : bits (wM 10 d a f 3 o) 16 5 = a := wM_a ..
  have r2 : bits (wM 10 d a f 3 o) 15 1 = f := wM_f ..
  have r3 : bits (wM 10 d a f 3 o) 0 12 = o := wM_o ..
  rw [decode_10 p0, decodeLoad_3 p1, r0, r1, r2, r3]
  exact accept_ok (by rfl) h
theorem ldw (d a : BitVec 5) (f : BitVec 1) (o : BitVec 12) : Statement (.ldw d a f o) := by
  intro _ h
  show decode (wM 10 d a f 4 o) = _
  have p0 : bits (wM 10 d a f 4 o) 26 6 = 10#6 := wM_major ..
  have p1 : bits (wM 10 d a f 4 o) 12 3 = 4#3 := wM_fn ..
  have r0 : bits (wM 10 d a f 4 o) 21 5 = d := wM_d ..
  have r1 : bits (wM 10 d a f 4 o) 16 5 = a := wM_a ..
  have r2 : bits (wM 10 d a f 4 o) 15 1 = f := wM_f ..
  have r3 : bits (wM 10 d a f 4 o) 0 12 = o := wM_o ..
  rw [decode_10 p0, decodeLoad_4 p1, r0, r1, r2, r3]
  exact accept_ok (by rfl) h
theorem ldwz (d a : BitVec 5) (f : BitVec 1) (o : BitVec 12) : Statement (.ldwz d a f o) := by
  intro _ h
  show decode (wM 10 d a f 5 o) = _
  have p0 : bits (wM 10 d a f 5 o) 26 6 = 10#6 := wM_major ..
  have p1 : bits (wM 10 d a f 5 o) 12 3 = 5#3 := wM_fn ..
  have r0 : bits (wM 10 d a f 5 o) 21 5 = d := wM_d ..
  have r1 : bits (wM 10 d a f 5 o) 16 5 = a := wM_a ..
  have r2 : bits (wM 10 d a f 5 o) 15 1 = f := wM_f ..
  have r3 : bits (wM 10 d a f 5 o) 0 12 = o := wM_o ..
  rw [decode_10 p0, decodeLoad_5 p1, r0, r1, r2, r3]
  exact accept_ok (by rfl) h
theorem ldd (d a : BitVec 5) (f : BitVec 1) (o : BitVec 12) : Statement (.ldd d a f o) := by
  intro _ h
  show decode (wM 10 d a f 6 o) = _
  have p0 : bits (wM 10 d a f 6 o) 26 6 = 10#6 := wM_major ..
  have p1 : bits (wM 10 d a f 6 o) 12 3 = 6#3 := wM_fn ..
  have r0 : bits (wM 10 d a f 6 o) 21 5 = d := wM_d ..
  have r1 : bits (wM 10 d a f 6 o) 16 5 = a := wM_a ..
  have r2 : bits (wM 10 d a f 6 o) 15 1 = f := wM_f ..
  have r3 : bits (wM 10 d a f 6 o) 0 12 = o := wM_o ..
  rw [decode_10 p0, decodeLoad_6 p1, r0, r1, r2, r3]
  exact accept_ok (by rfl) h
theorem ldq (d : BitVec 4) (a : BitVec 5) (f : BitVec 1) (o : BitVec 12) : Statement (.ldq d a f o) := by
  intro _ h
  show decode (wM 10 (d ++ 0#1) a f 7 o) = _
  have p0 : bits (wM 10 (d ++ 0#1) a f 7 o) 26 6 = 10#6 := wM_major ..
  have p1 : bits (wM 10 (d ++ 0#1) a f 7 o) 12 3 = 7#3 := wM_fn ..
  have z0 : bits (wM 10 (d ++ 0#1) a f 7 o) 21 1 = 0#1 := (bits_sub (m := 5) 21 0 21 1 rfl (by decide)).trans
    ((congrArg _ (wM_d ..)).trans ((by decide : ∀ (d : BitVec 4), BitVec.extractLsb' 0 1 ((d ++ 0#1) : BitVec 5) = 0#1) d))
  have r0 : bits (wM 10 (d ++ 0#1) a f 7 o) 22 4 = d := (bits_sub (m := 5) 21 1 22 4 rfl (by decide)).trans
    ((congrArg _ (wM_d ..)).trans ((by decide : ∀ (d : BitVec 4), BitVec.extractLsb' 1 4 ((d ++ 0#1) : BitVec 5) = d) d))
  have r1 : bits (wM 10 (d ++ 0#1) a f 7 o) 16 5 = a := wM_a ..
  have r2 : bits (wM 10 (d ++ 0#1) a f 7 o) 15 1 = f := wM_f ..
  have r3 : bits (wM 10 (d ++ 0#1) a f 7 o) 0 12 = o := wM_o ..
  rw [decode_10 p0, decodeLoad_7 p1, r0, r1, r2, r3]
  exact accept_ok (by simp only [List.all_cons, List.all_nil, z0]; rfl) h
theorem stb (s a : BitVec 5) (f : BitVec 1) (o : BitVec 12) : Statement (.stb s a f o) := by
  intro _ h
  show decode (wM 11 s a f 0 o) = _
  have p0 : bits (wM 11 s a f 0 o) 26 6 = 11#6 := wM_major ..
  have p1 : bits (wM 11 s a f 0 o) 12 3 = 0#3 := wM_fn ..
  have r0 : bits (wM 11 s a f 0 o) 21 5 = s := wM_d ..
  have r1 : bits (wM 11 s a f 0 o) 16 5 = a := wM_a ..
  have r2 : bits (wM 11 s a f 0 o) 15 1 = f := wM_f ..
  have r3 : bits (wM 11 s a f 0 o) 0 12 = o := wM_o ..
  rw [decode_11 p0, decodeStore_0 p1, r0, r1, r2, r3]
  exact accept_ok (by rfl) h
theorem sth (s a : BitVec 5) (f : BitVec 1) (o : BitVec 12) : Statement (.sth s a f o) := by
  intro _ h
  show decode (wM 11 s a f 1 o) = _
  have p0 : bits (wM 11 s a f 1 o) 26 6 = 11#6 := wM_major ..
  have p1 : bits (wM 11 s a f 1 o) 12 3 = 1#3 := wM_fn ..
  have r0 : bits (wM 11 s a f 1 o) 21 5 = s := wM_d ..
  have r1 : bits (wM 11 s a f 1 o) 16 5 = a := wM_a ..
  have r2 : bits (wM 11 s a f 1 o) 15 1 = f := wM_f ..
  have r3 : bits (wM 11 s a f 1 o) 0 12 = o := wM_o ..
  rw [decode_11 p0, decodeStore_1 p1, r0, r1, r2, r3]
  exact accept_ok (by rfl) h
theorem stw (s a : BitVec 5) (f : BitVec 1) (o : BitVec 12) : Statement (.stw s a f o) := by
  intro _ h
  show decode (wM 11 s a f 2 o) = _
  have p0 : bits (wM 11 s a f 2 o) 26 6 = 11#6 := wM_major ..
  have p1 : bits (wM 11 s a f 2 o) 12 3 = 2#3 := wM_fn ..
  have r0 : bits (wM 11 s a f 2 o) 21 5 = s := wM_d ..
  have r1 : bits (wM 11 s a f 2 o) 16 5 = a := wM_a ..
  have r2 : bits (wM 11 s a f 2 o) 15 1 = f := wM_f ..
  have r3 : bits (wM 11 s a f 2 o) 0 12 = o := wM_o ..
  rw [decode_11 p0, decodeStore_2 p1, r0, r1, r2, r3]
  exact accept_ok (by rfl) h
theorem std (s a : BitVec 5) (f : BitVec 1) (o : BitVec 12) : Statement (.std s a f o) := by
  intro _ h
  show decode (wM 11 s a f 3 o) = _
  have p0 : bits (wM 11 s a f 3 o) 26 6 = 11#6 := wM_major ..
  have p1 : bits (wM 11 s a f 3 o) 12 3 = 3#3 := wM_fn ..
  have r0 : bits (wM 11 s a f 3 o) 21 5 = s := wM_d ..
  have r1 : bits (wM 11 s a f 3 o) 16 5 = a := wM_a ..
  have r2 : bits (wM 11 s a f 3 o) 15 1 = f := wM_f ..
  have r3 : bits (wM 11 s a f 3 o) 0 12 = o := wM_o ..
  rw [decode_11 p0, decodeStore_3 p1, r0, r1, r2, r3]
  exact accept_ok (by rfl) h
theorem stq (s : BitVec 4) (a : BitVec 5) (f : BitVec 1) (o : BitVec 12) : Statement (.stq s a f o) := by
  intro _ h
  show decode (wM 11 (s ++ 0#1) a f 4 o) = _
  have p0 : bits (wM 11 (s ++ 0#1) a f 4 o) 26 6 = 11#6 := wM_major ..
  have p1 : bits (wM 11 (s ++ 0#1) a f 4 o) 12 3 = 4#3 := wM_fn ..
  have z0 : bits (wM 11 (s ++ 0#1) a f 4 o) 21 1 = 0#1 := (bits_sub (m := 5) 21 0 21 1 rfl (by decide)).trans
    ((congrArg _ (wM_d ..)).trans ((by decide : ∀ (s : BitVec 4), BitVec.extractLsb' 0 1 ((s ++ 0#1) : BitVec 5) = 0#1) s))
  have r0 : bits (wM 11 (s ++ 0#1) a f 4 o) 22 4 = s := (bits_sub (m := 5) 21 1 22 4 rfl (by decide)).trans
    ((congrArg _ (wM_d ..)).trans ((by decide : ∀ (s : BitVec 4), BitVec.extractLsb' 1 4 ((s ++ 0#1) : BitVec 5) = s) s))
  have r1 : bits (wM 11 (s ++ 0#1) a f 4 o) 16 5 = a := wM_a ..
  have r2 : bits (wM 11 (s ++ 0#1) a f 4 o) 15 1 = f := wM_f ..
  have r3 : bits (wM 11 (s ++ 0#1) a f 4 o) 0 12 = o := wM_o ..
  rw [decode_11 p0, decodeStore_4 p1, r0, r1, r2, r3]
  exact accept_ok (by simp only [List.all_cons, List.all_nil, z0]; rfl) h
theorem beq (a b : BitVec 5) (f g : BitVec 1) (o : BitVec 11) : Statement (.beq a b f g o) := by
  intro _ h
  show decode (wB 12 a b f g 0 o) = _
  have p0 : bits (wB 12 a b f g 0 o) 26 6 = 12#6 := wB_major ..
  have p1 : bits (wB 12 a b f g 0 o) 11 3 = 0#3 := wB_fn ..
  have r0 : bits (wB 12 a b f g 0 o) 21 5 = a := wB_a ..
  have r1 : bits (wB 12 a b f g 0 o) 16 5 = b := wB_b ..
  have r2 : bits (wB 12 a b f g 0 o) 15 1 = f := wB_f ..
  have r3 : bits (wB 12 a b f g 0 o) 14 1 = g := wB_g ..
  have r4 : bits (wB 12 a b f g 0 o) 0 11 = o := wB_o ..
  rw [decode_12 p0, decodeBranch_0 p1, r0, r1, r2, r3, r4]
  exact accept_ok (by rfl) h
theorem bne (a b : BitVec 5) (f g : BitVec 1) (o : BitVec 11) : Statement (.bne a b f g o) := by
  intro _ h
  show decode (wB 12 a b f g 1 o) = _
  have p0 : bits (wB 12 a b f g 1 o) 26 6 = 12#6 := wB_major ..
  have p1 : bits (wB 12 a b f g 1 o) 11 3 = 1#3 := wB_fn ..
  have r0 : bits (wB 12 a b f g 1 o) 21 5 = a := wB_a ..
  have r1 : bits (wB 12 a b f g 1 o) 16 5 = b := wB_b ..
  have r2 : bits (wB 12 a b f g 1 o) 15 1 = f := wB_f ..
  have r3 : bits (wB 12 a b f g 1 o) 14 1 = g := wB_g ..
  have r4 : bits (wB 12 a b f g 1 o) 0 11 = o := wB_o ..
  rw [decode_12 p0, decodeBranch_1 p1, r0, r1, r2, r3, r4]
  exact accept_ok (by rfl) h
theorem blt (a b : BitVec 5) (f g : BitVec 1) (o : BitVec 11) : Statement (.blt a b f g o) := by
  intro _ h
  show decode (wB 12 a b f g 2 o) = _
  have p0 : bits (wB 12 a b f g 2 o) 26 6 = 12#6 := wB_major ..
  have p1 : bits (wB 12 a b f g 2 o) 11 3 = 2#3 := wB_fn ..
  have r0 : bits (wB 12 a b f g 2 o) 21 5 = a := wB_a ..
  have r1 : bits (wB 12 a b f g 2 o) 16 5 = b := wB_b ..
  have r2 : bits (wB 12 a b f g 2 o) 15 1 = f := wB_f ..
  have r3 : bits (wB 12 a b f g 2 o) 14 1 = g := wB_g ..
  have r4 : bits (wB 12 a b f g 2 o) 0 11 = o := wB_o ..
  rw [decode_12 p0, decodeBranch_2 p1, r0, r1, r2, r3, r4]
  exact accept_ok (by rfl) h
theorem bge (a b : BitVec 5) (f g : BitVec 1) (o : BitVec 11) : Statement (.bge a b f g o) := by
  intro _ h
  show decode (wB 12 a b f g 3 o) = _
  have p0 : bits (wB 12 a b f g 3 o) 26 6 = 12#6 := wB_major ..
  have p1 : bits (wB 12 a b f g 3 o) 11 3 = 3#3 := wB_fn ..
  have r0 : bits (wB 12 a b f g 3 o) 21 5 = a := wB_a ..
  have r1 : bits (wB 12 a b f g 3 o) 16 5 = b := wB_b ..
  have r2 : bits (wB 12 a b f g 3 o) 15 1 = f := wB_f ..
  have r3 : bits (wB 12 a b f g 3 o) 14 1 = g := wB_g ..
  have r4 : bits (wB 12 a b f g 3 o) 0 11 = o := wB_o ..
  rw [decode_12 p0, decodeBranch_3 p1, r0, r1, r2, r3, r4]
  exact accept_ok (by rfl) h
theorem bltn (a b : BitVec 5) (f g : BitVec 1) (o : BitVec 11) : Statement (.bltn a b f g o) := by
  intro _ h
  show decode (wB 12 a b f g 4 o) = _
  have p0 : bits (wB 12 a b f g 4 o) 26 6 = 12#6 := wB_major ..
  have p1 : bits (wB 12 a b f g 4 o) 11 3 = 4#3 := wB_fn ..
  have r0 : bits (wB 12 a b f g 4 o) 21 5 = a := wB_a ..
  have r1 : bits (wB 12 a b f g 4 o) 16 5 = b := wB_b ..
  have r2 : bits (wB 12 a b f g 4 o) 15 1 = f := wB_f ..
  have r3 : bits (wB 12 a b f g 4 o) 14 1 = g := wB_g ..
  have r4 : bits (wB 12 a b f g 4 o) 0 11 = o := wB_o ..
  rw [decode_12 p0, decodeBranch_4 p1, r0, r1, r2, r3, r4]
  exact accept_ok (by rfl) h
theorem bgen (a b : BitVec 5) (f g : BitVec 1) (o : BitVec 11) : Statement (.bgen a b f g o) := by
  intro _ h
  show decode (wB 12 a b f g 5 o) = _
  have p0 : bits (wB 12 a b f g 5 o) 26 6 = 12#6 := wB_major ..
  have p1 : bits (wB 12 a b f g 5 o) 11 3 = 5#3 := wB_fn ..
  have r0 : bits (wB 12 a b f g 5 o) 21 5 = a := wB_a ..
  have r1 : bits (wB 12 a b f g 5 o) 16 5 = b := wB_b ..
  have r2 : bits (wB 12 a b f g 5 o) 15 1 = f := wB_f ..
  have r3 : bits (wB 12 a b f g 5 o) 14 1 = g := wB_g ..
  have r4 : bits (wB 12 a b f g 5 o) 0 11 = o := wB_o ..
  rw [decode_12 p0, decodeBranch_5 p1, r0, r1, r2, r3, r4]
  exact accept_ok (by rfl) h
theorem bmz (o : BitVec 11) : Statement (.bmz o) := by
  intro _ h
  show decode (wB 12 0 0 0 0 6 o) = _
  have p0 : bits (wB 12 0 0 0 0 6 o) 26 6 = 12#6 := wB_major ..
  have p1 : bits (wB 12 0 0 0 0 6 o) 11 3 = 6#3 := wB_fn ..
  have z0 : bits (wB 12 0 0 0 0 6 o) 14 12 = 0#12 := bits_join 14 1 15 11 12 rfl rfl (wB_g ..)
    (bits_join 15 1 16 10 11 rfl rfl (wB_f ..)
    (bits_join 16 5 21 5 10 rfl rfl (wB_b ..)
    (wB_a ..)))
  have r0 : bits (wB 12 0 0 0 0 6 o) 0 11 = o := wB_o ..
  rw [decode_12 p0, decodeBranch_6 p1, r0]
  exact accept_ok (by simp only [List.all_cons, List.all_nil, z0]; rfl) h
theorem boq (o : BitVec 11) : Statement (.boq o) := by
  intro _ h
  show decode (wB 12 0 0 0 0 7 o) = _
  have p0 : bits (wB 12 0 0 0 0 7 o) 26 6 = 12#6 := wB_major ..
  have p1 : bits (wB 12 0 0 0 0 7 o) 11 3 = 7#3 := wB_fn ..
  have z0 : bits (wB 12 0 0 0 0 7 o) 14 12 = 0#12 := bits_join 14 1 15 11 12 rfl rfl (wB_g ..)
    (bits_join 15 1 16 10 11 rfl rfl (wB_f ..)
    (bits_join 16 5 21 5 10 rfl rfl (wB_b ..)
    (wB_a ..)))
  have r0 : bits (wB 12 0 0 0 0 7 o) 0 11 = o := wB_o ..
  rw [decode_12 p0, decodeBranch_7 p1, r0]
  exact accept_ok (by simp only [List.all_cons, List.all_nil, z0]; rfl) h
theorem jmp (o : BitVec 26) : Statement (.jmp o) := by
  intro _ h
  show decode (wJ 13 o) = _
  have p0 : bits (wJ 13 o) 26 6 = 13#6 := wJ_major ..
  have r0 : bits (wJ 13 o) 0 26 = o := wJ_o ..
  rw [decode_13 p0, r0]
  exact accept_ok (by rfl) h
theorem call (o : BitVec 26) : Statement (.call o) := by
  intro _ h
  show decode (wJ 14 o) = _
  have p0 : bits (wJ 14 o) 26 6 = 14#6 := wJ_major ..
  have r0 : bits (wJ 14 o) 0 26 = o := wJ_o ..
  rw [decode_14 p0, r0]
  exact accept_ok (by rfl) h
theorem ret  : Statement (.ret ) := by
  intro _ h
  show decode (wZ 15 0 0 0 0) = _
  have p0 : bits (wZ 15 0 0 0 0) 26 6 = 15#6 := wZ_major ..
  have p1 : bits (wZ 15 0 0 0 0) 0 4 = 0#4 := wZ_fn ..
  have z0 : bits (wZ 15 0 0 0 0) 4 22 = 0#22 := bits_join 4 12 16 10 22 rfl rfl (wZ_i ..)
    (bits_join 16 5 21 5 10 rfl rfl (wZ_a ..)
    (wZ_d ..))
  rw [decode_15 p0, decodeCtl_0 p1]
  exact accept_ok (by simp only [List.all_cons, List.all_nil, z0]; rfl) h
theorem callr (a : BitVec 5) : Statement (.callr a) := by
  intro _ h
  show decode (wZ 15 0 a 0 1) = _
  have p0 : bits (wZ 15 0 a 0 1) 26 6 = 15#6 := wZ_major ..
  have p1 : bits (wZ 15 0 a 0 1) 0 4 = 1#4 := wZ_fn ..
  have z0 : bits (wZ 15 0 a 0 1) 21 5 = 0#5 := wZ_d ..
  have z1 : bits (wZ 15 0 a 0 1) 4 12 = 0#12 := wZ_i ..
  have r0 : bits (wZ 15 0 a 0 1) 16 5 = a := wZ_a ..
  rw [decode_15 p0, decodeCtl_1 p1, r0]
  exact accept_ok (by simp only [List.all_cons, List.all_nil, z0, z1]; rfl) h
theorem jmpr (a : BitVec 5) : Statement (.jmpr a) := by
  intro _ h
  show decode (wZ 15 0 a 0 2) = _
  have p0 : bits (wZ 15 0 a 0 2) 26 6 = 15#6 := wZ_major ..
  have p1 : bits (wZ 15 0 a 0 2) 0 4 = 2#4 := wZ_fn ..
  have z0 : bits (wZ 15 0 a 0 2) 21 5 = 0#5 := wZ_d ..
  have z1 : bits (wZ 15 0 a 0 2) 4 12 = 0#12 := wZ_i ..
  have r0 : bits (wZ 15 0 a 0 2) 16 5 = a := wZ_a ..
  rw [decode_15 p0, decodeCtl_2 p1, r0]
  exact accept_ok (by simp only [List.all_cons, List.all_nil, z0, z1]; rfl) h
theorem lexit  : Statement (.lexit ) := by
  intro _ h
  show decode (wZ 15 0 0 0 3) = _
  have p0 : bits (wZ 15 0 0 0 3) 26 6 = 15#6 := wZ_major ..
  have p1 : bits (wZ 15 0 0 0 3) 0 4 = 3#4 := wZ_fn ..
  have z0 : bits (wZ 15 0 0 0 3) 4 22 = 0#22 := bits_join 4 12 16 10 22 rfl rfl (wZ_i ..)
    (bits_join 16 5 21 5 10 rfl rfl (wZ_a ..)
    (wZ_d ..))
  rw [decode_15 p0, decodeCtl_3 p1]
  exact accept_ok (by simp only [List.all_cons, List.all_nil, z0]; rfl) h
theorem lidx (d : BitVec 5) (l : BitVec 3) : Statement (.lidx d l) := by
  intro _ h
  show decode (wZ 15 d 0 (0#9 ++ l) 4) = _
  have p0 : bits (wZ 15 d 0 (0#9 ++ l) 4) 26 6 = 15#6 := wZ_major ..
  have p1 : bits (wZ 15 d 0 (0#9 ++ l) 4) 0 4 = 4#4 := wZ_fn ..
  have z0 : bits (wZ 15 d 0 (0#9 ++ l) 4) 7 14 = 0#14 := bits_join 7 9 16 5 14 rfl rfl ((bits_sub (m := 12) 4 3 7 9 rfl (by decide)).trans
    ((congrArg _ (wZ_i ..)).trans ((by decide : ∀ (l : BitVec 3), BitVec.extractLsb' 3 9 ((0#9 ++ l) : BitVec 12) = 0#9) l)))
    (wZ_a ..)
  have r0 : bits (wZ 15 d 0 (0#9 ++ l) 4) 21 5 = d := wZ_d ..
  have r1 : bits (wZ 15 d 0 (0#9 ++ l) 4) 4 3 = l := (bits_sub (m := 12) 4 0 4 3 rfl (by decide)).trans
    ((congrArg _ (wZ_i ..)).trans ((by decide : ∀ (l : BitVec 3), BitVec.extractLsb' 0 3 ((0#9 ++ l) : BitVec 12) = l) l))
  rw [decode_15 p0, decodeCtl_4 p1, r0, r1]
  exact accept_ok (by simp only [List.all_cons, List.all_nil, z0]; rfl) h
theorem lcnt (d : BitVec 5) (l : BitVec 3) : Statement (.lcnt d l) := by
  intro _ h
  show decode (wZ 15 d 0 (0#9 ++ l) 5) = _
  have p0 : bits (wZ 15 d 0 (0#9 ++ l) 5) 26 6 = 15#6 := wZ_major ..
  have p1 : bits (wZ 15 d 0 (0#9 ++ l) 5) 0 4 = 5#4 := wZ_fn ..
  have z0 : bits (wZ 15 d 0 (0#9 ++ l) 5) 7 14 = 0#14 := bits_join 7 9 16 5 14 rfl rfl ((bits_sub (m := 12) 4 3 7 9 rfl (by decide)).trans
    ((congrArg _ (wZ_i ..)).trans ((by decide : ∀ (l : BitVec 3), BitVec.extractLsb' 3 9 ((0#9 ++ l) : BitVec 12) = 0#9) l)))
    (wZ_a ..)
  have r0 : bits (wZ 15 d 0 (0#9 ++ l) 5) 21 5 = d := wZ_d ..
  have r1 : bits (wZ 15 d 0 (0#9 ++ l) 5) 4 3 = l := (bits_sub (m := 12) 4 0 4 3 rfl (by decide)).trans
    ((congrArg _ (wZ_i ..)).trans ((by decide : ∀ (l : BitVec 3), BitVec.extractLsb' 0 3 ((0#9 ++ l) : BitVec 12) = l) l))
  rw [decode_15 p0, decodeCtl_5 p1, r0, r1]
  exact accept_ok (by simp only [List.all_cons, List.all_nil, z0]; rfl) h
theorem yield  : Statement (.yield ) := by
  intro _ h
  show decode (wZ 15 0 0 0 6) = _
  have p0 : bits (wZ 15 0 0 0 6) 26 6 = 15#6 := wZ_major ..
  have p1 : bits (wZ 15 0 0 0 6) 0 4 = 6#4 := wZ_fn ..
  have z0 : bits (wZ 15 0 0 0 6) 4 22 = 0#22 := bits_join 4 12 16 10 22 rfl rfl (wZ_i ..)
    (bits_join 16 5 21 5 10 rfl rfl (wZ_a ..)
    (wZ_d ..))
  rw [decode_15 p0, decodeCtl_6 p1]
  exact accept_ok (by simp only [List.all_cons, List.all_nil, z0]; rfl) h
theorem nop  : Statement (.nop ) := by
  intro _ h
  show decode (wZ 15 0 0 0 7) = _
  have p0 : bits (wZ 15 0 0 0 7) 26 6 = 15#6 := wZ_major ..
  have p1 : bits (wZ 15 0 0 0 7) 0 4 = 7#4 := wZ_fn ..
  have z0 : bits (wZ 15 0 0 0 7) 4 22 = 0#22 := bits_join 4 12 16 10 22 rfl rfl (wZ_i ..)
    (bits_join 16 5 21 5 10 rfl rfl (wZ_a ..)
    (wZ_d ..))
  rw [decode_15 p0, decodeCtl_7 p1]
  exact accept_ok (by simp only [List.all_cons, List.all_nil, z0]; rfl) h
theorem bopush (a : BitVec 5) : Statement (.bopush a) := by
  intro _ h
  show decode (wZ 15 0 a 0 8) = _
  have p0 : bits (wZ 15 0 a 0 8) 26 6 = 15#6 := wZ_major ..
  have p1 : bits (wZ 15 0 a 0 8) 0 4 = 8#4 := wZ_fn ..
  have z0 : bits (wZ 15 0 a 0 8) 21 5 = 0#5 := wZ_d ..
  have z1 : bits (wZ 15 0 a 0 8) 4 12 = 0#12 := wZ_i ..
  have r0 : bits (wZ 15 0 a 0 8) 16 5 = a := wZ_a ..
  rw [decode_15 p0, decodeCtl_8 p1, r0]
  exact accept_ok (by simp only [List.all_cons, List.all_nil, z0, z1]; rfl) h
theorem loop (a : BitVec 5) (e : BitVec 16) : Statement (.loop a e) := by
  intro _ h
  show decode (wL 16 a e) = _
  have p0 : bits (wL 16 a e) 26 6 = 16#6 := wL_major ..
  have z0 : bits (wL 16 a e) 16 5 = 0#5 := wL_gap16 ..
  have r0 : bits (wL 16 a e) 21 5 = a := wL_a ..
  have r1 : bits (wL 16 a e) 0 16 = e := wL_e ..
  rw [decode_16 p0, r0, r1]
  exact accept_ok (by simp only [List.all_cons, List.all_nil, z0]; rfl) h
theorem loopi (c : BitVec 10) (e : BitVec 16) : Statement (.loopi c e) := by
  intro _ h
  show decode (wLI 17 c e) = _
  have p0 : bits (wLI 17 c e) 26 6 = 17#6 := wLI_major ..
  have r0 : bits (wLI 17 c e) 16 10 = c := wLI_c ..
  have r1 : bits (wLI 17 c e) 0 16 = e := wLI_e ..
  rw [decode_17 p0, r0, r1]
  exact accept_ok (by rfl) h
theorem csrrd (d : BitVec 5) (c : BitVec 12) : Statement (.csrrd d c) := by
  intro _ h
  show decode (wZ 18 d 0 c 0) = _
  have p0 : bits (wZ 18 d 0 c 0) 26 6 = 18#6 := wZ_major ..
  have p1 : bits (wZ 18 d 0 c 0) 0 4 = 0#4 := wZ_fn ..
  have z0 : bits (wZ 18 d 0 c 0) 16 5 = 0#5 := wZ_a ..
  have r0 : bits (wZ 18 d 0 c 0) 21 5 = d := wZ_d ..
  have r1 : bits (wZ 18 d 0 c 0) 4 12 = c := wZ_i ..
  rw [decode_18 p0, decodeSys_0 p1, r0, r1]
  exact accept_ok (by simp only [List.all_cons, List.all_nil, z0]; rfl) h
theorem csrwr (a : BitVec 5) (c : BitVec 12) : Statement (.csrwr a c) := by
  intro _ h
  show decode (wZ 18 0 a c 1) = _
  have p0 : bits (wZ 18 0 a c 1) 26 6 = 18#6 := wZ_major ..
  have p1 : bits (wZ 18 0 a c 1) 0 4 = 1#4 := wZ_fn ..
  have z0 : bits (wZ 18 0 a c 1) 21 5 = 0#5 := wZ_d ..
  have r0 : bits (wZ 18 0 a c 1) 16 5 = a := wZ_a ..
  have r1 : bits (wZ 18 0 a c 1) 4 12 = c := wZ_i ..
  rw [decode_18 p0, decodeSys_1 p1, r0, r1]
  exact accept_ok (by simp only [List.all_cons, List.all_nil, z0]; rfl) h
theorem csrset (a : BitVec 5) (c : BitVec 12) : Statement (.csrset a c) := by
  intro _ h
  show decode (wZ 18 0 a c 2) = _
  have p0 : bits (wZ 18 0 a c 2) 26 6 = 18#6 := wZ_major ..
  have p1 : bits (wZ 18 0 a c 2) 0 4 = 2#4 := wZ_fn ..
  have z0 : bits (wZ 18 0 a c 2) 21 5 = 0#5 := wZ_d ..
  have r0 : bits (wZ 18 0 a c 2) 16 5 = a := wZ_a ..
  have r1 : bits (wZ 18 0 a c 2) 4 12 = c := wZ_i ..
  rw [decode_18 p0, decodeSys_2 p1, r0, r1]
  exact accept_ok (by simp only [List.all_cons, List.all_nil, z0]; rfl) h
theorem csrclr (a : BitVec 5) (c : BitVec 12) : Statement (.csrclr a c) := by
  intro _ h
  show decode (wZ 18 0 a c 3) = _
  have p0 : bits (wZ 18 0 a c 3) 26 6 = 18#6 := wZ_major ..
  have p1 : bits (wZ 18 0 a c 3) 0 4 = 3#4 := wZ_fn ..
  have z0 : bits (wZ 18 0 a c 3) 21 5 = 0#5 := wZ_d ..
  have r0 : bits (wZ 18 0 a c 3) 16 5 = a := wZ_a ..
  have r1 : bits (wZ 18 0 a c 3) 4 12 = c := wZ_i ..
  rw [decode_18 p0, decodeSys_3 p1, r0, r1]
  exact accept_ok (by simp only [List.all_cons, List.all_nil, z0]; rfl) h
theorem trap (n : BitVec 12) : Statement (.trap n) := by
  intro _ h
  show decode (wZ 18 0 0 n 4) = _
  have p0 : bits (wZ 18 0 0 n 4) 26 6 = 18#6 := wZ_major ..
  have p1 : bits (wZ 18 0 0 n 4) 0 4 = 4#4 := wZ_fn ..
  have z0 : bits (wZ 18 0 0 n 4) 16 10 = 0#10 := bits_join 16 5 21 5 10 rfl rfl (wZ_a ..)
    (wZ_d ..)
  have r0 : bits (wZ 18 0 0 n 4) 4 12 = n := wZ_i ..
  rw [decode_18 p0, decodeSys_4 p1, r0]
  exact accept_ok (by simp only [List.all_cons, List.all_nil, z0]; rfl) h
theorem rett  : Statement (.rett ) := by
  intro _ h
  show decode (wZ 18 0 0 0 5) = _
  have p0 : bits (wZ 18 0 0 0 5) 26 6 = 18#6 := wZ_major ..
  have p1 : bits (wZ 18 0 0 0 5) 0 4 = 5#4 := wZ_fn ..
  have z0 : bits (wZ 18 0 0 0 5) 4 22 = 0#22 := bits_join 4 12 16 10 22 rfl rfl (wZ_i ..)
    (bits_join 16 5 21 5 10 rfl rfl (wZ_a ..)
    (wZ_d ..))
  rw [decode_18 p0, decodeSys_5 p1]
  exact accept_ok (by simp only [List.all_cons, List.all_nil, z0]; rfl) h
theorem halt  : Statement (.halt ) := by
  intro _ h
  show decode (wZ 18 0 0 0 6) = _
  have p0 : bits (wZ 18 0 0 0 6) 26 6 = 18#6 := wZ_major ..
  have p1 : bits (wZ 18 0 0 0 6) 0 4 = 6#4 := wZ_fn ..
  have z0 : bits (wZ 18 0 0 0 6) 4 22 = 0#22 := bits_join 4 12 16 10 22 rfl rfl (wZ_i ..)
    (bits_join 16 5 21 5 10 rfl rfl (wZ_a ..)
    (wZ_d ..))
  rw [decode_18 p0, decodeSys_6 p1]
  exact accept_ok (by simp only [List.all_cons, List.all_nil, z0]; rfl) h
theorem gtsrd (d : BitVec 5) : Statement (.gtsrd d) := by
  intro _ h
  show decode (wZ 18 d 0 0 7) = _
  have p0 : bits (wZ 18 d 0 0 7) 26 6 = 18#6 := wZ_major ..
  have p1 : bits (wZ 18 d 0 0 7) 0 4 = 7#4 := wZ_fn ..
  have z0 : bits (wZ 18 d 0 0 7) 4 17 = 0#17 := bits_join 4 12 16 5 17 rfl rfl (wZ_i ..)
    (wZ_a ..)
  have r0 : bits (wZ 18 d 0 0 7) 21 5 = d := wZ_d ..
  rw [decode_18 p0, decodeSys_7 p1, r0]
  exact accept_ok (by simp only [List.all_cons, List.all_nil, z0]; rfl) h
theorem evrd (d : BitVec 3) : Statement (.evrd d) := by
  intro _ h
  show decode (wZ 18 (d ++ 0#2) 0 0 8) = _
  have p0 : bits (wZ 18 (d ++ 0#2) 0 0 8) 26 6 = 18#6 := wZ_major ..
  have p1 : bits (wZ 18 (d ++ 0#2) 0 0 8) 0 4 = 8#4 := wZ_fn ..
  have z0 : bits (wZ 18 (d ++ 0#2) 0 0 8) 4 19 = 0#19 := bits_join 4 12 16 7 19 rfl rfl (wZ_i ..)
    (bits_join 16 5 21 2 7 rfl rfl (wZ_a ..)
    ((bits_sub (m := 5) 21 0 21 2 rfl (by decide)).trans
    ((congrArg _ (wZ_d ..)).trans ((by decide : ∀ (d : BitVec 3), BitVec.extractLsb' 0 2 ((d ++ 0#2) : BitVec 5) = 0#2) d))))
  have r0 : bits (wZ 18 (d ++ 0#2) 0 0 8) 23 3 = d := (bits_sub (m := 5) 21 2 23 3 rfl (by decide)).trans
    ((congrArg _ (wZ_d ..)).trans ((by decide : ∀ (d : BitVec 3), BitVec.extractLsb' 2 3 ((d ++ 0#2) : BitVec 5) = d) d))
  rw [decode_18 p0, decodeSys_8 p1, r0]
  exact accept_ok (by simp only [List.all_cons, List.all_nil, z0]; rfl) h
theorem evwait  : Statement (.evwait ) := by
  intro _ h
  show decode (wZ 18 0 0 0 9) = _
  have p0 : bits (wZ 18 0 0 0 9) 26 6 = 18#6 := wZ_major ..
  have p1 : bits (wZ 18 0 0 0 9) 0 4 = 9#4 := wZ_fn ..
  have z0 : bits (wZ 18 0 0 0 9) 4 22 = 0#22 := bits_join 4 12 16 10 22 rfl rfl (wZ_i ..)
    (bits_join 16 5 21 5 10 rfl rfl (wZ_a ..)
    (wZ_d ..))
  rw [decode_18 p0, decodeSys_9 p1]
  exact accept_ok (by simp only [List.all_cons, List.all_nil, z0]; rfl) h
theorem waita (d a : BitVec 5) : Statement (.waita d a) := by
  intro _ h
  show decode (wZ 18 d a 0 10) = _
  have p0 : bits (wZ 18 d a 0 10) 26 6 = 18#6 := wZ_major ..
  have p1 : bits (wZ 18 d a 0 10) 0 4 = 10#4 := wZ_fn ..
  have z0 : bits (wZ 18 d a 0 10) 4 12 = 0#12 := wZ_i ..
  have r0 : bits (wZ 18 d a 0 10) 21 5 = d := wZ_d ..
  have r1 : bits (wZ 18 d a 0 10) 16 5 = a := wZ_a ..
  rw [decode_18 p0, decodeSys_10 p1, r0, r1]
  exact accept_ok (by simp only [List.all_cons, List.all_nil, z0]; rfl) h
theorem fence (o : BitVec 4) (s : BitVec 3) : Statement (.fence o s) := by
  intro _ h
  show decode (wZ 18 0 0 (0#5 ++ o ++ s) 11) = _
  have p0 : bits (wZ 18 0 0 (0#5 ++ o ++ s) 11) 26 6 = 18#6 := wZ_major ..
  have p1 : bits (wZ 18 0 0 (0#5 ++ o ++ s) 11) 0 4 = 11#4 := wZ_fn ..
  have z0 : bits (wZ 18 0 0 (0#5 ++ o ++ s) 11) 11 15 = 0#15 := bits_join 11 5 16 10 15 rfl rfl ((bits_sub (m := 12) 4 7 11 5 rfl (by decide)).trans
    ((congrArg _ (wZ_i ..)).trans ((by decide : ∀ (o : BitVec 4) (s : BitVec 3), BitVec.extractLsb' 7 5 ((0#5 ++ o ++ s) : BitVec 12) = 0#5) o s)))
    (bits_join 16 5 21 5 10 rfl rfl (wZ_a ..)
    (wZ_d ..))
  have r0 : bits (wZ 18 0 0 (0#5 ++ o ++ s) 11) 7 4 = o := (bits_sub (m := 12) 4 3 7 4 rfl (by decide)).trans
    ((congrArg _ (wZ_i ..)).trans ((by decide : ∀ (o : BitVec 4) (s : BitVec 3), BitVec.extractLsb' 3 4 ((0#5 ++ o ++ s) : BitVec 12) = o) o s))
  have r1 : bits (wZ 18 0 0 (0#5 ++ o ++ s) 11) 4 3 = s := (bits_sub (m := 12) 4 0 4 3 rfl (by decide)).trans
    ((congrArg _ (wZ_i ..)).trans ((by decide : ∀ (o : BitVec 4) (s : BitVec 3), BitVec.extractLsb' 0 3 ((0#5 ++ o ++ s) : BitVec 12) = s) o s))
  rw [decode_18 p0, decodeSys_11 p1, r0, r1]
  exact accept_ok (by simp only [List.all_cons, List.all_nil, z0]; rfl) h
theorem sbar (a : BitVec 5) : Statement (.sbar a) := by
  intro _ h
  show decode (wZ 18 0 a 0 12) = _
  have p0 : bits (wZ 18 0 a 0 12) 26 6 = 18#6 := wZ_major ..
  have p1 : bits (wZ 18 0 a 0 12) 0 4 = 12#4 := wZ_fn ..
  have z0 : bits (wZ 18 0 a 0 12) 21 5 = 0#5 := wZ_d ..
  have z1 : bits (wZ 18 0 a 0 12) 4 12 = 0#12 := wZ_i ..
  have r0 : bits (wZ 18 0 a 0 12) 16 5 = a := wZ_a ..
  rw [decode_18 p0, decodeSys_12 p1, r0]
  exact accept_ok (by simp only [List.all_cons, List.all_nil, z0, z1]; rfl) h
theorem ifence  : Statement (.ifence ) := by
  intro _ h
  show decode (wZ 18 0 0 0 13) = _
  have p0 : bits (wZ 18 0 0 0 13) 26 6 = 18#6 := wZ_major ..
  have p1 : bits (wZ 18 0 0 0 13) 0 4 = 13#4 := wZ_fn ..
  have z0 : bits (wZ 18 0 0 0 13) 4 22 = 0#22 := bits_join 4 12 16 10 22 rfl rfl (wZ_i ..)
    (bits_join 16 5 21 5 10 rfl rfl (wZ_a ..)
    (wZ_d ..))
  rw [decode_18 p0, decodeSys_13 p1]
  exact accept_ok (by simp only [List.all_cons, List.all_nil, z0]; rfl) h
theorem tlbinvAll (a : BitVec 5) (r : BitVec 1) : Statement (.tlbinvAll a r) := by
  intro _ h
  show decode (wZ 18 0 a (0#9 ++ r ++ 0#2) 14) = _
  have p0 : bits (wZ 18 0 a (0#9 ++ r ++ 0#2) 14) 26 6 = 18#6 := wZ_major ..
  have p1 : bits (wZ 18 0 a (0#9 ++ r ++ 0#2) 14) 0 4 = 14#4 := wZ_fn ..
  have p2 : bits (wZ 18 0 a (0#9 ++ r ++ 0#2) 14) 4 2 = 0#2 := (bits_sub (m := 12) 4 0 4 2 rfl (by decide)).trans
    ((congrArg _ (wZ_i ..)).trans ((by decide : ∀ (r : BitVec 1), BitVec.extractLsb' 0 2 ((0#9 ++ r ++ 0#2) : BitVec 12) = 0#2) r))
  have z0 : bits (wZ 18 0 a (0#9 ++ r ++ 0#2) 14) 21 5 = 0#5 := wZ_d ..
  have z1 : bits (wZ 18 0 a (0#9 ++ r ++ 0#2) 14) 7 9 = 0#9 := (bits_sub (m := 12) 4 3 7 9 rfl (by decide)).trans
    ((congrArg _ (wZ_i ..)).trans ((by decide : ∀ (r : BitVec 1), BitVec.extractLsb' 3 9 ((0#9 ++ r ++ 0#2) : BitVec 12) = 0#9) r))
  have r0 : bits (wZ 18 0 a (0#9 ++ r ++ 0#2) 14) 16 5 = a := wZ_a ..
  have r1 : bits (wZ 18 0 a (0#9 ++ r ++ 0#2) 14) 6 1 = r := (bits_sub (m := 12) 4 2 6 1 rfl (by decide)).trans
    ((congrArg _ (wZ_i ..)).trans ((by decide : ∀ (r : BitVec 1), BitVec.extractLsb' 2 1 ((0#9 ++ r ++ 0#2) : BitVec 12) = r) r))
  rw [decode_18 p0, decodeSys_14_0 p1 p2, r0, r1]
  exact accept_ok (by simp only [List.all_cons, List.all_nil, z0, z1]; rfl) h
theorem tlbinvPage (a : BitVec 5) (r : BitVec 1) : Statement (.tlbinvPage a r) := by
  intro _ h
  show decode (wZ 18 0 a (0#9 ++ r ++ 1#2) 14) = _
  have p0 : bits (wZ 18 0 a (0#9 ++ r ++ 1#2) 14) 26 6 = 18#6 := wZ_major ..
  have p1 : bits (wZ 18 0 a (0#9 ++ r ++ 1#2) 14) 0 4 = 14#4 := wZ_fn ..
  have p2 : bits (wZ 18 0 a (0#9 ++ r ++ 1#2) 14) 4 2 = 1#2 := (bits_sub (m := 12) 4 0 4 2 rfl (by decide)).trans
    ((congrArg _ (wZ_i ..)).trans ((by decide : ∀ (r : BitVec 1), BitVec.extractLsb' 0 2 ((0#9 ++ r ++ 1#2) : BitVec 12) = 1#2) r))
  have z0 : bits (wZ 18 0 a (0#9 ++ r ++ 1#2) 14) 21 5 = 0#5 := wZ_d ..
  have z1 : bits (wZ 18 0 a (0#9 ++ r ++ 1#2) 14) 7 9 = 0#9 := (bits_sub (m := 12) 4 3 7 9 rfl (by decide)).trans
    ((congrArg _ (wZ_i ..)).trans ((by decide : ∀ (r : BitVec 1), BitVec.extractLsb' 3 9 ((0#9 ++ r ++ 1#2) : BitVec 12) = 0#9) r))
  have r0 : bits (wZ 18 0 a (0#9 ++ r ++ 1#2) 14) 16 5 = a := wZ_a ..
  have r1 : bits (wZ 18 0 a (0#9 ++ r ++ 1#2) 14) 6 1 = r := (bits_sub (m := 12) 4 2 6 1 rfl (by decide)).trans
    ((congrArg _ (wZ_i ..)).trans ((by decide : ∀ (r : BitVec 1), BitVec.extractLsb' 2 1 ((0#9 ++ r ++ 1#2) : BitVec 12) = r) r))
  rw [decode_18 p0, decodeSys_14_1 p1 p2, r0, r1]
  exact accept_ok (by simp only [List.all_cons, List.all_nil, z0, z1]; rfl) h
theorem tlbinvContext (a : BitVec 5) (r : BitVec 1) : Statement (.tlbinvContext a r) := by
  intro _ h
  show decode (wZ 18 0 a (0#9 ++ r ++ 2#2) 14) = _
  have p0 : bits (wZ 18 0 a (0#9 ++ r ++ 2#2) 14) 26 6 = 18#6 := wZ_major ..
  have p1 : bits (wZ 18 0 a (0#9 ++ r ++ 2#2) 14) 0 4 = 14#4 := wZ_fn ..
  have p2 : bits (wZ 18 0 a (0#9 ++ r ++ 2#2) 14) 4 2 = 2#2 := (bits_sub (m := 12) 4 0 4 2 rfl (by decide)).trans
    ((congrArg _ (wZ_i ..)).trans ((by decide : ∀ (r : BitVec 1), BitVec.extractLsb' 0 2 ((0#9 ++ r ++ 2#2) : BitVec 12) = 2#2) r))
  have z0 : bits (wZ 18 0 a (0#9 ++ r ++ 2#2) 14) 21 5 = 0#5 := wZ_d ..
  have z1 : bits (wZ 18 0 a (0#9 ++ r ++ 2#2) 14) 7 9 = 0#9 := (bits_sub (m := 12) 4 3 7 9 rfl (by decide)).trans
    ((congrArg _ (wZ_i ..)).trans ((by decide : ∀ (r : BitVec 1), BitVec.extractLsb' 3 9 ((0#9 ++ r ++ 2#2) : BitVec 12) = 0#9) r))
  have r0 : bits (wZ 18 0 a (0#9 ++ r ++ 2#2) 14) 16 5 = a := wZ_a ..
  have r1 : bits (wZ 18 0 a (0#9 ++ r ++ 2#2) 14) 6 1 = r := (bits_sub (m := 12) 4 2 6 1 rfl (by decide)).trans
    ((congrArg _ (wZ_i ..)).trans ((by decide : ∀ (r : BitVec 1), BitVec.extractLsb' 2 1 ((0#9 ++ r ++ 2#2) : BitVec 12) = r) r))
  rw [decode_18 p0, decodeSys_14_2 p1 p2, r0, r1]
  exact accept_ok (by simp only [List.all_cons, List.all_nil, z0, z1]; rfl) h
theorem atadd (d a b : BitVec 5) (f g : BitVec 1) (o : BitVec 2) (s : BitVec 3) : Statement (.atadd d a b f g o s) := by
  intro _ h
  show decode (wA 19 d a b f g (0#4 ++ o ++ s)) = _
  have p0 : bits (wA 19 d a b f g (0#4 ++ o ++ s)) 26 6 = 19#6 := wA_major ..
  have p1 : bits (wA 19 d a b f g (0#4 ++ o ++ s)) 5 4 = 0#4 := (bits_sub (m := 9) 0 5 5 4 rfl (by decide)).trans
    ((congrArg _ (wA_fn ..)).trans ((by decide : ∀ (o : BitVec 2) (s : BitVec 3), BitVec.extractLsb' 5 4 ((0#4 ++ o ++ s) : BitVec 9) = 0#4) o s))
  have r0 : bits (wA 19 d a b f g (0#4 ++ o ++ s)) 21 5 = d := wA_d ..
  have r1 : bits (wA 19 d a b f g (0#4 ++ o ++ s)) 16 5 = a := wA_a ..
  have r2 : bits (wA 19 d a b f g (0#4 ++ o ++ s)) 11 5 = b := wA_b ..
  have r3 : bits (wA 19 d a b f g (0#4 ++ o ++ s)) 10 1 = f := wA_f ..
  have r4 : bits (wA 19 d a b f g (0#4 ++ o ++ s)) 9 1 = g := wA_g ..
  have r5 : bits (wA 19 d a b f g (0#4 ++ o ++ s)) 3 2 = o := (bits_sub (m := 9) 0 3 3 2 rfl (by decide)).trans
    ((congrArg _ (wA_fn ..)).trans ((by decide : ∀ (o : BitVec 2) (s : BitVec 3), BitVec.extractLsb' 3 2 ((0#4 ++ o ++ s) : BitVec 9) = o) o s))
  have r6 : bits (wA 19 d a b f g (0#4 ++ o ++ s)) 0 3 = s := (bits_sub (m := 9) 0 0 0 3 rfl (by decide)).trans
    ((congrArg _ (wA_fn ..)).trans ((by decide : ∀ (o : BitVec 2) (s : BitVec 3), BitVec.extractLsb' 0 3 ((0#4 ++ o ++ s) : BitVec 9) = s) o s))
  rw [decode_19 p0, decodeAtom_0 p1, r0, r1, r2, r3, r4, r5, r6]
  exact accept_ok (by rfl) h
theorem atswp (d a b : BitVec 5) (f g : BitVec 1) (o : BitVec 2) (s : BitVec 3) : Statement (.atswp d a b f g o s) := by
  intro _ h
  show decode (wA 19 d a b f g (1#4 ++ o ++ s)) = _
  have p0 : bits (wA 19 d a b f g (1#4 ++ o ++ s)) 26 6 = 19#6 := wA_major ..
  have p1 : bits (wA 19 d a b f g (1#4 ++ o ++ s)) 5 4 = 1#4 := (bits_sub (m := 9) 0 5 5 4 rfl (by decide)).trans
    ((congrArg _ (wA_fn ..)).trans ((by decide : ∀ (o : BitVec 2) (s : BitVec 3), BitVec.extractLsb' 5 4 ((1#4 ++ o ++ s) : BitVec 9) = 1#4) o s))
  have r0 : bits (wA 19 d a b f g (1#4 ++ o ++ s)) 21 5 = d := wA_d ..
  have r1 : bits (wA 19 d a b f g (1#4 ++ o ++ s)) 16 5 = a := wA_a ..
  have r2 : bits (wA 19 d a b f g (1#4 ++ o ++ s)) 11 5 = b := wA_b ..
  have r3 : bits (wA 19 d a b f g (1#4 ++ o ++ s)) 10 1 = f := wA_f ..
  have r4 : bits (wA 19 d a b f g (1#4 ++ o ++ s)) 9 1 = g := wA_g ..
  have r5 : bits (wA 19 d a b f g (1#4 ++ o ++ s)) 3 2 = o := (bits_sub (m := 9) 0 3 3 2 rfl (by decide)).trans
    ((congrArg _ (wA_fn ..)).trans ((by decide : ∀ (o : BitVec 2) (s : BitVec 3), BitVec.extractLsb' 3 2 ((1#4 ++ o ++ s) : BitVec 9) = o) o s))
  have r6 : bits (wA 19 d a b f g (1#4 ++ o ++ s)) 0 3 = s := (bits_sub (m := 9) 0 0 0 3 rfl (by decide)).trans
    ((congrArg _ (wA_fn ..)).trans ((by decide : ∀ (o : BitVec 2) (s : BitVec 3), BitVec.extractLsb' 0 3 ((1#4 ++ o ++ s) : BitVec 9) = s) o s))
  rw [decode_19 p0, decodeAtom_1 p1, r0, r1, r2, r3, r4, r5, r6]
  exact accept_ok (by rfl) h
theorem atcas (d a b : BitVec 5) (f g : BitVec 1) (o : BitVec 2) (s : BitVec 3) : Statement (.atcas d a b f g o s) := by
  intro _ h
  show decode (wA 19 d a b f g (2#4 ++ o ++ s)) = _
  have p0 : bits (wA 19 d a b f g (2#4 ++ o ++ s)) 26 6 = 19#6 := wA_major ..
  have p1 : bits (wA 19 d a b f g (2#4 ++ o ++ s)) 5 4 = 2#4 := (bits_sub (m := 9) 0 5 5 4 rfl (by decide)).trans
    ((congrArg _ (wA_fn ..)).trans ((by decide : ∀ (o : BitVec 2) (s : BitVec 3), BitVec.extractLsb' 5 4 ((2#4 ++ o ++ s) : BitVec 9) = 2#4) o s))
  have r0 : bits (wA 19 d a b f g (2#4 ++ o ++ s)) 21 5 = d := wA_d ..
  have r1 : bits (wA 19 d a b f g (2#4 ++ o ++ s)) 16 5 = a := wA_a ..
  have r2 : bits (wA 19 d a b f g (2#4 ++ o ++ s)) 11 5 = b := wA_b ..
  have r3 : bits (wA 19 d a b f g (2#4 ++ o ++ s)) 10 1 = f := wA_f ..
  have r4 : bits (wA 19 d a b f g (2#4 ++ o ++ s)) 9 1 = g := wA_g ..
  have r5 : bits (wA 19 d a b f g (2#4 ++ o ++ s)) 3 2 = o := (bits_sub (m := 9) 0 3 3 2 rfl (by decide)).trans
    ((congrArg _ (wA_fn ..)).trans ((by decide : ∀ (o : BitVec 2) (s : BitVec 3), BitVec.extractLsb' 3 2 ((2#4 ++ o ++ s) : BitVec 9) = o) o s))
  have r6 : bits (wA 19 d a b f g (2#4 ++ o ++ s)) 0 3 = s := (bits_sub (m := 9) 0 0 0 3 rfl (by decide)).trans
    ((congrArg _ (wA_fn ..)).trans ((by decide : ∀ (o : BitVec 2) (s : BitVec 3), BitVec.extractLsb' 0 3 ((2#4 ++ o ++ s) : BitVec 9) = s) o s))
  rw [decode_19 p0, decodeAtom_2 p1, r0, r1, r2, r3, r4, r5, r6]
  exact accept_ok (by rfl) h
theorem atmin (d a b : BitVec 5) (f g : BitVec 1) (o : BitVec 2) (s : BitVec 3) : Statement (.atmin d a b f g o s) := by
  intro _ h
  show decode (wA 19 d a b f g (3#4 ++ o ++ s)) = _
  have p0 : bits (wA 19 d a b f g (3#4 ++ o ++ s)) 26 6 = 19#6 := wA_major ..
  have p1 : bits (wA 19 d a b f g (3#4 ++ o ++ s)) 5 4 = 3#4 := (bits_sub (m := 9) 0 5 5 4 rfl (by decide)).trans
    ((congrArg _ (wA_fn ..)).trans ((by decide : ∀ (o : BitVec 2) (s : BitVec 3), BitVec.extractLsb' 5 4 ((3#4 ++ o ++ s) : BitVec 9) = 3#4) o s))
  have r0 : bits (wA 19 d a b f g (3#4 ++ o ++ s)) 21 5 = d := wA_d ..
  have r1 : bits (wA 19 d a b f g (3#4 ++ o ++ s)) 16 5 = a := wA_a ..
  have r2 : bits (wA 19 d a b f g (3#4 ++ o ++ s)) 11 5 = b := wA_b ..
  have r3 : bits (wA 19 d a b f g (3#4 ++ o ++ s)) 10 1 = f := wA_f ..
  have r4 : bits (wA 19 d a b f g (3#4 ++ o ++ s)) 9 1 = g := wA_g ..
  have r5 : bits (wA 19 d a b f g (3#4 ++ o ++ s)) 3 2 = o := (bits_sub (m := 9) 0 3 3 2 rfl (by decide)).trans
    ((congrArg _ (wA_fn ..)).trans ((by decide : ∀ (o : BitVec 2) (s : BitVec 3), BitVec.extractLsb' 3 2 ((3#4 ++ o ++ s) : BitVec 9) = o) o s))
  have r6 : bits (wA 19 d a b f g (3#4 ++ o ++ s)) 0 3 = s := (bits_sub (m := 9) 0 0 0 3 rfl (by decide)).trans
    ((congrArg _ (wA_fn ..)).trans ((by decide : ∀ (o : BitVec 2) (s : BitVec 3), BitVec.extractLsb' 0 3 ((3#4 ++ o ++ s) : BitVec 9) = s) o s))
  rw [decode_19 p0, decodeAtom_3 p1, r0, r1, r2, r3, r4, r5, r6]
  exact accept_ok (by rfl) h
theorem atmax (d a b : BitVec 5) (f g : BitVec 1) (o : BitVec 2) (s : BitVec 3) : Statement (.atmax d a b f g o s) := by
  intro _ h
  show decode (wA 19 d a b f g (4#4 ++ o ++ s)) = _
  have p0 : bits (wA 19 d a b f g (4#4 ++ o ++ s)) 26 6 = 19#6 := wA_major ..
  have p1 : bits (wA 19 d a b f g (4#4 ++ o ++ s)) 5 4 = 4#4 := (bits_sub (m := 9) 0 5 5 4 rfl (by decide)).trans
    ((congrArg _ (wA_fn ..)).trans ((by decide : ∀ (o : BitVec 2) (s : BitVec 3), BitVec.extractLsb' 5 4 ((4#4 ++ o ++ s) : BitVec 9) = 4#4) o s))
  have r0 : bits (wA 19 d a b f g (4#4 ++ o ++ s)) 21 5 = d := wA_d ..
  have r1 : bits (wA 19 d a b f g (4#4 ++ o ++ s)) 16 5 = a := wA_a ..
  have r2 : bits (wA 19 d a b f g (4#4 ++ o ++ s)) 11 5 = b := wA_b ..
  have r3 : bits (wA 19 d a b f g (4#4 ++ o ++ s)) 10 1 = f := wA_f ..
  have r4 : bits (wA 19 d a b f g (4#4 ++ o ++ s)) 9 1 = g := wA_g ..
  have r5 : bits (wA 19 d a b f g (4#4 ++ o ++ s)) 3 2 = o := (bits_sub (m := 9) 0 3 3 2 rfl (by decide)).trans
    ((congrArg _ (wA_fn ..)).trans ((by decide : ∀ (o : BitVec 2) (s : BitVec 3), BitVec.extractLsb' 3 2 ((4#4 ++ o ++ s) : BitVec 9) = o) o s))
  have r6 : bits (wA 19 d a b f g (4#4 ++ o ++ s)) 0 3 = s := (bits_sub (m := 9) 0 0 0 3 rfl (by decide)).trans
    ((congrArg _ (wA_fn ..)).trans ((by decide : ∀ (o : BitVec 2) (s : BitVec 3), BitVec.extractLsb' 0 3 ((4#4 ++ o ++ s) : BitVec 9) = s) o s))
  rw [decode_19 p0, decodeAtom_4 p1, r0, r1, r2, r3, r4, r5, r6]
  exact accept_ok (by rfl) h
theorem atminn (d a b : BitVec 5) (f g : BitVec 1) (o : BitVec 2) (s : BitVec 3) : Statement (.atminn d a b f g o s) := by
  intro _ h
  show decode (wA 19 d a b f g (5#4 ++ o ++ s)) = _
  have p0 : bits (wA 19 d a b f g (5#4 ++ o ++ s)) 26 6 = 19#6 := wA_major ..
  have p1 : bits (wA 19 d a b f g (5#4 ++ o ++ s)) 5 4 = 5#4 := (bits_sub (m := 9) 0 5 5 4 rfl (by decide)).trans
    ((congrArg _ (wA_fn ..)).trans ((by decide : ∀ (o : BitVec 2) (s : BitVec 3), BitVec.extractLsb' 5 4 ((5#4 ++ o ++ s) : BitVec 9) = 5#4) o s))
  have r0 : bits (wA 19 d a b f g (5#4 ++ o ++ s)) 21 5 = d := wA_d ..
  have r1 : bits (wA 19 d a b f g (5#4 ++ o ++ s)) 16 5 = a := wA_a ..
  have r2 : bits (wA 19 d a b f g (5#4 ++ o ++ s)) 11 5 = b := wA_b ..
  have r3 : bits (wA 19 d a b f g (5#4 ++ o ++ s)) 10 1 = f := wA_f ..
  have r4 : bits (wA 19 d a b f g (5#4 ++ o ++ s)) 9 1 = g := wA_g ..
  have r5 : bits (wA 19 d a b f g (5#4 ++ o ++ s)) 3 2 = o := (bits_sub (m := 9) 0 3 3 2 rfl (by decide)).trans
    ((congrArg _ (wA_fn ..)).trans ((by decide : ∀ (o : BitVec 2) (s : BitVec 3), BitVec.extractLsb' 3 2 ((5#4 ++ o ++ s) : BitVec 9) = o) o s))
  have r6 : bits (wA 19 d a b f g (5#4 ++ o ++ s)) 0 3 = s := (bits_sub (m := 9) 0 0 0 3 rfl (by decide)).trans
    ((congrArg _ (wA_fn ..)).trans ((by decide : ∀ (o : BitVec 2) (s : BitVec 3), BitVec.extractLsb' 0 3 ((5#4 ++ o ++ s) : BitVec 9) = s) o s))
  rw [decode_19 p0, decodeAtom_5 p1, r0, r1, r2, r3, r4, r5, r6]
  exact accept_ok (by rfl) h
theorem atmaxn (d a b : BitVec 5) (f g : BitVec 1) (o : BitVec 2) (s : BitVec 3) : Statement (.atmaxn d a b f g o s) := by
  intro _ h
  show decode (wA 19 d a b f g (6#4 ++ o ++ s)) = _
  have p0 : bits (wA 19 d a b f g (6#4 ++ o ++ s)) 26 6 = 19#6 := wA_major ..
  have p1 : bits (wA 19 d a b f g (6#4 ++ o ++ s)) 5 4 = 6#4 := (bits_sub (m := 9) 0 5 5 4 rfl (by decide)).trans
    ((congrArg _ (wA_fn ..)).trans ((by decide : ∀ (o : BitVec 2) (s : BitVec 3), BitVec.extractLsb' 5 4 ((6#4 ++ o ++ s) : BitVec 9) = 6#4) o s))
  have r0 : bits (wA 19 d a b f g (6#4 ++ o ++ s)) 21 5 = d := wA_d ..
  have r1 : bits (wA 19 d a b f g (6#4 ++ o ++ s)) 16 5 = a := wA_a ..
  have r2 : bits (wA 19 d a b f g (6#4 ++ o ++ s)) 11 5 = b := wA_b ..
  have r3 : bits (wA 19 d a b f g (6#4 ++ o ++ s)) 10 1 = f := wA_f ..
  have r4 : bits (wA 19 d a b f g (6#4 ++ o ++ s)) 9 1 = g := wA_g ..
  have r5 : bits (wA 19 d a b f g (6#4 ++ o ++ s)) 3 2 = o := (bits_sub (m := 9) 0 3 3 2 rfl (by decide)).trans
    ((congrArg _ (wA_fn ..)).trans ((by decide : ∀ (o : BitVec 2) (s : BitVec 3), BitVec.extractLsb' 3 2 ((6#4 ++ o ++ s) : BitVec 9) = o) o s))
  have r6 : bits (wA 19 d a b f g (6#4 ++ o ++ s)) 0 3 = s := (bits_sub (m := 9) 0 0 0 3 rfl (by decide)).trans
    ((congrArg _ (wA_fn ..)).trans ((by decide : ∀ (o : BitVec 2) (s : BitVec 3), BitVec.extractLsb' 0 3 ((6#4 ++ o ++ s) : BitVec 9) = s) o s))
  rw [decode_19 p0, decodeAtom_6 p1, r0, r1, r2, r3, r4, r5, r6]
  exact accept_ok (by rfl) h
theorem atand (d a b : BitVec 5) (f g : BitVec 1) (o : BitVec 2) (s : BitVec 3) : Statement (.atand d a b f g o s) := by
  intro _ h
  show decode (wA 19 d a b f g (7#4 ++ o ++ s)) = _
  have p0 : bits (wA 19 d a b f g (7#4 ++ o ++ s)) 26 6 = 19#6 := wA_major ..
  have p1 : bits (wA 19 d a b f g (7#4 ++ o ++ s)) 5 4 = 7#4 := (bits_sub (m := 9) 0 5 5 4 rfl (by decide)).trans
    ((congrArg _ (wA_fn ..)).trans ((by decide : ∀ (o : BitVec 2) (s : BitVec 3), BitVec.extractLsb' 5 4 ((7#4 ++ o ++ s) : BitVec 9) = 7#4) o s))
  have r0 : bits (wA 19 d a b f g (7#4 ++ o ++ s)) 21 5 = d := wA_d ..
  have r1 : bits (wA 19 d a b f g (7#4 ++ o ++ s)) 16 5 = a := wA_a ..
  have r2 : bits (wA 19 d a b f g (7#4 ++ o ++ s)) 11 5 = b := wA_b ..
  have r3 : bits (wA 19 d a b f g (7#4 ++ o ++ s)) 10 1 = f := wA_f ..
  have r4 : bits (wA 19 d a b f g (7#4 ++ o ++ s)) 9 1 = g := wA_g ..
  have r5 : bits (wA 19 d a b f g (7#4 ++ o ++ s)) 3 2 = o := (bits_sub (m := 9) 0 3 3 2 rfl (by decide)).trans
    ((congrArg _ (wA_fn ..)).trans ((by decide : ∀ (o : BitVec 2) (s : BitVec 3), BitVec.extractLsb' 3 2 ((7#4 ++ o ++ s) : BitVec 9) = o) o s))
  have r6 : bits (wA 19 d a b f g (7#4 ++ o ++ s)) 0 3 = s := (bits_sub (m := 9) 0 0 0 3 rfl (by decide)).trans
    ((congrArg _ (wA_fn ..)).trans ((by decide : ∀ (o : BitVec 2) (s : BitVec 3), BitVec.extractLsb' 0 3 ((7#4 ++ o ++ s) : BitVec 9) = s) o s))
  rw [decode_19 p0, decodeAtom_7 p1, r0, r1, r2, r3, r4, r5, r6]
  exact accept_ok (by rfl) h
theorem ator (d a b : BitVec 5) (f g : BitVec 1) (o : BitVec 2) (s : BitVec 3) : Statement (.ator d a b f g o s) := by
  intro _ h
  show decode (wA 19 d a b f g (8#4 ++ o ++ s)) = _
  have p0 : bits (wA 19 d a b f g (8#4 ++ o ++ s)) 26 6 = 19#6 := wA_major ..
  have p1 : bits (wA 19 d a b f g (8#4 ++ o ++ s)) 5 4 = 8#4 := (bits_sub (m := 9) 0 5 5 4 rfl (by decide)).trans
    ((congrArg _ (wA_fn ..)).trans ((by decide : ∀ (o : BitVec 2) (s : BitVec 3), BitVec.extractLsb' 5 4 ((8#4 ++ o ++ s) : BitVec 9) = 8#4) o s))
  have r0 : bits (wA 19 d a b f g (8#4 ++ o ++ s)) 21 5 = d := wA_d ..
  have r1 : bits (wA 19 d a b f g (8#4 ++ o ++ s)) 16 5 = a := wA_a ..
  have r2 : bits (wA 19 d a b f g (8#4 ++ o ++ s)) 11 5 = b := wA_b ..
  have r3 : bits (wA 19 d a b f g (8#4 ++ o ++ s)) 10 1 = f := wA_f ..
  have r4 : bits (wA 19 d a b f g (8#4 ++ o ++ s)) 9 1 = g := wA_g ..
  have r5 : bits (wA 19 d a b f g (8#4 ++ o ++ s)) 3 2 = o := (bits_sub (m := 9) 0 3 3 2 rfl (by decide)).trans
    ((congrArg _ (wA_fn ..)).trans ((by decide : ∀ (o : BitVec 2) (s : BitVec 3), BitVec.extractLsb' 3 2 ((8#4 ++ o ++ s) : BitVec 9) = o) o s))
  have r6 : bits (wA 19 d a b f g (8#4 ++ o ++ s)) 0 3 = s := (bits_sub (m := 9) 0 0 0 3 rfl (by decide)).trans
    ((congrArg _ (wA_fn ..)).trans ((by decide : ∀ (o : BitVec 2) (s : BitVec 3), BitVec.extractLsb' 0 3 ((8#4 ++ o ++ s) : BitVec 9) = s) o s))
  rw [decode_19 p0, decodeAtom_8 p1, r0, r1, r2, r3, r4, r5, r6]
  exact accept_ok (by rfl) h
theorem atxor (d a b : BitVec 5) (f g : BitVec 1) (o : BitVec 2) (s : BitVec 3) : Statement (.atxor d a b f g o s) := by
  intro _ h
  show decode (wA 19 d a b f g (9#4 ++ o ++ s)) = _
  have p0 : bits (wA 19 d a b f g (9#4 ++ o ++ s)) 26 6 = 19#6 := wA_major ..
  have p1 : bits (wA 19 d a b f g (9#4 ++ o ++ s)) 5 4 = 9#4 := (bits_sub (m := 9) 0 5 5 4 rfl (by decide)).trans
    ((congrArg _ (wA_fn ..)).trans ((by decide : ∀ (o : BitVec 2) (s : BitVec 3), BitVec.extractLsb' 5 4 ((9#4 ++ o ++ s) : BitVec 9) = 9#4) o s))
  have r0 : bits (wA 19 d a b f g (9#4 ++ o ++ s)) 21 5 = d := wA_d ..
  have r1 : bits (wA 19 d a b f g (9#4 ++ o ++ s)) 16 5 = a := wA_a ..
  have r2 : bits (wA 19 d a b f g (9#4 ++ o ++ s)) 11 5 = b := wA_b ..
  have r3 : bits (wA 19 d a b f g (9#4 ++ o ++ s)) 10 1 = f := wA_f ..
  have r4 : bits (wA 19 d a b f g (9#4 ++ o ++ s)) 9 1 = g := wA_g ..
  have r5 : bits (wA 19 d a b f g (9#4 ++ o ++ s)) 3 2 = o := (bits_sub (m := 9) 0 3 3 2 rfl (by decide)).trans
    ((congrArg _ (wA_fn ..)).trans ((by decide : ∀ (o : BitVec 2) (s : BitVec 3), BitVec.extractLsb' 3 2 ((9#4 ++ o ++ s) : BitVec 9) = o) o s))
  have r6 : bits (wA 19 d a b f g (9#4 ++ o ++ s)) 0 3 = s := (bits_sub (m := 9) 0 0 0 3 rfl (by decide)).trans
    ((congrArg _ (wA_fn ..)).trans ((by decide : ∀ (o : BitVec 2) (s : BitVec 3), BitVec.extractLsb' 0 3 ((9#4 ++ o ++ s) : BitVec 9) = s) o s))
  rw [decode_19 p0, decodeAtom_9 p1, r0, r1, r2, r3, r4, r5, r6]
  exact accept_ok (by rfl) h
theorem redadd (a b : BitVec 5) (f g o : BitVec 1) (s : BitVec 3) : Statement (.redadd a b f g o s) := by
  intro _ h
  show decode (wA 19 0 a b f g (10#4 ++ o ++ 0#1 ++ s)) = _
  have p0 : bits (wA 19 0 a b f g (10#4 ++ o ++ 0#1 ++ s)) 26 6 = 19#6 := wA_major ..
  have p1 : bits (wA 19 0 a b f g (10#4 ++ o ++ 0#1 ++ s)) 5 4 = 10#4 := (bits_sub (m := 9) 0 5 5 4 rfl (by decide)).trans
    ((congrArg _ (wA_fn ..)).trans ((by decide : ∀ (o : BitVec 1) (s : BitVec 3), BitVec.extractLsb' 5 4 ((10#4 ++ o ++ 0#1 ++ s) : BitVec 9) = 10#4) o s))
  have z0 : bits (wA 19 0 a b f g (10#4 ++ o ++ 0#1 ++ s)) 21 5 = 0#5 := wA_d ..
  have z1 : bits (wA 19 0 a b f g (10#4 ++ o ++ 0#1 ++ s)) 3 1 = 0#1 := (bits_sub (m := 9) 0 3 3 1 rfl (by decide)).trans
    ((congrArg _ (wA_fn ..)).trans ((by decide : ∀ (o : BitVec 1) (s : BitVec 3), BitVec.extractLsb' 3 1 ((10#4 ++ o ++ 0#1 ++ s) : BitVec 9) = 0#1) o s))
  have r0 : bits (wA 19 0 a b f g (10#4 ++ o ++ 0#1 ++ s)) 16 5 = a := wA_a ..
  have r1 : bits (wA 19 0 a b f g (10#4 ++ o ++ 0#1 ++ s)) 11 5 = b := wA_b ..
  have r2 : bits (wA 19 0 a b f g (10#4 ++ o ++ 0#1 ++ s)) 10 1 = f := wA_f ..
  have r3 : bits (wA 19 0 a b f g (10#4 ++ o ++ 0#1 ++ s)) 9 1 = g := wA_g ..
  have r4 : bits (wA 19 0 a b f g (10#4 ++ o ++ 0#1 ++ s)) 4 1 = o := (bits_sub (m := 9) 0 4 4 1 rfl (by decide)).trans
    ((congrArg _ (wA_fn ..)).trans ((by decide : ∀ (o : BitVec 1) (s : BitVec 3), BitVec.extractLsb' 4 1 ((10#4 ++ o ++ 0#1 ++ s) : BitVec 9) = o) o s))
  have r5 : bits (wA 19 0 a b f g (10#4 ++ o ++ 0#1 ++ s)) 0 3 = s := (bits_sub (m := 9) 0 0 0 3 rfl (by decide)).trans
    ((congrArg _ (wA_fn ..)).trans ((by decide : ∀ (o : BitVec 1) (s : BitVec 3), BitVec.extractLsb' 0 3 ((10#4 ++ o ++ 0#1 ++ s) : BitVec 9) = s) o s))
  rw [decode_19 p0, decodeAtom_10 p1, r0, r1, r2, r3, r4, r5]
  exact accept_ok (by simp only [List.all_cons, List.all_nil, z0, z1]; rfl) h
theorem redmin (a b : BitVec 5) (f g o : BitVec 1) (s : BitVec 3) : Statement (.redmin a b f g o s) := by
  intro _ h
  show decode (wA 19 0 a b f g (11#4 ++ o ++ 0#1 ++ s)) = _
  have p0 : bits (wA 19 0 a b f g (11#4 ++ o ++ 0#1 ++ s)) 26 6 = 19#6 := wA_major ..
  have p1 : bits (wA 19 0 a b f g (11#4 ++ o ++ 0#1 ++ s)) 5 4 = 11#4 := (bits_sub (m := 9) 0 5 5 4 rfl (by decide)).trans
    ((congrArg _ (wA_fn ..)).trans ((by decide : ∀ (o : BitVec 1) (s : BitVec 3), BitVec.extractLsb' 5 4 ((11#4 ++ o ++ 0#1 ++ s) : BitVec 9) = 11#4) o s))
  have z0 : bits (wA 19 0 a b f g (11#4 ++ o ++ 0#1 ++ s)) 21 5 = 0#5 := wA_d ..
  have z1 : bits (wA 19 0 a b f g (11#4 ++ o ++ 0#1 ++ s)) 3 1 = 0#1 := (bits_sub (m := 9) 0 3 3 1 rfl (by decide)).trans
    ((congrArg _ (wA_fn ..)).trans ((by decide : ∀ (o : BitVec 1) (s : BitVec 3), BitVec.extractLsb' 3 1 ((11#4 ++ o ++ 0#1 ++ s) : BitVec 9) = 0#1) o s))
  have r0 : bits (wA 19 0 a b f g (11#4 ++ o ++ 0#1 ++ s)) 16 5 = a := wA_a ..
  have r1 : bits (wA 19 0 a b f g (11#4 ++ o ++ 0#1 ++ s)) 11 5 = b := wA_b ..
  have r2 : bits (wA 19 0 a b f g (11#4 ++ o ++ 0#1 ++ s)) 10 1 = f := wA_f ..
  have r3 : bits (wA 19 0 a b f g (11#4 ++ o ++ 0#1 ++ s)) 9 1 = g := wA_g ..
  have r4 : bits (wA 19 0 a b f g (11#4 ++ o ++ 0#1 ++ s)) 4 1 = o := (bits_sub (m := 9) 0 4 4 1 rfl (by decide)).trans
    ((congrArg _ (wA_fn ..)).trans ((by decide : ∀ (o : BitVec 1) (s : BitVec 3), BitVec.extractLsb' 4 1 ((11#4 ++ o ++ 0#1 ++ s) : BitVec 9) = o) o s))
  have r5 : bits (wA 19 0 a b f g (11#4 ++ o ++ 0#1 ++ s)) 0 3 = s := (bits_sub (m := 9) 0 0 0 3 rfl (by decide)).trans
    ((congrArg _ (wA_fn ..)).trans ((by decide : ∀ (o : BitVec 1) (s : BitVec 3), BitVec.extractLsb' 0 3 ((11#4 ++ o ++ 0#1 ++ s) : BitVec 9) = s) o s))
  rw [decode_19 p0, decodeAtom_11 p1, r0, r1, r2, r3, r4, r5]
  exact accept_ok (by simp only [List.all_cons, List.all_nil, z0, z1]; rfl) h
theorem redmax (a b : BitVec 5) (f g o : BitVec 1) (s : BitVec 3) : Statement (.redmax a b f g o s) := by
  intro _ h
  show decode (wA 19 0 a b f g (12#4 ++ o ++ 0#1 ++ s)) = _
  have p0 : bits (wA 19 0 a b f g (12#4 ++ o ++ 0#1 ++ s)) 26 6 = 19#6 := wA_major ..
  have p1 : bits (wA 19 0 a b f g (12#4 ++ o ++ 0#1 ++ s)) 5 4 = 12#4 := (bits_sub (m := 9) 0 5 5 4 rfl (by decide)).trans
    ((congrArg _ (wA_fn ..)).trans ((by decide : ∀ (o : BitVec 1) (s : BitVec 3), BitVec.extractLsb' 5 4 ((12#4 ++ o ++ 0#1 ++ s) : BitVec 9) = 12#4) o s))
  have z0 : bits (wA 19 0 a b f g (12#4 ++ o ++ 0#1 ++ s)) 21 5 = 0#5 := wA_d ..
  have z1 : bits (wA 19 0 a b f g (12#4 ++ o ++ 0#1 ++ s)) 3 1 = 0#1 := (bits_sub (m := 9) 0 3 3 1 rfl (by decide)).trans
    ((congrArg _ (wA_fn ..)).trans ((by decide : ∀ (o : BitVec 1) (s : BitVec 3), BitVec.extractLsb' 3 1 ((12#4 ++ o ++ 0#1 ++ s) : BitVec 9) = 0#1) o s))
  have r0 : bits (wA 19 0 a b f g (12#4 ++ o ++ 0#1 ++ s)) 16 5 = a := wA_a ..
  have r1 : bits (wA 19 0 a b f g (12#4 ++ o ++ 0#1 ++ s)) 11 5 = b := wA_b ..
  have r2 : bits (wA 19 0 a b f g (12#4 ++ o ++ 0#1 ++ s)) 10 1 = f := wA_f ..
  have r3 : bits (wA 19 0 a b f g (12#4 ++ o ++ 0#1 ++ s)) 9 1 = g := wA_g ..
  have r4 : bits (wA 19 0 a b f g (12#4 ++ o ++ 0#1 ++ s)) 4 1 = o := (bits_sub (m := 9) 0 4 4 1 rfl (by decide)).trans
    ((congrArg _ (wA_fn ..)).trans ((by decide : ∀ (o : BitVec 1) (s : BitVec 3), BitVec.extractLsb' 4 1 ((12#4 ++ o ++ 0#1 ++ s) : BitVec 9) = o) o s))
  have r5 : bits (wA 19 0 a b f g (12#4 ++ o ++ 0#1 ++ s)) 0 3 = s := (bits_sub (m := 9) 0 0 0 3 rfl (by decide)).trans
    ((congrArg _ (wA_fn ..)).trans ((by decide : ∀ (o : BitVec 1) (s : BitVec 3), BitVec.extractLsb' 0 3 ((12#4 ++ o ++ 0#1 ++ s) : BitVec 9) = s) o s))
  rw [decode_19 p0, decodeAtom_12 p1, r0, r1, r2, r3, r4, r5]
  exact accept_ok (by simp only [List.all_cons, List.all_nil, z0, z1]; rfl) h
theorem lda (d a : BitVec 5) (f : BitVec 1) (s : BitVec 3) : Statement (.lda d a f s) := by
  intro _ h
  show decode (wA 19 d a 0 f 0 (53#6 ++ s)) = _
  have p0 : bits (wA 19 d a 0 f 0 (53#6 ++ s)) 26 6 = 19#6 := wA_major ..
  have p1 : bits (wA 19 d a 0 f 0 (53#6 ++ s)) 5 4 = 13#4 := (bits_sub (m := 9) 0 5 5 4 rfl (by decide)).trans
    ((congrArg _ (wA_fn ..)).trans ((by decide : ∀ (s : BitVec 3), BitVec.extractLsb' 5 4 ((53#6 ++ s) : BitVec 9) = 13#4) s))
  have g0 : bits (wA 19 d a 0 f 0 (53#6 ++ s)) 3 2 = 1#2 := (bits_sub (m := 9) 0 3 3 2 rfl (by decide)).trans
    ((congrArg _ (wA_fn ..)).trans ((by decide : ∀ (s : BitVec 3), BitVec.extractLsb' 3 2 ((53#6 ++ s) : BitVec 9) = 1#2) s))
  have z0 : bits (wA 19 d a 0 f 0 (53#6 ++ s)) 11 5 = 0#5 := wA_b ..
  have z1 : bits (wA 19 d a 0 f 0 (53#6 ++ s)) 9 1 = 0#1 := wA_g ..
  have r0 : bits (wA 19 d a 0 f 0 (53#6 ++ s)) 21 5 = d := wA_d ..
  have r1 : bits (wA 19 d a 0 f 0 (53#6 ++ s)) 16 5 = a := wA_a ..
  have r2 : bits (wA 19 d a 0 f 0 (53#6 ++ s)) 10 1 = f := wA_f ..
  have r3 : bits (wA 19 d a 0 f 0 (53#6 ++ s)) 0 3 = s := (bits_sub (m := 9) 0 0 0 3 rfl (by decide)).trans
    ((congrArg _ (wA_fn ..)).trans ((by decide : ∀ (s : BitVec 3), BitVec.extractLsb' 0 3 ((53#6 ++ s) : BitVec 9) = s) s))
  rw [decode_19 p0, decodeAtom_13 p1 g0, r0, r1, r2, r3]
  exact accept_ok (by simp only [List.all_cons, List.all_nil, z0, z1]; rfl) h
theorem stl (a b : BitVec 5) (f g : BitVec 1) (s : BitVec 3) : Statement (.stl a b f g s) := by
  intro _ h
  show decode (wA 19 0 a b f g (58#6 ++ s)) = _
  have p0 : bits (wA 19 0 a b f g (58#6 ++ s)) 26 6 = 19#6 := wA_major ..
  have p1 : bits (wA 19 0 a b f g (58#6 ++ s)) 5 4 = 14#4 := (bits_sub (m := 9) 0 5 5 4 rfl (by decide)).trans
    ((congrArg _ (wA_fn ..)).trans ((by decide : ∀ (s : BitVec 3), BitVec.extractLsb' 5 4 ((58#6 ++ s) : BitVec 9) = 14#4) s))
  have g0 : bits (wA 19 0 a b f g (58#6 ++ s)) 3 2 = 2#2 := (bits_sub (m := 9) 0 3 3 2 rfl (by decide)).trans
    ((congrArg _ (wA_fn ..)).trans ((by decide : ∀ (s : BitVec 3), BitVec.extractLsb' 3 2 ((58#6 ++ s) : BitVec 9) = 2#2) s))
  have z0 : bits (wA 19 0 a b f g (58#6 ++ s)) 21 5 = 0#5 := wA_d ..
  have r0 : bits (wA 19 0 a b f g (58#6 ++ s)) 16 5 = a := wA_a ..
  have r1 : bits (wA 19 0 a b f g (58#6 ++ s)) 11 5 = b := wA_b ..
  have r2 : bits (wA 19 0 a b f g (58#6 ++ s)) 10 1 = f := wA_f ..
  have r3 : bits (wA 19 0 a b f g (58#6 ++ s)) 9 1 = g := wA_g ..
  have r4 : bits (wA 19 0 a b f g (58#6 ++ s)) 0 3 = s := (bits_sub (m := 9) 0 0 0 3 rfl (by decide)).trans
    ((congrArg _ (wA_fn ..)).trans ((by decide : ∀ (s : BitVec 3), BitVec.extractLsb' 0 3 ((58#6 ++ s) : BitVec 9) = s) s))
  rw [decode_19 p0, decodeAtom_14 p1 g0, r0, r1, r2, r3, r4]
  exact accept_ok (by simp only [List.all_cons, List.all_nil, z0]; rfl) h
theorem sytas (d a : BitVec 5) (f : BitVec 1) : Statement (.sytas d a f) := by
  intro _ h
  show decode (wA 20 d a 0 f 0 0) = _
  have p0 : bits (wA 20 d a 0 f 0 0) 26 6 = 20#6 := wA_major ..
  have p1 : bits (wA 20 d a 0 f 0 0) 0 9 = 0#9 := wA_fn ..
  have z0 : bits (wA 20 d a 0 f 0 0) 11 5 = 0#5 := wA_b ..
  have z1 : bits (wA 20 d a 0 f 0 0) 9 1 = 0#1 := wA_g ..
  have r0 : bits (wA 20 d a 0 f 0 0) 21 5 = d := wA_d ..
  have r1 : bits (wA 20 d a 0 f 0 0) 16 5 = a := wA_a ..
  have r2 : bits (wA 20 d a 0 f 0 0) 10 1 = f := wA_f ..
  rw [decode_20 p0, decodeSync_0 p1, r0, r1, r2]
  exact accept_ok (by simp only [List.all_cons, List.all_nil, z0, z1]; rfl) h
theorem syfadd (d a b : BitVec 5) (f g : BitVec 1) : Statement (.syfadd d a b f g) := by
  intro _ h
  show decode (wA 20 d a b f g 1) = _
  have p0 : bits (wA 20 d a b f g 1) 26 6 = 20#6 := wA_major ..
  have p1 : bits (wA 20 d a b f g 1) 0 9 = 1#9 := wA_fn ..
  have r0 : bits (wA 20 d a b f g 1) 21 5 = d := wA_d ..
  have r1 : bits (wA 20 d a b f g 1) 16 5 = a := wA_a ..
  have r2 : bits (wA 20 d a b f g 1) 11 5 = b := wA_b ..
  have r3 : bits (wA 20 d a b f g 1) 10 1 = f := wA_f ..
  have r4 : bits (wA 20 d a b f g 1) 9 1 = g := wA_g ..
  rw [decode_20 p0, decodeSync_1 p1, r0, r1, r2, r3, r4]
  exact accept_ok (by rfl) h
theorem syrd (d a : BitVec 5) (f : BitVec 1) : Statement (.syrd d a f) := by
  intro _ h
  show decode (wA 20 d a 0 f 0 2) = _
  have p0 : bits (wA 20 d a 0 f 0 2) 26 6 = 20#6 := wA_major ..
  have p1 : bits (wA 20 d a 0 f 0 2) 0 9 = 2#9 := wA_fn ..
  have z0 : bits (wA 20 d a 0 f 0 2) 11 5 = 0#5 := wA_b ..
  have z1 : bits (wA 20 d a 0 f 0 2) 9 1 = 0#1 := wA_g ..
  have r0 : bits (wA 20 d a 0 f 0 2) 21 5 = d := wA_d ..
  have r1 : bits (wA 20 d a 0 f 0 2) 16 5 = a := wA_a ..
  have r2 : bits (wA 20 d a 0 f 0 2) 10 1 = f := wA_f ..
  rw [decode_20 p0, decodeSync_2 p1, r0, r1, r2]
  exact accept_ok (by simp only [List.all_cons, List.all_nil, z0, z1]; rfl) h
theorem sywr (a b : BitVec 5) (f g : BitVec 1) : Statement (.sywr a b f g) := by
  intro _ h
  show decode (wA 20 0 a b f g 3) = _
  have p0 : bits (wA 20 0 a b f g 3) 26 6 = 20#6 := wA_major ..
  have p1 : bits (wA 20 0 a b f g 3) 0 9 = 3#9 := wA_fn ..
  have z0 : bits (wA 20 0 a b f g 3) 21 5 = 0#5 := wA_d ..
  have r0 : bits (wA 20 0 a b f g 3) 16 5 = a := wA_a ..
  have r1 : bits (wA 20 0 a b f g 3) 11 5 = b := wA_b ..
  have r2 : bits (wA 20 0 a b f g 3) 10 1 = f := wA_f ..
  have r3 : bits (wA 20 0 a b f g 3) 9 1 = g := wA_g ..
  rw [decode_20 p0, decodeSync_3 p1, r0, r1, r2, r3]
  exact accept_ok (by simp only [List.all_cons, List.all_nil, z0]; rfl) h
theorem sywait (a b : BitVec 5) (f g : BitVec 1) : Statement (.sywait a b f g) := by
  intro _ h
  show decode (wA 20 0 a b f g 4) = _
  have p0 : bits (wA 20 0 a b f g 4) 26 6 = 20#6 := wA_major ..
  have p1 : bits (wA 20 0 a b f g 4) 0 9 = 4#9 := wA_fn ..
  have z0 : bits (wA 20 0 a b f g 4) 21 5 = 0#5 := wA_d ..
  have r0 : bits (wA 20 0 a b f g 4) 16 5 = a := wA_a ..
  have r1 : bits (wA 20 0 a b f g 4) 11 5 = b := wA_b ..
  have r2 : bits (wA 20 0 a b f g 4) 10 1 = f := wA_f ..
  have r3 : bits (wA 20 0 a b f g 4) 9 1 = g := wA_g ..
  rw [decode_20 p0, decodeSync_4 p1, r0, r1, r2, r3]
  exact accept_ok (by simp only [List.all_cons, List.all_nil, z0]; rfl) h
theorem ldff (d a : BitVec 5) (f : BitVec 1) (o : BitVec 12) : Statement (.ldff d a f o) := by
  intro _ h
  show decode (wM 21 d a f 0 o) = _
  have p0 : bits (wM 21 d a f 0 o) 26 6 = 21#6 := wM_major ..
  have p1 : bits (wM 21 d a f 0 o) 12 3 = 0#3 := wM_fn ..
  have r0 : bits (wM 21 d a f 0 o) 21 5 = d := wM_d ..
  have r1 : bits (wM 21 d a f 0 o) 16 5 = a := wM_a ..
  have r2 : bits (wM 21 d a f 0 o) 15 1 = f := wM_f ..
  have r3 : bits (wM 21 d a f 0 o) 0 12 = o := wM_o ..
  rw [decode_21 p0, decodeTag_0 p1, r0, r1, r2, r3]
  exact accept_ok (by rfl) h
theorem ldfe (d a : BitVec 5) (f : BitVec 1) (o : BitVec 12) : Statement (.ldfe d a f o) := by
  intro _ h
  show decode (wM 21 d a f 1 o) = _
  have p0 : bits (wM 21 d a f 1 o) 26 6 = 21#6 := wM_major ..
  have p1 : bits (wM 21 d a f 1 o) 12 3 = 1#3 := wM_fn ..
  have r0 : bits (wM 21 d a f 1 o) 21 5 = d := wM_d ..
  have r1 : bits (wM 21 d a f 1 o) 16 5 = a := wM_a ..
  have r2 : bits (wM 21 d a f 1 o) 15 1 = f := wM_f ..
  have r3 : bits (wM 21 d a f 1 o) 0 12 = o := wM_o ..
  rw [decode_21 p0, decodeTag_1 p1, r0, r1, r2, r3]
  exact accept_ok (by rfl) h
theorem stef (s a : BitVec 5) (f : BitVec 1) (o : BitVec 12) : Statement (.stef s a f o) := by
  intro _ h
  show decode (wM 21 s a f 2 o) = _
  have p0 : bits (wM 21 s a f 2 o) 26 6 = 21#6 := wM_major ..
  have p1 : bits (wM 21 s a f 2 o) 12 3 = 2#3 := wM_fn ..
  have r0 : bits (wM 21 s a f 2 o) 21 5 = s := wM_d ..
  have r1 : bits (wM 21 s a f 2 o) 16 5 = a := wM_a ..
  have r2 : bits (wM 21 s a f 2 o) 15 1 = f := wM_f ..
  have r3 : bits (wM 21 s a f 2 o) 0 12 = o := wM_o ..
  rw [decode_21 p0, decodeTag_2 p1, r0, r1, r2, r3]
  exact accept_ok (by rfl) h
theorem stff (s a : BitVec 5) (f : BitVec 1) (o : BitVec 12) : Statement (.stff s a f o) := by
  intro _ h
  show decode (wM 21 s a f 3 o) = _
  have p0 : bits (wM 21 s a f 3 o) 26 6 = 21#6 := wM_major ..
  have p1 : bits (wM 21 s a f 3 o) 12 3 = 3#3 := wM_fn ..
  have r0 : bits (wM 21 s a f 3 o) 21 5 = s := wM_d ..
  have r1 : bits (wM 21 s a f 3 o) 16 5 = a := wM_a ..
  have r2 : bits (wM 21 s a f 3 o) 15 1 = f := wM_f ..
  have r3 : bits (wM 21 s a f 3 o) 0 12 = o := wM_o ..
  rw [decode_21 p0, decodeTag_3 p1, r0, r1, r2, r3]
  exact accept_ok (by rfl) h
theorem feclr (a : BitVec 5) (f : BitVec 1) (o : BitVec 12) : Statement (.feclr a f o) := by
  intro _ h
  show decode (wM 21 0 a f 4 o) = _
  have p0 : bits (wM 21 0 a f 4 o) 26 6 = 21#6 := wM_major ..
  have p1 : bits (wM 21 0 a f 4 o) 12 3 = 4#3 := wM_fn ..
  have z0 : bits (wM 21 0 a f 4 o) 21 5 = 0#5 := wM_d ..
  have r0 : bits (wM 21 0 a f 4 o) 16 5 = a := wM_a ..
  have r1 : bits (wM 21 0 a f 4 o) 15 1 = f := wM_f ..
  have r2 : bits (wM 21 0 a f 4 o) 0 12 = o := wM_o ..
  rw [decode_21 p0, decodeTag_4 p1, r0, r1, r2]
  exact accept_ok (by simp only [List.all_cons, List.all_nil, z0]; rfl) h
theorem feq (d a : BitVec 5) (f : BitVec 1) (o : BitVec 12) : Statement (.feq d a f o) := by
  intro _ h
  show decode (wM 21 d a f 5 o) = _
  have p0 : bits (wM 21 d a f 5 o) 26 6 = 21#6 := wM_major ..
  have p1 : bits (wM 21 d a f 5 o) 12 3 = 5#3 := wM_fn ..
  have r0 : bits (wM 21 d a f 5 o) 21 5 = d := wM_d ..
  have r1 : bits (wM 21 d a f 5 o) 16 5 = a := wM_a ..
  have r2 : bits (wM 21 d a f 5 o) 15 1 = f := wM_f ..
  have r3 : bits (wM 21 d a f 5 o) 0 12 = o := wM_o ..
  rw [decode_21 p0, decodeTag_5 p1, r0, r1, r2, r3]
  exact accept_ok (by rfl) h
theorem vrld (d a b : BitVec 5) (f g : BitVec 1) : Statement (.vrld d a b f g) := by
  intro _ h
  show decode (wA 22 d a b f g 0) = _
  have p0 : bits (wA 22 d a b f g 0) 26 6 = 22#6 := wA_major ..
  have p1 : bits (wA 22 d a b f g 0) 0 9 = 0#9 := wA_fn ..
  have r0 : bits (wA 22 d a b f g 0) 21 5 = d := wA_d ..
  have r1 : bits (wA 22 d a b f g 0) 16 5 = a := wA_a ..
  have r2 : bits (wA 22 d a b f g 0) 11 5 = b := wA_b ..
  have r3 : bits (wA 22 d a b f g 0) 10 1 = f := wA_f ..
  have r4 : bits (wA 22 d a b f g 0) 9 1 = g := wA_g ..
  rw [decode_22 p0, decodeVers_0 p1, r0, r1, r2, r3, r4]
  exact accept_ok (by rfl) h
theorem vrldle (d : BitVec 4) (a b : BitVec 5) (f g : BitVec 1) : Statement (.vrldle d a b f g) := by
  intro _ h
  show decode (wA 22 (d ++ 0#1) a b f g 1) = _
  have p0 : bits (wA 22 (d ++ 0#1) a b f g 1) 26 6 = 22#6 := wA_major ..
  have p1 : bits (wA 22 (d ++ 0#1) a b f g 1) 0 9 = 1#9 := wA_fn ..
  have z0 : bits (wA 22 (d ++ 0#1) a b f g 1) 21 1 = 0#1 := (bits_sub (m := 5) 21 0 21 1 rfl (by decide)).trans
    ((congrArg _ (wA_d ..)).trans ((by decide : ∀ (d : BitVec 4), BitVec.extractLsb' 0 1 ((d ++ 0#1) : BitVec 5) = 0#1) d))
  have r0 : bits (wA 22 (d ++ 0#1) a b f g 1) 22 4 = d := (bits_sub (m := 5) 21 1 22 4 rfl (by decide)).trans
    ((congrArg _ (wA_d ..)).trans ((by decide : ∀ (d : BitVec 4), BitVec.extractLsb' 1 4 ((d ++ 0#1) : BitVec 5) = d) d))
  have r1 : bits (wA 22 (d ++ 0#1) a b f g 1) 16 5 = a := wA_a ..
  have r2 : bits (wA 22 (d ++ 0#1) a b f g 1) 11 5 = b := wA_b ..
  have r3 : bits (wA 22 (d ++ 0#1) a b f g 1) 10 1 = f := wA_f ..
  have r4 : bits (wA 22 (d ++ 0#1) a b f g 1) 9 1 = g := wA_g ..
  rw [decode_22 p0, decodeVers_1 p1, r0, r1, r2, r3, r4]
  exact accept_ok (by simp only [List.all_cons, List.all_nil, z0]; rfl) h
theorem vrst (d a b : BitVec 5) (f g : BitVec 1) : Statement (.vrst d a b f g) := by
  intro _ h
  show decode (wA 22 d a b f g 2) = _
  have p0 : bits (wA 22 d a b f g 2) 26 6 = 22#6 := wA_major ..
  have p1 : bits (wA 22 d a b f g 2) 0 9 = 2#9 := wA_fn ..
  have r0 : bits (wA 22 d a b f g 2) 21 5 = d := wA_d ..
  have r1 : bits (wA 22 d a b f g 2) 16 5 = a := wA_a ..
  have r2 : bits (wA 22 d a b f g 2) 11 5 = b := wA_b ..
  have r3 : bits (wA 22 d a b f g 2) 10 1 = f := wA_f ..
  have r4 : bits (wA 22 d a b f g 2) 9 1 = g := wA_g ..
  rw [decode_22 p0, decodeVers_2 p1, r0, r1, r2, r3, r4]
  exact accept_ok (by rfl) h
theorem vrfloor (a b : BitVec 5) (f g : BitVec 1) : Statement (.vrfloor a b f g) := by
  intro _ h
  show decode (wA 22 0 a b f g 3) = _
  have p0 : bits (wA 22 0 a b f g 3) 26 6 = 22#6 := wA_major ..
  have p1 : bits (wA 22 0 a b f g 3) 0 9 = 3#9 := wA_fn ..
  have z0 : bits (wA 22 0 a b f g 3) 21 5 = 0#5 := wA_d ..
  have r0 : bits (wA 22 0 a b f g 3) 16 5 = a := wA_a ..
  have r1 : bits (wA 22 0 a b f g 3) 11 5 = b := wA_b ..
  have r2 : bits (wA 22 0 a b f g 3) 10 1 = f := wA_f ..
  have r3 : bits (wA 22 0 a b f g 3) 9 1 = g := wA_g ..
  rw [decode_22 p0, decodeVers_3 p1, r0, r1, r2, r3]
  exact accept_ok (by simp only [List.all_cons, List.all_nil, z0]; rfl) h
theorem vrtop (d a : BitVec 5) (f : BitVec 1) : Statement (.vrtop d a f) := by
  intro _ h
  show decode (wA 22 d a 0 f 0 4) = _
  have p0 : bits (wA 22 d a 0 f 0 4) 26 6 = 22#6 := wA_major ..
  have p1 : bits (wA 22 d a 0 f 0 4) 0 9 = 4#9 := wA_fn ..
  have z0 : bits (wA 22 d a 0 f 0 4) 11 5 = 0#5 := wA_b ..
  have z1 : bits (wA 22 d a 0 f 0 4) 9 1 = 0#1 := wA_g ..
  have r0 : bits (wA 22 d a 0 f 0 4) 21 5 = d := wA_d ..
  have r1 : bits (wA 22 d a 0 f 0 4) 16 5 = a := wA_a ..
  have r2 : bits (wA 22 d a 0 f 0 4) 10 1 = f := wA_f ..
  rw [decode_22 p0, decodeVers_4 p1, r0, r1, r2]
  exact accept_ok (by simp only [List.all_cons, List.all_nil, z0, z1]; rfl) h
theorem vrpoll (d a b : BitVec 5) (f g : BitVec 1) : Statement (.vrpoll d a b f g) := by
  intro _ h
  show decode (wA 22 d a b f g 5) = _
  have p0 : bits (wA 22 d a b f g 5) 26 6 = 22#6 := wA_major ..
  have p1 : bits (wA 22 d a b f g 5) 0 9 = 5#9 := wA_fn ..
  have r0 : bits (wA 22 d a b f g 5) 21 5 = d := wA_d ..
  have r1 : bits (wA 22 d a b f g 5) 16 5 = a := wA_a ..
  have r2 : bits (wA 22 d a b f g 5) 11 5 = b := wA_b ..
  have r3 : bits (wA 22 d a b f g 5) 10 1 = f := wA_f ..
  have r4 : bits (wA 22 d a b f g 5) 9 1 = g := wA_g ..
  rw [decode_22 p0, decodeVers_5 p1, r0, r1, r2, r3, r4]
  exact accept_ok (by rfl) h
theorem qpush (q : BitVec 2) (s : BitVec 5) : Statement (.qpush q s) := by
  intro _ h
  show decode (wQ 23 (0#3 ++ q) s 0 0) = _
  have p0 : bits (wQ 23 (0#3 ++ q) s 0 0) 26 6 = 23#6 := wQ_major ..
  have p1 : bits (wQ 23 (0#3 ++ q) s 0 0) 0 11 = 0#11 := wQ_fn ..
  have z0 : bits (wQ 23 (0#3 ++ q) s 0 0) 23 3 = 0#3 := (bits_sub (m := 5) 21 2 23 3 rfl (by decide)).trans
    ((congrArg _ (wQ_x ..)).trans ((by decide : ∀ (q : BitVec 2), BitVec.extractLsb' 2 3 ((0#3 ++ q) : BitVec 5) = 0#3) q))
  have z1 : bits (wQ 23 (0#3 ++ q) s 0 0) 11 5 = 0#5 := wQ_z ..
  have r0 : bits (wQ 23 (0#3 ++ q) s 0 0) 21 2 = q := (bits_sub (m := 5) 21 0 21 2 rfl (by decide)).trans
    ((congrArg _ (wQ_x ..)).trans ((by decide : ∀ (q : BitVec 2), BitVec.extractLsb' 0 2 ((0#3 ++ q) : BitVec 5) = q) q))
  have r1 : bits (wQ 23 (0#3 ++ q) s 0 0) 16 5 = s := wQ_y ..
  rw [decode_23 p0, decodeEng_0 p1, r0, r1]
  exact accept_ok (by simp only [List.all_cons, List.all_nil, z0, z1]; rfl) h
theorem qpop (d : BitVec 5) (q : BitVec 2) : Statement (.qpop d q) := by
  intro _ h
  show decode (wQ 23 d (0#3 ++ q) 0 1) = _
  have p0 : bits (wQ 23 d (0#3 ++ q) 0 1) 26 6 = 23#6 := wQ_major ..
  have p1 : bits (wQ 23 d (0#3 ++ q) 0 1) 0 11 = 1#11 := wQ_fn ..
  have z0 : bits (wQ 23 d (0#3 ++ q) 0 1) 18 3 = 0#3 := (bits_sub (m := 5) 16 2 18 3 rfl (by decide)).trans
    ((congrArg _ (wQ_y ..)).trans ((by decide : ∀ (q : BitVec 2), BitVec.extractLsb' 2 3 ((0#3 ++ q) : BitVec 5) = 0#3) q))
  have z1 : bits (wQ 23 d (0#3 ++ q) 0 1) 11 5 = 0#5 := wQ_z ..
  have r0 : bits (wQ 23 d (0#3 ++ q) 0 1) 21 5 = d := wQ_x ..
  have r1 : bits (wQ 23 d (0#3 ++ q) 0 1) 16 2 = q := (bits_sub (m := 5) 16 0 16 2 rfl (by decide)).trans
    ((congrArg _ (wQ_y ..)).trans ((by decide : ∀ (q : BitVec 2), BitVec.extractLsb' 0 2 ((0#3 ++ q) : BitVec 5) = q) q))
  rw [decode_23 p0, decodeEng_1 p1, r0, r1]
  exact accept_ok (by simp only [List.all_cons, List.all_nil, z0, z1]; rfl) h
theorem spbind (n : BitVec 4) (a : BitVec 5) : Statement (.spbind n a) := by
  intro _ h
  show decode (wQ 23 (0#1 ++ n) a 0 2) = _
  have p0 : bits (wQ 23 (0#1 ++ n) a 0 2) 26 6 = 23#6 := wQ_major ..
  have p1 : bits (wQ 23 (0#1 ++ n) a 0 2) 0 11 = 2#11 := wQ_fn ..
  have z0 : bits (wQ 23 (0#1 ++ n) a 0 2) 25 1 = 0#1 := (bits_sub (m := 5) 21 4 25 1 rfl (by decide)).trans
    ((congrArg _ (wQ_x ..)).trans ((by decide : ∀ (n : BitVec 4), BitVec.extractLsb' 4 1 ((0#1 ++ n) : BitVec 5) = 0#1) n))
  have z1 : bits (wQ 23 (0#1 ++ n) a 0 2) 11 5 = 0#5 := wQ_z ..
  have r0 : bits (wQ 23 (0#1 ++ n) a 0 2) 21 4 = n := (bits_sub (m := 5) 21 0 21 4 rfl (by decide)).trans
    ((congrArg _ (wQ_x ..)).trans ((by decide : ∀ (n : BitVec 4), BitVec.extractLsb' 0 4 ((0#1 ++ n) : BitVec 5) = n) n))
  have r1 : bits (wQ 23 (0#1 ++ n) a 0 2) 16 5 = a := wQ_y ..
  rw [decode_23 p0, decodeEng_2 p1, r0, r1]
  exact accept_ok (by simp only [List.all_cons, List.all_nil, z0, z1]; rfl) h
theorem spunb (n : BitVec 4) : Statement (.spunb n) := by
  intro _ h
  show decode (wQ 23 (0#1 ++ n) 0 0 3) = _
  have p0 : bits (wQ 23 (0#1 ++ n) 0 0 3) 26 6 = 23#6 := wQ_major ..
  have p1 : bits (wQ 23 (0#1 ++ n) 0 0 3) 0 11 = 3#11 := wQ_fn ..
  have z0 : bits (wQ 23 (0#1 ++ n) 0 0 3) 25 1 = 0#1 := (bits_sub (m := 5) 21 4 25 1 rfl (by decide)).trans
    ((congrArg _ (wQ_x ..)).trans ((by decide : ∀ (n : BitVec 4), BitVec.extractLsb' 4 1 ((0#1 ++ n) : BitVec 5) = 0#1) n))
  have z1 : bits (wQ 23 (0#1 ++ n) 0 0 3) 11 10 = 0#10 := bits_join 11 5 16 5 10 rfl rfl (wQ_z ..)
    (wQ_y ..)
  have r0 : bits (wQ 23 (0#1 ++ n) 0 0 3) 21 4 = n := (bits_sub (m := 5) 21 0 21 4 rfl (by decide)).trans
    ((congrArg _ (wQ_x ..)).trans ((by decide : ∀ (n : BitVec 4), BitVec.extractLsb' 0 4 ((0#1 ++ n) : BitVec 5) = n) n))
  rw [decode_23 p0, decodeEng_3 p1, r0]
  exact accept_ok (by simp only [List.all_cons, List.all_nil, z0, z1]; rfl) h
theorem spdrain (n : BitVec 4) : Statement (.spdrain n) := by
  intro _ h
  show decode (wQ 23 (0#1 ++ n) 0 0 4) = _
  have p0 : bits (wQ 23 (0#1 ++ n) 0 0 4) 26 6 = 23#6 := wQ_major ..
  have p1 : bits (wQ 23 (0#1 ++ n) 0 0 4) 0 11 = 4#11 := wQ_fn ..
  have z0 : bits (wQ 23 (0#1 ++ n) 0 0 4) 25 1 = 0#1 := (bits_sub (m := 5) 21 4 25 1 rfl (by decide)).trans
    ((congrArg _ (wQ_x ..)).trans ((by decide : ∀ (n : BitVec 4), BitVec.extractLsb' 4 1 ((0#1 ++ n) : BitVec 5) = 0#1) n))
  have z1 : bits (wQ 23 (0#1 ++ n) 0 0 4) 11 10 = 0#10 := bits_join 11 5 16 5 10 rfl rfl (wQ_z ..)
    (wQ_y ..)
  have r0 : bits (wQ 23 (0#1 ++ n) 0 0 4) 21 4 = n := (bits_sub (m := 5) 21 0 21 4 rfl (by decide)).trans
    ((congrArg _ (wQ_x ..)).trans ((by decide : ∀ (n : BitVec 4), BitVec.extractLsb' 0 4 ((0#1 ++ n) : BitVec 5) = n) n))
  rw [decode_23 p0, decodeEng_4 p1, r0]
  exact accept_ok (by simp only [List.all_cons, List.all_nil, z0, z1]; rfl) h
theorem spstat (d : BitVec 5) (n : BitVec 4) : Statement (.spstat d n) := by
  intro _ h
  show decode (wQ 23 d (0#1 ++ n) 0 5) = _
  have p0 : bits (wQ 23 d (0#1 ++ n) 0 5) 26 6 = 23#6 := wQ_major ..
  have p1 : bits (wQ 23 d (0#1 ++ n) 0 5) 0 11 = 5#11 := wQ_fn ..
  have z0 : bits (wQ 23 d (0#1 ++ n) 0 5) 20 1 = 0#1 := (bits_sub (m := 5) 16 4 20 1 rfl (by decide)).trans
    ((congrArg _ (wQ_y ..)).trans ((by decide : ∀ (n : BitVec 4), BitVec.extractLsb' 4 1 ((0#1 ++ n) : BitVec 5) = 0#1) n))
  have z1 : bits (wQ 23 d (0#1 ++ n) 0 5) 11 5 = 0#5 := wQ_z ..
  have r0 : bits (wQ 23 d (0#1 ++ n) 0 5) 21 5 = d := wQ_x ..
  have r1 : bits (wQ 23 d (0#1 ++ n) 0 5) 16 4 = n := (bits_sub (m := 5) 16 0 16 4 rfl (by decide)).trans
    ((congrArg _ (wQ_y ..)).trans ((by decide : ∀ (n : BitVec 4), BitVec.extractLsb' 0 4 ((0#1 ++ n) : BitVec 5) = n) n))
  rw [decode_23 p0, decodeEng_5 p1, r0, r1]
  exact accept_ok (by simp only [List.all_cons, List.all_nil, z0, z1]; rfl) h
theorem bcopy (d a : BitVec 5) : Statement (.bcopy d a) := by
  intro _ h
  show decode (wQ 23 d a 0 6) = _
  have p0 : bits (wQ 23 d a 0 6) 26 6 = 23#6 := wQ_major ..
  have p1 : bits (wQ 23 d a 0 6) 0 11 = 6#11 := wQ_fn ..
  have z0 : bits (wQ 23 d a 0 6) 11 5 = 0#5 := wQ_z ..
  have r0 : bits (wQ 23 d a 0 6) 21 5 = d := wQ_x ..
  have r1 : bits (wQ 23 d a 0 6) 16 5 = a := wQ_y ..
  rw [decode_23 p0, decodeEng_6 p1, r0, r1]
  exact accept_ok (by simp only [List.all_cons, List.all_nil, z0]; rfl) h
theorem xcopy (d a : BitVec 5) : Statement (.xcopy d a) := by
  intro _ h
  show decode (wQ 23 d a 0 7) = _
  have p0 : bits (wQ 23 d a 0 7) 26 6 = 23#6 := wQ_major ..
  have p1 : bits (wQ 23 d a 0 7) 0 11 = 7#11 := wQ_fn ..
  have z0 : bits (wQ 23 d a 0 7) 11 5 = 0#5 := wQ_z ..
  have r0 : bits (wQ 23 d a 0 7) 21 5 = d := wQ_x ..
  have r1 : bits (wQ 23 d a 0 7) 16 5 = a := wQ_y ..
  rw [decode_23 p0, decodeEng_7 p1, r0, r1]
  exact accept_ok (by simp only [List.all_cons, List.all_nil, z0]; rfl) h
theorem tenq (d a : BitVec 5) : Statement (.tenq d a) := by
  intro _ h
  show decode (wQ 23 d a 0 8) = _
  have p0 : bits (wQ 23 d a 0 8) 26 6 = 23#6 := wQ_major ..
  have p1 : bits (wQ 23 d a 0 8) 0 11 = 8#11 := wQ_fn ..
  have z0 : bits (wQ 23 d a 0 8) 11 5 = 0#5 := wQ_z ..
  have r0 : bits (wQ 23 d a 0 8) 21 5 = d := wQ_x ..
  have r1 : bits (wQ 23 d a 0 8) 16 5 = a := wQ_y ..
  rw [decode_23 p0, decodeEng_8 p1, r0, r1]
  exact accept_ok (by simp only [List.all_cons, List.all_nil, z0]; rfl) h
theorem twin (d a : BitVec 5) : Statement (.twin d a) := by
  intro _ h
  show decode (wQ 23 d a 0 9) = _
  have p0 : bits (wQ 23 d a 0 9) 26 6 = 23#6 := wQ_major ..
  have p1 : bits (wQ 23 d a 0 9) 0 11 = 9#11 := wQ_fn ..
  have z0 : bits (wQ 23 d a 0 9) 11 5 = 0#5 := wQ_z ..
  have r0 : bits (wQ 23 d a 0 9) 21 5 = d := wQ_x ..
  have r1 : bits (wQ 23 d a 0 9) 16 5 = a := wQ_y ..
  rw [decode_23 p0, decodeEng_9 p1, r0, r1]
  exact accept_ok (by simp only [List.all_cons, List.all_nil, z0]; rfl) h
theorem trel (a : BitVec 5) : Statement (.trel a) := by
  intro _ h
  show decode (wQ 23 0 a 0 10) = _
  have p0 : bits (wQ 23 0 a 0 10) 26 6 = 23#6 := wQ_major ..
  have p1 : bits (wQ 23 0 a 0 10) 0 11 = 10#11 := wQ_fn ..
  have z0 : bits (wQ 23 0 a 0 10) 21 5 = 0#5 := wQ_x ..
  have z1 : bits (wQ 23 0 a 0 10) 11 5 = 0#5 := wQ_z ..
  have r0 : bits (wQ 23 0 a 0 10) 16 5 = a := wQ_y ..
  rw [decode_23 p0, decodeEng_10 p1, r0]
  exact accept_ok (by simp only [List.all_cons, List.all_nil, z0, z1]; rfl) h
theorem tcancel (a : BitVec 5) : Statement (.tcancel a) := by
  intro _ h
  show decode (wQ 23 0 a 0 11) = _
  have p0 : bits (wQ 23 0 a 0 11) 26 6 = 23#6 := wQ_major ..
  have p1 : bits (wQ 23 0 a 0 11) 0 11 = 11#11 := wQ_fn ..
  have z0 : bits (wQ 23 0 a 0 11) 21 5 = 0#5 := wQ_x ..
  have z1 : bits (wQ 23 0 a 0 11) 11 5 = 0#5 := wQ_z ..
  have r0 : bits (wQ 23 0 a 0 11) 16 5 = a := wQ_y ..
  rw [decode_23 p0, decodeEng_11 p1, r0]
  exact accept_ok (by simp only [List.all_cons, List.all_nil, z0, z1]; rfl) h
theorem bwred (d a : BitVec 5) (b : BitVec 4) : Statement (.bwred d a b) := by
  intro _ h
  show decode (wQ 23 d a (b ++ 0#1) 12) = _
  have p0 : bits (wQ 23 d a (b ++ 0#1) 12) 26 6 = 23#6 := wQ_major ..
  have p1 : bits (wQ 23 d a (b ++ 0#1) 12) 0 11 = 12#11 := wQ_fn ..
  have z0 : bits (wQ 23 d a (b ++ 0#1) 12) 11 1 = 0#1 := (bits_sub (m := 5) 11 0 11 1 rfl (by decide)).trans
    ((congrArg _ (wQ_z ..)).trans ((by decide : ∀ (b : BitVec 4), BitVec.extractLsb' 0 1 ((b ++ 0#1) : BitVec 5) = 0#1) b))
  have r0 : bits (wQ 23 d a (b ++ 0#1) 12) 21 5 = d := wQ_x ..
  have r1 : bits (wQ 23 d a (b ++ 0#1) 12) 16 5 = a := wQ_y ..
  have r2 : bits (wQ 23 d a (b ++ 0#1) 12) 12 4 = b := (bits_sub (m := 5) 11 1 12 4 rfl (by decide)).trans
    ((congrArg _ (wQ_z ..)).trans ((by decide : ∀ (b : BitVec 4), BitVec.extractLsb' 1 4 ((b ++ 0#1) : BitVec 5) = b) b))
  rw [decode_23 p0, decodeEng_12 p1, r0, r1, r2]
  exact accept_ok (by simp only [List.all_cons, List.all_nil, z0]; rfl) h
theorem pgmig (a b : BitVec 5) : Statement (.pgmig a b) := by
  intro _ h
  show decode (wQ 23 0 a b 13) = _
  have p0 : bits (wQ 23 0 a b 13) 26 6 = 23#6 := wQ_major ..
  have p1 : bits (wQ 23 0 a b 13) 0 11 = 13#11 := wQ_fn ..
  have z0 : bits (wQ 23 0 a b 13) 21 5 = 0#5 := wQ_x ..
  have r0 : bits (wQ 23 0 a b 13) 16 5 = a := wQ_y ..
  have r1 : bits (wQ 23 0 a b 13) 11 5 = b := wQ_z ..
  rw [decode_23 p0, decodeEng_13 p1, r0, r1]
  exact accept_ok (by simp only [List.all_cons, List.all_nil, z0]; rfl) h
theorem vadd (d a b : BitVec 5) (p : BitVec 6) : Statement (.vadd d a b p) := by
  intro _ h
  show decode (wV 24 d a b p 0) = _
  have p0 : bits (wV 24 d a b p 0) 26 6 = 24#6 := wV_major ..
  have p1 : bits (wV 24 d a b p 0) 0 5 = 0#5 := wV_fn ..
  have r0 : bits (wV 24 d a b p 0) 21 5 = d := wV_d ..
  have r1 : bits (wV 24 d a b p 0) 16 5 = a := wV_a ..
  have r2 : bits (wV 24 d a b p 0) 11 5 = b := wV_b ..
  have r3 : bits (wV 24 d a b p 0) 5 6 = p := wV_p ..
  rw [decode_24 p0, decodeVint_0 p1, r0, r1, r2, r3]
  exact accept_ok (by rfl) h
theorem vsub (d a b : BitVec 5) (p : BitVec 6) : Statement (.vsub d a b p) := by
  intro _ h
  show decode (wV 24 d a b p 1) = _
  have p0 : bits (wV 24 d a b p 1) 26 6 = 24#6 := wV_major ..
  have p1 : bits (wV 24 d a b p 1) 0 5 = 1#5 := wV_fn ..
  have r0 : bits (wV 24 d a b p 1) 21 5 = d := wV_d ..
  have r1 : bits (wV 24 d a b p 1) 16 5 = a := wV_a ..
  have r2 : bits (wV 24 d a b p 1) 11 5 = b := wV_b ..
  have r3 : bits (wV 24 d a b p 1) 5 6 = p := wV_p ..
  rw [decode_24 p0, decodeVint_1 p1, r0, r1, r2, r3]
  exact accept_ok (by rfl) h
theorem vmul (d a b : BitVec 5) (p : BitVec 6) : Statement (.vmul d a b p) := by
  intro _ h
  show decode (wV 24 d a b p 2) = _
  have p0 : bits (wV 24 d a b p 2) 26 6 = 24#6 := wV_major ..
  have p1 : bits (wV 24 d a b p 2) 0 5 = 2#5 := wV_fn ..
  have r0 : bits (wV 24 d a b p 2) 21 5 = d := wV_d ..
  have r1 : bits (wV 24 d a b p 2) 16 5 = a := wV_a ..
  have r2 : bits (wV 24 d a b p 2) 11 5 = b := wV_b ..
  have r3 : bits (wV 24 d a b p 2) 5 6 = p := wV_p ..
  rw [decode_24 p0, decodeVint_2 p1, r0, r1, r2, r3]
  exact accept_ok (by rfl) h
theorem vmac (d a b : BitVec 5) (p : BitVec 6) : Statement (.vmac d a b p) := by
  intro _ h
  show decode (wV 24 d a b p 3) = _
  have p0 : bits (wV 24 d a b p 3) 26 6 = 24#6 := wV_major ..
  have p1 : bits (wV 24 d a b p 3) 0 5 = 3#5 := wV_fn ..
  have r0 : bits (wV 24 d a b p 3) 21 5 = d := wV_d ..
  have r1 : bits (wV 24 d a b p 3) 16 5 = a := wV_a ..
  have r2 : bits (wV 24 d a b p 3) 11 5 = b := wV_b ..
  have r3 : bits (wV 24 d a b p 3) 5 6 = p := wV_p ..
  rw [decode_24 p0, decodeVint_3 p1, r0, r1, r2, r3]
  exact accept_ok (by rfl) h
theorem vmsb (d a b : BitVec 5) (p : BitVec 6) : Statement (.vmsb d a b p) := by
  intro _ h
  show decode (wV 24 d a b p 4) = _
  have p0 : bits (wV 24 d a b p 4) 26 6 = 24#6 := wV_major ..
  have p1 : bits (wV 24 d a b p 4) 0 5 = 4#5 := wV_fn ..
  have r0 : bits (wV 24 d a b p 4) 21 5 = d := wV_d ..
  have r1 : bits (wV 24 d a b p 4) 16 5 = a := wV_a ..
  have r2 : bits (wV 24 d a b p 4) 11 5 = b := wV_b ..
  have r3 : bits (wV 24 d a b p 4) 5 6 = p := wV_p ..
  rw [decode_24 p0, decodeVint_4 p1, r0, r1, r2, r3]
  exact accept_ok (by rfl) h
theorem vssa (d a b : BitVec 5) (p : BitVec 6) : Statement (.vssa d a b p) := by
  intro _ h
  show decode (wV 24 d a b p 5) = _
  have p0 : bits (wV 24 d a b p 5) 26 6 = 24#6 := wV_major ..
  have p1 : bits (wV 24 d a b p 5) 0 5 = 5#5 := wV_fn ..
  have r0 : bits (wV 24 d a b p 5) 21 5 = d := wV_d ..
  have r1 : bits (wV 24 d a b p 5) 16 5 = a := wV_a ..
  have r2 : bits (wV 24 d a b p 5) 11 5 = b := wV_b ..
  have r3 : bits (wV 24 d a b p 5) 5 6 = p := wV_p ..
  rw [decode_24 p0, decodeVint_5 p1, r0, r1, r2, r3]
  exact accept_ok (by rfl) h
theorem vmin (d a b : BitVec 5) (p : BitVec 6) : Statement (.vmin d a b p) := by
  intro _ h
  show decode (wV 24 d a b p 6) = _
  have p0 : bits (wV 24 d a b p 6) 26 6 = 24#6 := wV_major ..
  have p1 : bits (wV 24 d a b p 6) 0 5 = 6#5 := wV_fn ..
  have r0 : bits (wV 24 d a b p 6) 21 5 = d := wV_d ..
  have r1 : bits (wV 24 d a b p 6) 16 5 = a := wV_a ..
  have r2 : bits (wV 24 d a b p 6) 11 5 = b := wV_b ..
  have r3 : bits (wV 24 d a b p 6) 5 6 = p := wV_p ..
  rw [decode_24 p0, decodeVint_6 p1, r0, r1, r2, r3]
  exact accept_ok (by rfl) h
theorem vmax (d a b : BitVec 5) (p : BitVec 6) : Statement (.vmax d a b p) := by
  intro _ h
  show decode (wV 24 d a b p 7) = _
  have p0 : bits (wV 24 d a b p 7) 26 6 = 24#6 := wV_major ..
  have p1 : bits (wV 24 d a b p 7) 0 5 = 7#5 := wV_fn ..
  have r0 : bits (wV 24 d a b p 7) 21 5 = d := wV_d ..
  have r1 : bits (wV 24 d a b p 7) 16 5 = a := wV_a ..
  have r2 : bits (wV 24 d a b p 7) 11 5 = b := wV_b ..
  have r3 : bits (wV 24 d a b p 7) 5 6 = p := wV_p ..
  rw [decode_24 p0, decodeVint_7 p1, r0, r1, r2, r3]
  exact accept_ok (by rfl) h
theorem vand (d a b : BitVec 5) (p : BitVec 6) : Statement (.vand d a b p) := by
  intro _ h
  show decode (wV 24 d a b p 8) = _
  have p0 : bits (wV 24 d a b p 8) 26 6 = 24#6 := wV_major ..
  have p1 : bits (wV 24 d a b p 8) 0 5 = 8#5 := wV_fn ..
  have r0 : bits (wV 24 d a b p 8) 21 5 = d := wV_d ..
  have r1 : bits (wV 24 d a b p 8) 16 5 = a := wV_a ..
  have r2 : bits (wV 24 d a b p 8) 11 5 = b := wV_b ..
  have r3 : bits (wV 24 d a b p 8) 5 6 = p := wV_p ..
  rw [decode_24 p0, decodeVint_8 p1, r0, r1, r2, r3]
  exact accept_ok (by rfl) h
theorem vor (d a b : BitVec 5) (p : BitVec 6) : Statement (.vor d a b p) := by
  intro _ h
  show decode (wV 24 d a b p 9) = _
  have p0 : bits (wV 24 d a b p 9) 26 6 = 24#6 := wV_major ..
  have p1 : bits (wV 24 d a b p 9) 0 5 = 9#5 := wV_fn ..
  have r0 : bits (wV 24 d a b p 9) 21 5 = d := wV_d ..
  have r1 : bits (wV 24 d a b p 9) 16 5 = a := wV_a ..
  have r2 : bits (wV 24 d a b p 9) 11 5 = b := wV_b ..
  have r3 : bits (wV 24 d a b p 9) 5 6 = p := wV_p ..
  rw [decode_24 p0, decodeVint_9 p1, r0, r1, r2, r3]
  exact accept_ok (by rfl) h
theorem vxor (d a b : BitVec 5) (p : BitVec 6) : Statement (.vxor d a b p) := by
  intro _ h
  show decode (wV 24 d a b p 10) = _
  have p0 : bits (wV 24 d a b p 10) 26 6 = 24#6 := wV_major ..
  have p1 : bits (wV 24 d a b p 10) 0 5 = 10#5 := wV_fn ..
  have r0 : bits (wV 24 d a b p 10) 21 5 = d := wV_d ..
  have r1 : bits (wV 24 d a b p 10) 16 5 = a := wV_a ..
  have r2 : bits (wV 24 d a b p 10) 11 5 = b := wV_b ..
  have r3 : bits (wV 24 d a b p 10) 5 6 = p := wV_p ..
  rw [decode_24 p0, decodeVint_10 p1, r0, r1, r2, r3]
  exact accept_ok (by rfl) h
theorem vandn (d a b : BitVec 5) (p : BitVec 6) : Statement (.vandn d a b p) := by
  intro _ h
  show decode (wV 24 d a b p 11) = _
  have p0 : bits (wV 24 d a b p 11) 26 6 = 24#6 := wV_major ..
  have p1 : bits (wV 24 d a b p 11) 0 5 = 11#5 := wV_fn ..
  have r0 : bits (wV 24 d a b p 11) 21 5 = d := wV_d ..
  have r1 : bits (wV 24 d a b p 11) 16 5 = a := wV_a ..
  have r2 : bits (wV 24 d a b p 11) 11 5 = b := wV_b ..
  have r3 : bits (wV 24 d a b p 11) 5 6 = p := wV_p ..
  rw [decode_24 p0, decodeVint_11 p1, r0, r1, r2, r3]
  exact accept_ok (by rfl) h
theorem vshl (d a b : BitVec 5) (p : BitVec 6) : Statement (.vshl d a b p) := by
  intro _ h
  show decode (wV 24 d a b p 12) = _
  have p0 : bits (wV 24 d a b p 12) 26 6 = 24#6 := wV_major ..
  have p1 : bits (wV 24 d a b p 12) 0 5 = 12#5 := wV_fn ..
  have r0 : bits (wV 24 d a b p 12) 21 5 = d := wV_d ..
  have r1 : bits (wV 24 d a b p 12) 16 5 = a := wV_a ..
  have r2 : bits (wV 24 d a b p 12) 11 5 = b := wV_b ..
  have r3 : bits (wV 24 d a b p 12) 5 6 = p := wV_p ..
  rw [decode_24 p0, decodeVint_12 p1, r0, r1, r2, r3]
  exact accept_ok (by rfl) h
theorem vshr (d a b : BitVec 5) (p : BitVec 6) : Statement (.vshr d a b p) := by
  intro _ h
  show decode (wV 24 d a b p 13) = _
  have p0 : bits (wV 24 d a b p 13) 26 6 = 24#6 := wV_major ..
  have p1 : bits (wV 24 d a b p 13) 0 5 = 13#5 := wV_fn ..
  have r0 : bits (wV 24 d a b p 13) 21 5 = d := wV_d ..
  have r1 : bits (wV 24 d a b p 13) 16 5 = a := wV_a ..
  have r2 : bits (wV 24 d a b p 13) 11 5 = b := wV_b ..
  have r3 : bits (wV 24 d a b p 13) 5 6 = p := wV_p ..
  rw [decode_24 p0, decodeVint_13 p1, r0, r1, r2, r3]
  exact accept_ok (by rfl) h
theorem vmulh (d a b : BitVec 5) (p : BitVec 6) : Statement (.vmulh d a b p) := by
  intro _ h
  show decode (wV 24 d a b p 14) = _
  have p0 : bits (wV 24 d a b p 14) 26 6 = 24#6 := wV_major ..
  have p1 : bits (wV 24 d a b p 14) 0 5 = 14#5 := wV_fn ..
  have r0 : bits (wV 24 d a b p 14) 21 5 = d := wV_d ..
  have r1 : bits (wV 24 d a b p 14) 16 5 = a := wV_a ..
  have r2 : bits (wV 24 d a b p 14) 11 5 = b := wV_b ..
  have r3 : bits (wV 24 d a b p 14) 5 6 = p := wV_p ..
  rw [decode_24 p0, decodeVint_14 p1, r0, r1, r2, r3]
  exact accept_ok (by rfl) h
theorem vsel (d a b : BitVec 5) (p : BitVec 6) : Statement (.vsel d a b p) := by
  intro _ h
  show decode (wV 24 d a b p 15) = _
  have p0 : bits (wV 24 d a b p 15) 26 6 = 24#6 := wV_major ..
  have p1 : bits (wV 24 d a b p 15) 0 5 = 15#5 := wV_fn ..
  have r0 : bits (wV 24 d a b p 15) 21 5 = d := wV_d ..
  have r1 : bits (wV 24 d a b p 15) 16 5 = a := wV_a ..
  have r2 : bits (wV 24 d a b p 15) 11 5 = b := wV_b ..
  have r3 : bits (wV 24 d a b p 15) 5 6 = p := wV_p ..
  rw [decode_24 p0, decodeVint_15 p1, r0, r1, r2, r3]
  exact accept_ok (by rfl) h
theorem vadds (d a b : BitVec 5) (p : BitVec 6) : Statement (.vadds d a b p) := by
  intro _ h
  show decode (wV 25 d a b p 0) = _
  have p0 : bits (wV 25 d a b p 0) 26 6 = 25#6 := wV_major ..
  have p1 : bits (wV 25 d a b p 0) 0 5 = 0#5 := wV_fn ..
  have r0 : bits (wV 25 d a b p 0) 21 5 = d := wV_d ..
  have r1 : bits (wV 25 d a b p 0) 16 5 = a := wV_a ..
  have r2 : bits (wV 25 d a b p 0) 11 5 = b := wV_b ..
  have r3 : bits (wV 25 d a b p 0) 5 6 = p := wV_p ..
  rw [decode_25 p0, decodeVints_0 p1, r0, r1, r2, r3]
  exact accept_ok (by rfl) h
theorem vsubs (d a b : BitVec 5) (p : BitVec 6) : Statement (.vsubs d a b p) := by
  intro _ h
  show decode (wV 25 d a b p 1) = _
  have p0 : bits (wV 25 d a b p 1) 26 6 = 25#6 := wV_major ..
  have p1 : bits (wV 25 d a b p 1) 0 5 = 1#5 := wV_fn ..
  have r0 : bits (wV 25 d a b p 1) 21 5 = d := wV_d ..
  have r1 : bits (wV 25 d a b p 1) 16 5 = a := wV_a ..
  have r2 : bits (wV 25 d a b p 1) 11 5 = b := wV_b ..
  have r3 : bits (wV 25 d a b p 1) 5 6 = p := wV_p ..
  rw [decode_25 p0, decodeVints_1 p1, r0, r1, r2, r3]
  exact accept_ok (by rfl) h
theorem vrsubs (d a b : BitVec 5) (p : BitVec 6) : Statement (.vrsubs d a b p) := by
  intro _ h
  show decode (wV 25 d a b p 2) = _
  have p0 : bits (wV 25 d a b p 2) 26 6 = 25#6 := wV_major ..
  have p1 : bits (wV 25 d a b p 2) 0 5 = 2#5 := wV_fn ..
  have r0 : bits (wV 25 d a b p 2) 21 5 = d := wV_d ..
  have r1 : bits (wV 25 d a b p 2) 16 5 = a := wV_a ..
  have r2 : bits (wV 25 d a b p 2) 11 5 = b := wV_b ..
  have r3 : bits (wV 25 d a b p 2) 5 6 = p := wV_p ..
  rw [decode_25 p0, decodeVints_2 p1, r0, r1, r2, r3]
  exact accept_ok (by rfl) h
theorem vmuls (d a b : BitVec 5) (p : BitVec 6) : Statement (.vmuls d a b p) := by
  intro _ h
  show decode (wV 25 d a b p 3) = _
  have p0 : bits (wV 25 d a b p 3) 26 6 = 25#6 := wV_major ..
  have p1 : bits (wV 25 d a b p 3) 0 5 = 3#5 := wV_fn ..
  have r0 : bits (wV 25 d a b p 3) 21 5 = d := wV_d ..
  have r1 : bits (wV 25 d a b p 3) 16 5 = a := wV_a ..
  have r2 : bits (wV 25 d a b p 3) 11 5 = b := wV_b ..
  have r3 : bits (wV 25 d a b p 3) 5 6 = p := wV_p ..
  rw [decode_25 p0, decodeVints_3 p1, r0, r1, r2, r3]
  exact accept_ok (by rfl) h
theorem vmacs (d a b : BitVec 5) (p : BitVec 6) : Statement (.vmacs d a b p) := by
  intro _ h
  show decode (wV 25 d a b p 4) = _
  have p0 : bits (wV 25 d a b p 4) 26 6 = 25#6 := wV_major ..
  have p1 : bits (wV 25 d a b p 4) 0 5 = 4#5 := wV_fn ..
  have r0 : bits (wV 25 d a b p 4) 21 5 = d := wV_d ..
  have r1 : bits (wV 25 d a b p 4) 16 5 = a := wV_a ..
  have r2 : bits (wV 25 d a b p 4) 11 5 = b := wV_b ..
  have r3 : bits (wV 25 d a b p 4) 5 6 = p := wV_p ..
  rw [decode_25 p0, decodeVints_4 p1, r0, r1, r2, r3]
  exact accept_ok (by rfl) h
theorem vmins (d a b : BitVec 5) (p : BitVec 6) : Statement (.vmins d a b p) := by
  intro _ h
  show decode (wV 25 d a b p 5) = _
  have p0 : bits (wV 25 d a b p 5) 26 6 = 25#6 := wV_major ..
  have p1 : bits (wV 25 d a b p 5) 0 5 = 5#5 := wV_fn ..
  have r0 : bits (wV 25 d a b p 5) 21 5 = d := wV_d ..
  have r1 : bits (wV 25 d a b p 5) 16 5 = a := wV_a ..
  have r2 : bits (wV 25 d a b p 5) 11 5 = b := wV_b ..
  have r3 : bits (wV 25 d a b p 5) 5 6 = p := wV_p ..
  rw [decode_25 p0, decodeVints_5 p1, r0, r1, r2, r3]
  exact accept_ok (by rfl) h
theorem vmaxs (d a b : BitVec 5) (p : BitVec 6) : Statement (.vmaxs d a b p) := by
  intro _ h
  show decode (wV 25 d a b p 6) = _
  have p0 : bits (wV 25 d a b p 6) 26 6 = 25#6 := wV_major ..
  have p1 : bits (wV 25 d a b p 6) 0 5 = 6#5 := wV_fn ..
  have r0 : bits (wV 25 d a b p 6) 21 5 = d := wV_d ..
  have r1 : bits (wV 25 d a b p 6) 16 5 = a := wV_a ..
  have r2 : bits (wV 25 d a b p 6) 11 5 = b := wV_b ..
  have r3 : bits (wV 25 d a b p 6) 5 6 = p := wV_p ..
  rw [decode_25 p0, decodeVints_6 p1, r0, r1, r2, r3]
  exact accept_ok (by rfl) h
theorem vands (d a b : BitVec 5) (p : BitVec 6) : Statement (.vands d a b p) := by
  intro _ h
  show decode (wV 25 d a b p 7) = _
  have p0 : bits (wV 25 d a b p 7) 26 6 = 25#6 := wV_major ..
  have p1 : bits (wV 25 d a b p 7) 0 5 = 7#5 := wV_fn ..
  have r0 : bits (wV 25 d a b p 7) 21 5 = d := wV_d ..
  have r1 : bits (wV 25 d a b p 7) 16 5 = a := wV_a ..
  have r2 : bits (wV 25 d a b p 7) 11 5 = b := wV_b ..
  have r3 : bits (wV 25 d a b p 7) 5 6 = p := wV_p ..
  rw [decode_25 p0, decodeVints_7 p1, r0, r1, r2, r3]
  exact accept_ok (by rfl) h
theorem vors (d a b : BitVec 5) (p : BitVec 6) : Statement (.vors d a b p) := by
  intro _ h
  show decode (wV 25 d a b p 8) = _
  have p0 : bits (wV 25 d a b p 8) 26 6 = 25#6 := wV_major ..
  have p1 : bits (wV 25 d a b p 8) 0 5 = 8#5 := wV_fn ..
  have r0 : bits (wV 25 d a b p 8) 21 5 = d := wV_d ..
  have r1 : bits (wV 25 d a b p 8) 16 5 = a := wV_a ..
  have r2 : bits (wV 25 d a b p 8) 11 5 = b := wV_b ..
  have r3 : bits (wV 25 d a b p 8) 5 6 = p := wV_p ..
  rw [decode_25 p0, decodeVints_8 p1, r0, r1, r2, r3]
  exact accept_ok (by rfl) h
theorem vxors (d a b : BitVec 5) (p : BitVec 6) : Statement (.vxors d a b p) := by
  intro _ h
  show decode (wV 25 d a b p 9) = _
  have p0 : bits (wV 25 d a b p 9) 26 6 = 25#6 := wV_major ..
  have p1 : bits (wV 25 d a b p 9) 0 5 = 9#5 := wV_fn ..
  have r0 : bits (wV 25 d a b p 9) 21 5 = d := wV_d ..
  have r1 : bits (wV 25 d a b p 9) 16 5 = a := wV_a ..
  have r2 : bits (wV 25 d a b p 9) 11 5 = b := wV_b ..
  have r3 : bits (wV 25 d a b p 9) 5 6 = p := wV_p ..
  rw [decode_25 p0, decodeVints_9 p1, r0, r1, r2, r3]
  exact accept_ok (by rfl) h
theorem vshls (d a b : BitVec 5) (p : BitVec 6) : Statement (.vshls d a b p) := by
  intro _ h
  show decode (wV 25 d a b p 10) = _
  have p0 : bits (wV 25 d a b p 10) 26 6 = 25#6 := wV_major ..
  have p1 : bits (wV 25 d a b p 10) 0 5 = 10#5 := wV_fn ..
  have r0 : bits (wV 25 d a b p 10) 21 5 = d := wV_d ..
  have r1 : bits (wV 25 d a b p 10) 16 5 = a := wV_a ..
  have r2 : bits (wV 25 d a b p 10) 11 5 = b := wV_b ..
  have r3 : bits (wV 25 d a b p 10) 5 6 = p := wV_p ..
  rw [decode_25 p0, decodeVints_10 p1, r0, r1, r2, r3]
  exact accept_ok (by rfl) h
theorem vshrs (d a b : BitVec 5) (p : BitVec 6) : Statement (.vshrs d a b p) := by
  intro _ h
  show decode (wV 25 d a b p 11) = _
  have p0 : bits (wV 25 d a b p 11) 26 6 = 25#6 := wV_major ..
  have p1 : bits (wV 25 d a b p 11) 0 5 = 11#5 := wV_fn ..
  have r0 : bits (wV 25 d a b p 11) 21 5 = d := wV_d ..
  have r1 : bits (wV 25 d a b p 11) 16 5 = a := wV_a ..
  have r2 : bits (wV 25 d a b p 11) 11 5 = b := wV_b ..
  have r3 : bits (wV 25 d a b p 11) 5 6 = p := wV_p ..
  rw [decode_25 p0, decodeVints_11 p1, r0, r1, r2, r3]
  exact accept_ok (by rfl) h
theorem vbcast (d b : BitVec 5) (p : BitVec 6) : Statement (.vbcast d b p) := by
  intro _ h
  show decode (wV 25 d 0 b p 12) = _
  have p0 : bits (wV 25 d 0 b p 12) 26 6 = 25#6 := wV_major ..
  have p1 : bits (wV 25 d 0 b p 12) 0 5 = 12#5 := wV_fn ..
  have z0 : bits (wV 25 d 0 b p 12) 16 5 = 0#5 := wV_a ..
  have r0 : bits (wV 25 d 0 b p 12) 21 5 = d := wV_d ..
  have r1 : bits (wV 25 d 0 b p 12) 11 5 = b := wV_b ..
  have r2 : bits (wV 25 d 0 b p 12) 5 6 = p := wV_p ..
  rw [decode_25 p0, decodeVints_12 p1, r0, r1, r2]
  exact accept_ok (by simp only [List.all_cons, List.all_nil, z0]; rfl) h
theorem vrand (d a b : BitVec 5) (p : BitVec 6) : Statement (.vrand d a b p) := by
  intro _ h
  show decode (wV 25 d a b p 13) = _
  have p0 : bits (wV 25 d a b p 13) 26 6 = 25#6 := wV_major ..
  have p1 : bits (wV 25 d a b p 13) 0 5 = 13#5 := wV_fn ..
  have r0 : bits (wV 25 d a b p 13) 21 5 = d := wV_d ..
  have r1 : bits (wV 25 d a b p 13) 16 5 = a := wV_a ..
  have r2 : bits (wV 25 d a b p 13) 11 5 = b := wV_b ..
  have r3 : bits (wV 25 d a b p 13) 5 6 = p := wV_p ..
  rw [decode_25 p0, decodeVints_13 p1, r0, r1, r2, r3]
  exact accept_ok (by rfl) h
theorem vslup (d a b : BitVec 5) (p : BitVec 6) : Statement (.vslup d a b p) := by
  intro _ h
  show decode (wV 25 d a b p 14) = _
  have p0 : bits (wV 25 d a b p 14) 26 6 = 25#6 := wV_major ..
  have p1 : bits (wV 25 d a b p 14) 0 5 = 14#5 := wV_fn ..
  have r0 : bits (wV 25 d a b p 14) 21 5 = d := wV_d ..
  have r1 : bits (wV 25 d a b p 14) 16 5 = a := wV_a ..
  have r2 : bits (wV 25 d a b p 14) 11 5 = b := wV_b ..
  have r3 : bits (wV 25 d a b p 14) 5 6 = p := wV_p ..
  rw [decode_25 p0, decodeVints_14 p1, r0, r1, r2, r3]
  exact accept_ok (by rfl) h
theorem vsldn (d a b : BitVec 5) (p : BitVec 6) : Statement (.vsldn d a b p) := by
  intro _ h
  show decode (wV 25 d a b p 15) = _
  have p0 : bits (wV 25 d a b p 15) 26 6 = 25#6 := wV_major ..
  have p1 : bits (wV 25 d a b p 15) 0 5 = 15#5 := wV_fn ..
  have r0 : bits (wV 25 d a b p 15) 21 5 = d := wV_d ..
  have r1 : bits (wV 25 d a b p 15) 16 5 = a := wV_a ..
  have r2 : bits (wV 25 d a b p 15) 11 5 = b := wV_b ..
  have r3 : bits (wV 25 d a b p 15) 5 6 = p := wV_p ..
  rw [decode_25 p0, decodeVints_15 p1, r0, r1, r2, r3]
  exact accept_ok (by rfl) h
theorem vmov (d a : BitVec 5) (p : BitVec 6) : Statement (.vmov d a p) := by
  intro _ h
  show decode (wV 26 d a 0 p 0) = _
  have p0 : bits (wV 26 d a 0 p 0) 26 6 = 26#6 := wV_major ..
  have p1 : bits (wV 26 d a 0 p 0) 0 5 = 0#5 := wV_fn ..
  have z0 : bits (wV 26 d a 0 p 0) 11 5 = 0#5 := wV_b ..
  have r0 : bits (wV 26 d a 0 p 0) 21 5 = d := wV_d ..
  have r1 : bits (wV 26 d a 0 p 0) 16 5 = a := wV_a ..
  have r2 : bits (wV 26 d a 0 p 0) 5 6 = p := wV_p ..
  rw [decode_26 p0, decodeVun_0 p1, r0, r1, r2]
  exact accept_ok (by simp only [List.all_cons, List.all_nil, z0]; rfl) h
theorem vnot (d a : BitVec 5) (p : BitVec 6) : Statement (.vnot d a p) := by
  intro _ h
  show decode (wV 26 d a 0 p 1) = _
  have p0 : bits (wV 26 d a 0 p 1) 26 6 = 26#6 := wV_major ..
  have p1 : bits (wV 26 d a 0 p 1) 0 5 = 1#5 := wV_fn ..
  have z0 : bits (wV 26 d a 0 p 1) 11 5 = 0#5 := wV_b ..
  have r0 : bits (wV 26 d a 0 p 1) 21 5 = d := wV_d ..
  have r1 : bits (wV 26 d a 0 p 1) 16 5 = a := wV_a ..
  have r2 : bits (wV 26 d a 0 p 1) 5 6 = p := wV_p ..
  rw [decode_26 p0, decodeVun_1 p1, r0, r1, r2]
  exact accept_ok (by simp only [List.all_cons, List.all_nil, z0]; rfl) h
theorem vneg (d a : BitVec 5) (p : BitVec 6) : Statement (.vneg d a p) := by
  intro _ h
  show decode (wV 26 d a 0 p 2) = _
  have p0 : bits (wV 26 d a 0 p 2) 26 6 = 26#6 := wV_major ..
  have p1 : bits (wV 26 d a 0 p 2) 0 5 = 2#5 := wV_fn ..
  have z0 : bits (wV 26 d a 0 p 2) 11 5 = 0#5 := wV_b ..
  have r0 : bits (wV 26 d a 0 p 2) 21 5 = d := wV_d ..
  have r1 : bits (wV 26 d a 0 p 2) 16 5 = a := wV_a ..
  have r2 : bits (wV 26 d a 0 p 2) 5 6 = p := wV_p ..
  rw [decode_26 p0, decodeVun_2 p1, r0, r1, r2]
  exact accept_ok (by simp only [List.all_cons, List.all_nil, z0]; rfl) h
theorem vabs (d a : BitVec 5) (p : BitVec 6) : Statement (.vabs d a p) := by
  intro _ h
  show decode (wV 26 d a 0 p 3) = _
  have p0 : bits (wV 26 d a 0 p 3) 26 6 = 26#6 := wV_major ..
  have p1 : bits (wV 26 d a 0 p 3) 0 5 = 3#5 := wV_fn ..
  have z0 : bits (wV 26 d a 0 p 3) 11 5 = 0#5 := wV_b ..
  have r0 : bits (wV 26 d a 0 p 3) 21 5 = d := wV_d ..
  have r1 : bits (wV 26 d a 0 p 3) 16 5 = a := wV_a ..
  have r2 : bits (wV 26 d a 0 p 3) 5 6 = p := wV_p ..
  rw [decode_26 p0, decodeVun_3 p1, r0, r1, r2]
  exact accept_ok (by simp only [List.all_cons, List.all_nil, z0]; rfl) h
theorem vcvt (d a : BitVec 5) (p : BitVec 6) : Statement (.vcvt d a p) := by
  intro _ h
  show decode (wV 26 d a 0 p 4) = _
  have p0 : bits (wV 26 d a 0 p 4) 26 6 = 26#6 := wV_major ..
  have p1 : bits (wV 26 d a 0 p 4) 0 5 = 4#5 := wV_fn ..
  have z0 : bits (wV 26 d a 0 p 4) 11 5 = 0#5 := wV_b ..
  have r0 : bits (wV 26 d a 0 p 4) 21 5 = d := wV_d ..
  have r1 : bits (wV 26 d a 0 p 4) 16 5 = a := wV_a ..
  have r2 : bits (wV 26 d a 0 p 4) 5 6 = p := wV_p ..
  rw [decode_26 p0, decodeVun_4 p1, r0, r1, r2]
  exact accept_ok (by simp only [List.all_cons, List.all_nil, z0]; rfl) h
theorem vsatc (d a : BitVec 5) (p : BitVec 6) : Statement (.vsatc d a p) := by
  intro _ h
  show decode (wV 26 d a 0 p 5) = _
  have p0 : bits (wV 26 d a 0 p 5) 26 6 = 26#6 := wV_major ..
  have p1 : bits (wV 26 d a 0 p 5) 0 5 = 5#5 := wV_fn ..
  have z0 : bits (wV 26 d a 0 p 5) 11 5 = 0#5 := wV_b ..
  have r0 : bits (wV 26 d a 0 p 5) 21 5 = d := wV_d ..
  have r1 : bits (wV 26 d a 0 p 5) 16 5 = a := wV_a ..
  have r2 : bits (wV 26 d a 0 p 5) 5 6 = p := wV_p ..
  rw [decode_26 p0, decodeVun_5 p1, r0, r1, r2]
  exact accept_ok (by simp only [List.all_cons, List.all_nil, z0]; rfl) h
theorem vhad (d a k : BitVec 5) (p : BitVec 6) : Statement (.vhad d a k p) := by
  intro _ h
  show decode (wV 26 d a k p 6) = _
  have p0 : bits (wV 26 d a k p 6) 26 6 = 26#6 := wV_major ..
  have p1 : bits (wV 26 d a k p 6) 0 5 = 6#5 := wV_fn ..
  have r0 : bits (wV 26 d a k p 6) 21 5 = d := wV_d ..
  have r1 : bits (wV 26 d a k p 6) 16 5 = a := wV_a ..
  have r2 : bits (wV 26 d a k p 6) 11 5 = k := wV_b ..
  have r3 : bits (wV 26 d a k p 6) 5 6 = p := wV_p ..
  rw [decode_26 p0, decodeVun_6 p1, r0, r1, r2, r3]
  exact accept_ok (by rfl) h
theorem vidx (d : BitVec 5) (s t : BitVec 8) : Statement (.vidx d s t) := by
  intro _ h
  show decode (wVX 27 d s t 0) = _
  have p0 : bits (wVX 27 d s t 0) 26 6 = 27#6 := wVX_major ..
  have p1 : bits (wVX 27 d s t 0) 0 5 = 0#5 := wVX_fn ..
  have r0 : bits (wVX 27 d s t 0) 21 5 = d := wVX_d ..
  have r1 : bits (wVX 27 d s t 0) 13 8 = s := wVX_s ..
  have r2 : bits (wVX 27 d s t 0) 5 8 = t := wVX_t ..
  rw [decode_27 p0, decodeVx_0 p1, r0, r1, r2]
  exact accept_ok (by rfl) h
theorem vceq (d : BitVec 6) (a b : BitVec 5) (p : BitVec 6) : Statement (.vceq d a b p) := by
  intro _ h
  show decode (wVC 28 d a b p 0) = _
  have p0 : bits (wVC 28 d a b p 0) 26 6 = 28#6 := wVC_major ..
  have p1 : bits (wVC 28 d a b p 0) 0 4 = 0#4 := wVC_fn ..
  have r0 : bits (wVC 28 d a b p 0) 20 6 = d := wVC_d ..
  have r1 : bits (wVC 28 d a b p 0) 15 5 = a := wVC_a ..
  have r2 : bits (wVC 28 d a b p 0) 10 5 = b := wVC_b ..
  have r3 : bits (wVC 28 d a b p 0) 4 6 = p := wVC_p ..
  rw [decode_28 p0, decodeVc_0 p1, r0, r1, r2, r3]
  exact accept_ok (by rfl) h
theorem vcne (d : BitVec 6) (a b : BitVec 5) (p : BitVec 6) : Statement (.vcne d a b p) := by
  intro _ h
  show decode (wVC 28 d a b p 1) = _
  have p0 : bits (wVC 28 d a b p 1) 26 6 = 28#6 := wVC_major ..
  have p1 : bits (wVC 28 d a b p 1) 0 4 = 1#4 := wVC_fn ..
  have r0 : bits (wVC 28 d a b p 1) 20 6 = d := wVC_d ..
  have r1 : bits (wVC 28 d a b p 1) 15 5 = a := wVC_a ..
  have r2 : bits (wVC 28 d a b p 1) 10 5 = b := wVC_b ..
  have r3 : bits (wVC 28 d a b p 1) 4 6 = p := wVC_p ..
  rw [decode_28 p0, decodeVc_1 p1, r0, r1, r2, r3]
  exact accept_ok (by rfl) h
theorem vclt (d : BitVec 6) (a b : BitVec 5) (p : BitVec 6) : Statement (.vclt d a b p) := by
  intro _ h
  show decode (wVC 28 d a b p 2) = _
  have p0 : bits (wVC 28 d a b p 2) 26 6 = 28#6 := wVC_major ..
  have p1 : bits (wVC 28 d a b p 2) 0 4 = 2#4 := wVC_fn ..
  have r0 : bits (wVC 28 d a b p 2) 20 6 = d := wVC_d ..
  have r1 : bits (wVC 28 d a b p 2) 15 5 = a := wVC_a ..
  have r2 : bits (wVC 28 d a b p 2) 10 5 = b := wVC_b ..
  have r3 : bits (wVC 28 d a b p 2) 4 6 = p := wVC_p ..
  rw [decode_28 p0, decodeVc_2 p1, r0, r1, r2, r3]
  exact accept_ok (by rfl) h
theorem vcle (d : BitVec 6) (a b : BitVec 5) (p : BitVec 6) : Statement (.vcle d a b p) := by
  intro _ h
  show decode (wVC 28 d a b p 3) = _
  have p0 : bits (wVC 28 d a b p 3) 26 6 = 28#6 := wVC_major ..
  have p1 : bits (wVC 28 d a b p 3) 0 4 = 3#4 := wVC_fn ..
  have r0 : bits (wVC 28 d a b p 3) 20 6 = d := wVC_d ..
  have r1 : bits (wVC 28 d a b p 3) 15 5 = a := wVC_a ..
  have r2 : bits (wVC 28 d a b p 3) 10 5 = b := wVC_b ..
  have r3 : bits (wVC 28 d a b p 3) 4 6 = p := wVC_p ..
  rw [decode_28 p0, decodeVc_3 p1, r0, r1, r2, r3]
  exact accept_ok (by rfl) h
theorem vceqs (d : BitVec 6) (a b : BitVec 5) (p : BitVec 6) : Statement (.vceqs d a b p) := by
  intro _ h
  show decode (wVC 28 d a b p 4) = _
  have p0 : bits (wVC 28 d a b p 4) 26 6 = 28#6 := wVC_major ..
  have p1 : bits (wVC 28 d a b p 4) 0 4 = 4#4 := wVC_fn ..
  have r0 : bits (wVC 28 d a b p 4) 20 6 = d := wVC_d ..
  have r1 : bits (wVC 28 d a b p 4) 15 5 = a := wVC_a ..
  have r2 : bits (wVC 28 d a b p 4) 10 5 = b := wVC_b ..
  have r3 : bits (wVC 28 d a b p 4) 4 6 = p := wVC_p ..
  rw [decode_28 p0, decodeVc_4 p1, r0, r1, r2, r3]
  exact accept_ok (by rfl) h
theorem vcnes (d : BitVec 6) (a b : BitVec 5) (p : BitVec 6) : Statement (.vcnes d a b p) := by
  intro _ h
  show decode (wVC 28 d a b p 5) = _
  have p0 : bits (wVC 28 d a b p 5) 26 6 = 28#6 := wVC_major ..
  have p1 : bits (wVC 28 d a b p 5) 0 4 = 5#4 := wVC_fn ..
  have r0 : bits (wVC 28 d a b p 5) 20 6 = d := wVC_d ..
  have r1 : bits (wVC 28 d a b p 5) 15 5 = a := wVC_a ..
  have r2 : bits (wVC 28 d a b p 5) 10 5 = b := wVC_b ..
  have r3 : bits (wVC 28 d a b p 5) 4 6 = p := wVC_p ..
  rw [decode_28 p0, decodeVc_5 p1, r0, r1, r2, r3]
  exact accept_ok (by rfl) h
theorem vclts (d : BitVec 6) (a b : BitVec 5) (p : BitVec 6) : Statement (.vclts d a b p) := by
  intro _ h
  show decode (wVC 28 d a b p 6) = _
  have p0 : bits (wVC 28 d a b p 6) 26 6 = 28#6 := wVC_major ..
  have p1 : bits (wVC 28 d a b p 6) 0 4 = 6#4 := wVC_fn ..
  have r0 : bits (wVC 28 d a b p 6) 20 6 = d := wVC_d ..
  have r1 : bits (wVC 28 d a b p 6) 15 5 = a := wVC_a ..
  have r2 : bits (wVC 28 d a b p 6) 10 5 = b := wVC_b ..
  have r3 : bits (wVC 28 d a b p 6) 4 6 = p := wVC_p ..
  rw [decode_28 p0, decodeVc_6 p1, r0, r1, r2, r3]
  exact accept_ok (by rfl) h
theorem vcles (d : BitVec 6) (a b : BitVec 5) (p : BitVec 6) : Statement (.vcles d a b p) := by
  intro _ h
  show decode (wVC 28 d a b p 7) = _
  have p0 : bits (wVC 28 d a b p 7) 26 6 = 28#6 := wVC_major ..
  have p1 : bits (wVC 28 d a b p 7) 0 4 = 7#4 := wVC_fn ..
  have r0 : bits (wVC 28 d a b p 7) 20 6 = d := wVC_d ..
  have r1 : bits (wVC 28 d a b p 7) 15 5 = a := wVC_a ..
  have r2 : bits (wVC 28 d a b p 7) 10 5 = b := wVC_b ..
  have r3 : bits (wVC 28 d a b p 7) 4 6 = p := wVC_p ..
  rw [decode_28 p0, decodeVc_7 p1, r0, r1, r2, r3]
  exact accept_ok (by rfl) h
theorem vcgts (d : BitVec 6) (a b : BitVec 5) (p : BitVec 6) : Statement (.vcgts d a b p) := by
  intro _ h
  show decode (wVC 28 d a b p 8) = _
  have p0 : bits (wVC 28 d a b p 8) 26 6 = 28#6 := wVC_major ..
  have p1 : bits (wVC 28 d a b p 8) 0 4 = 8#4 := wVC_fn ..
  have r0 : bits (wVC 28 d a b p 8) 20 6 = d := wVC_d ..
  have r1 : bits (wVC 28 d a b p 8) 15 5 = a := wVC_a ..
  have r2 : bits (wVC 28 d a b p 8) 10 5 = b := wVC_b ..
  have r3 : bits (wVC 28 d a b p 8) 4 6 = p := wVC_p ..
  rw [decode_28 p0, decodeVc_8 p1, r0, r1, r2, r3]
  exact accept_ok (by rfl) h
theorem vcges (d : BitVec 6) (a b : BitVec 5) (p : BitVec 6) : Statement (.vcges d a b p) := by
  intro _ h
  show decode (wVC 28 d a b p 9) = _
  have p0 : bits (wVC 28 d a b p 9) 26 6 = 28#6 := wVC_major ..
  have p1 : bits (wVC 28 d a b p 9) 0 4 = 9#4 := wVC_fn ..
  have r0 : bits (wVC 28 d a b p 9) 20 6 = d := wVC_d ..
  have r1 : bits (wVC 28 d a b p 9) 15 5 = a := wVC_a ..
  have r2 : bits (wVC 28 d a b p 9) 10 5 = b := wVC_b ..
  have r3 : bits (wVC 28 d a b p 9) 4 6 = p := wVC_p ..
  rw [decode_28 p0, decodeVc_9 p1, r0, r1, r2, r3]
  exact accept_ok (by rfl) h
theorem vtst (d : BitVec 6) (a b : BitVec 5) (p : BitVec 6) : Statement (.vtst d a b p) := by
  intro _ h
  show decode (wVC 28 d a b p 10) = _
  have p0 : bits (wVC 28 d a b p 10) 26 6 = 28#6 := wVC_major ..
  have p1 : bits (wVC 28 d a b p 10) 0 4 = 10#4 := wVC_fn ..
  have r0 : bits (wVC 28 d a b p 10) 20 6 = d := wVC_d ..
  have r1 : bits (wVC 28 d a b p 10) 15 5 = a := wVC_a ..
  have r2 : bits (wVC 28 d a b p 10) 10 5 = b := wVC_b ..
  have r3 : bits (wVC 28 d a b p 10) 4 6 = p := wVC_p ..
  rw [decode_28 p0, decodeVc_10 p1, r0, r1, r2, r3]
  exact accept_ok (by rfl) h
theorem fceq (d : BitVec 6) (a b : BitVec 5) (p : BitVec 6) : Statement (.fceq d a b p) := by
  intro _ h
  show decode (wVC 28 d a b p 11) = _
  have p0 : bits (wVC 28 d a b p 11) 26 6 = 28#6 := wVC_major ..
  have p1 : bits (wVC 28 d a b p 11) 0 4 = 11#4 := wVC_fn ..
  have r0 : bits (wVC 28 d a b p 11) 20 6 = d := wVC_d ..
  have r1 : bits (wVC 28 d a b p 11) 15 5 = a := wVC_a ..
  have r2 : bits (wVC 28 d a b p 11) 10 5 = b := wVC_b ..
  have r3 : bits (wVC 28 d a b p 11) 4 6 = p := wVC_p ..
  rw [decode_28 p0, decodeVc_11 p1, r0, r1, r2, r3]
  exact accept_ok (by rfl) h
theorem fclt (d : BitVec 6) (a b : BitVec 5) (p : BitVec 6) : Statement (.fclt d a b p) := by
  intro _ h
  show decode (wVC 28 d a b p 12) = _
  have p0 : bits (wVC 28 d a b p 12) 26 6 = 28#6 := wVC_major ..
  have p1 : bits (wVC 28 d a b p 12) 0 4 = 12#4 := wVC_fn ..
  have r0 : bits (wVC 28 d a b p 12) 20 6 = d := wVC_d ..
  have r1 : bits (wVC 28 d a b p 12) 15 5 = a := wVC_a ..
  have r2 : bits (wVC 28 d a b p 12) 10 5 = b := wVC_b ..
  have r3 : bits (wVC 28 d a b p 12) 4 6 = p := wVC_p ..
  rw [decode_28 p0, decodeVc_12 p1, r0, r1, r2, r3]
  exact accept_ok (by rfl) h
theorem fcle (d : BitVec 6) (a b : BitVec 5) (p : BitVec 6) : Statement (.fcle d a b p) := by
  intro _ h
  show decode (wVC 28 d a b p 13) = _
  have p0 : bits (wVC 28 d a b p 13) 26 6 = 28#6 := wVC_major ..
  have p1 : bits (wVC 28 d a b p 13) 0 4 = 13#4 := wVC_fn ..
  have r0 : bits (wVC 28 d a b p 13) 20 6 = d := wVC_d ..
  have r1 : bits (wVC 28 d a b p 13) 15 5 = a := wVC_a ..
  have r2 : bits (wVC 28 d a b p 13) 10 5 = b := wVC_b ..
  have r3 : bits (wVC 28 d a b p 13) 4 6 = p := wVC_p ..
  rw [decode_28 p0, decodeVc_13 p1, r0, r1, r2, r3]
  exact accept_ok (by rfl) h
theorem fcun (d : BitVec 6) (a b : BitVec 5) (p : BitVec 6) : Statement (.fcun d a b p) := by
  intro _ h
  show decode (wVC 28 d a b p 14) = _
  have p0 : bits (wVC 28 d a b p 14) 26 6 = 28#6 := wVC_major ..
  have p1 : bits (wVC 28 d a b p 14) 0 4 = 14#4 := wVC_fn ..
  have r0 : bits (wVC 28 d a b p 14) 20 6 = d := wVC_d ..
  have r1 : bits (wVC 28 d a b p 14) 15 5 = a := wVC_a ..
  have r2 : bits (wVC 28 d a b p 14) 10 5 = b := wVC_b ..
  have r3 : bits (wVC 28 d a b p 14) 4 6 = p := wVC_p ..
  rw [decode_28 p0, decodeVc_14 p1, r0, r1, r2, r3]
  exact accept_ok (by rfl) h
theorem pand (d a b : BitVec 6) : Statement (.pand d a b) := by
  intro _ h
  show decode (wP 29 d a b 0) = _
  have p0 : bits (wP 29 d a b 0) 26 6 = 29#6 := wP_major ..
  have p1 : bits (wP 29 d a b 0) 0 5 = 0#5 := wP_fn ..
  have z0 : bits (wP 29 d a b 0) 5 3 = 0#3 := wP_gap5 ..
  have r0 : bits (wP 29 d a b 0) 20 6 = d := wP_d ..
  have r1 : bits (wP 29 d a b 0) 14 6 = a := wP_a ..
  have r2 : bits (wP 29 d a b 0) 8 6 = b := wP_b ..
  rw [decode_29 p0, decodePred_0 p1, r0, r1, r2]
  exact accept_ok (by simp only [List.all_cons, List.all_nil, z0]; rfl) h
theorem por (d a b : BitVec 6) : Statement (.por d a b) := by
  intro _ h
  show decode (wP 29 d a b 1) = _
  have p0 : bits (wP 29 d a b 1) 26 6 = 29#6 := wP_major ..
  have p1 : bits (wP 29 d a b 1) 0 5 = 1#5 := wP_fn ..
  have z0 : bits (wP 29 d a b 1) 5 3 = 0#3 := wP_gap5 ..
  have r0 : bits (wP 29 d a b 1) 20 6 = d := wP_d ..
  have r1 : bits (wP 29 d a b 1) 14 6 = a := wP_a ..
  have r2 : bits (wP 29 d a b 1) 8 6 = b := wP_b ..
  rw [decode_29 p0, decodePred_1 p1, r0, r1, r2]
  exact accept_ok (by simp only [List.all_cons, List.all_nil, z0]; rfl) h
theorem pxor (d a b : BitVec 6) : Statement (.pxor d a b) := by
  intro _ h
  show decode (wP 29 d a b 2) = _
  have p0 : bits (wP 29 d a b 2) 26 6 = 29#6 := wP_major ..
  have p1 : bits (wP 29 d a b 2) 0 5 = 2#5 := wP_fn ..
  have z0 : bits (wP 29 d a b 2) 5 3 = 0#3 := wP_gap5 ..
  have r0 : bits (wP 29 d a b 2) 20 6 = d := wP_d ..
  have r1 : bits (wP 29 d a b 2) 14 6 = a := wP_a ..
  have r2 : bits (wP 29 d a b 2) 8 6 = b := wP_b ..
  rw [decode_29 p0, decodePred_2 p1, r0, r1, r2]
  exact accept_ok (by simp only [List.all_cons, List.all_nil, z0]; rfl) h
theorem pandn (d a b : BitVec 6) : Statement (.pandn d a b) := by
  intro _ h
  show decode (wP 29 d a b 3) = _
  have p0 : bits (wP 29 d a b 3) 26 6 = 29#6 := wP_major ..
  have p1 : bits (wP 29 d a b 3) 0 5 = 3#5 := wP_fn ..
  have z0 : bits (wP 29 d a b 3) 5 3 = 0#3 := wP_gap5 ..
  have r0 : bits (wP 29 d a b 3) 20 6 = d := wP_d ..
  have r1 : bits (wP 29 d a b 3) 14 6 = a := wP_a ..
  have r2 : bits (wP 29 d a b 3) 8 6 = b := wP_b ..
  rw [decode_29 p0, decodePred_3 p1, r0, r1, r2]
  exact accept_ok (by simp only [List.all_cons, List.all_nil, z0]; rfl) h
theorem pnot (d a : BitVec 6) : Statement (.pnot d a) := by
  intro _ h
  show decode (wP 29 d a 0 4) = _
  have p0 : bits (wP 29 d a 0 4) 26 6 = 29#6 := wP_major ..
  have p1 : bits (wP 29 d a 0 4) 0 5 = 4#5 := wP_fn ..
  have z0 : bits (wP 29 d a 0 4) 5 9 = 0#9 := bits_join 5 3 8 6 9 rfl rfl (wP_gap5 ..)
    (wP_b ..)
  have r0 : bits (wP 29 d a 0 4) 20 6 = d := wP_d ..
  have r1 : bits (wP 29 d a 0 4) 14 6 = a := wP_a ..
  rw [decode_29 p0, decodePred_4 p1, r0, r1]
  exact accept_ok (by simp only [List.all_cons, List.all_nil, z0]; rfl) h
theorem pmov (d a : BitVec 6) : Statement (.pmov d a) := by
  intro _ h
  show decode (wP 29 d a 0 5) = _
  have p0 : bits (wP 29 d a 0 5) 26 6 = 29#6 := wP_major ..
  have p1 : bits (wP 29 d a 0 5) 0 5 = 5#5 := wP_fn ..
  have z0 : bits (wP 29 d a 0 5) 5 9 = 0#9 := bits_join 5 3 8 6 9 rfl rfl (wP_gap5 ..)
    (wP_b ..)
  have r0 : bits (wP 29 d a 0 5) 20 6 = d := wP_d ..
  have r1 : bits (wP 29 d a 0 5) 14 6 = a := wP_a ..
  rw [decode_29 p0, decodePred_5 p1, r0, r1]
  exact accept_ok (by simp only [List.all_cons, List.all_nil, z0]; rfl) h
theorem pall (d : BitVec 6) : Statement (.pall d) := by
  intro _ h
  show decode (wP 29 d 0 0 6) = _
  have p0 : bits (wP 29 d 0 0 6) 26 6 = 29#6 := wP_major ..
  have p1 : bits (wP 29 d 0 0 6) 0 5 = 6#5 := wP_fn ..
  have z0 : bits (wP 29 d 0 0 6) 5 15 = 0#15 := bits_join 5 3 8 12 15 rfl rfl (wP_gap5 ..)
    (bits_join 8 6 14 6 12 rfl rfl (wP_b ..)
    (wP_a ..))
  have r0 : bits (wP 29 d 0 0 6) 20 6 = d := wP_d ..
  rw [decode_29 p0, decodePred_6 p1, r0]
  exact accept_ok (by simp only [List.all_cons, List.all_nil, z0]; rfl) h
theorem pclr (d : BitVec 6) : Statement (.pclr d) := by
  intro _ h
  show decode (wP 29 d 0 0 7) = _
  have p0 : bits (wP 29 d 0 0 7) 26 6 = 29#6 := wP_major ..
  have p1 : bits (wP 29 d 0 0 7) 0 5 = 7#5 := wP_fn ..
  have z0 : bits (wP 29 d 0 0 7) 5 15 = 0#15 := bits_join 5 3 8 12 15 rfl rfl (wP_gap5 ..)
    (bits_join 8 6 14 6 12 rfl rfl (wP_b ..)
    (wP_a ..))
  have r0 : bits (wP 29 d 0 0 7) 20 6 = d := wP_d ..
  rw [decode_29 p0, decodePred_7 p1, r0]
  exact accept_ok (by simp only [List.all_cons, List.all_nil, z0]; rfl) h
theorem pcnt (d : BitVec 5) (a : BitVec 6) : Statement (.pcnt d a) := by
  intro _ h
  show decode (wP 29 (d ++ 0#1) a 0 8) = _
  have p0 : bits (wP 29 (d ++ 0#1) a 0 8) 26 6 = 29#6 := wP_major ..
  have p1 : bits (wP 29 (d ++ 0#1) a 0 8) 0 5 = 8#5 := wP_fn ..
  have z0 : bits (wP 29 (d ++ 0#1) a 0 8) 20 1 = 0#1 := (bits_sub (m := 6) 20 0 20 1 rfl (by decide)).trans
    ((congrArg _ (wP_d ..)).trans ((by decide : ∀ (d : BitVec 5), BitVec.extractLsb' 0 1 ((d ++ 0#1) : BitVec 6) = 0#1) d))
  have z1 : bits (wP 29 (d ++ 0#1) a 0 8) 5 9 = 0#9 := bits_join 5 3 8 6 9 rfl rfl (wP_gap5 ..)
    (wP_b ..)
  have r0 : bits (wP 29 (d ++ 0#1) a 0 8) 21 5 = d := (bits_sub (m := 6) 20 1 21 5 rfl (by decide)).trans
    ((congrArg _ (wP_d ..)).trans ((by decide : ∀ (d : BitVec 5), BitVec.extractLsb' 1 5 ((d ++ 0#1) : BitVec 6) = d) d))
  have r1 : bits (wP 29 (d ++ 0#1) a 0 8) 14 6 = a := wP_a ..
  rw [decode_29 p0, decodePred_8 p1, r0, r1]
  exact accept_ok (by simp only [List.all_cons, List.all_nil, z0, z1]; rfl) h
theorem pffs (d : BitVec 5) (a : BitVec 6) : Statement (.pffs d a) := by
  intro _ h
  show decode (wP 29 (d ++ 0#1) a 0 9) = _
  have p0 : bits (wP 29 (d ++ 0#1) a 0 9) 26 6 = 29#6 := wP_major ..
  have p1 : bits (wP 29 (d ++ 0#1) a 0 9) 0 5 = 9#5 := wP_fn ..
  have z0 : bits (wP 29 (d ++ 0#1) a 0 9) 20 1 = 0#1 := (bits_sub (m := 6) 20 0 20 1 rfl (by decide)).trans
    ((congrArg _ (wP_d ..)).trans ((by decide : ∀ (d : BitVec 5), BitVec.extractLsb' 0 1 ((d ++ 0#1) : BitVec 6) = 0#1) d))
  have z1 : bits (wP 29 (d ++ 0#1) a 0 9) 5 9 = 0#9 := bits_join 5 3 8 6 9 rfl rfl (wP_gap5 ..)
    (wP_b ..)
  have r0 : bits (wP 29 (d ++ 0#1) a 0 9) 21 5 = d := (bits_sub (m := 6) 20 1 21 5 rfl (by decide)).trans
    ((congrArg _ (wP_d ..)).trans ((by decide : ∀ (d : BitVec 5), BitVec.extractLsb' 1 5 ((d ++ 0#1) : BitVec 6) = d) d))
  have r1 : bits (wP 29 (d ++ 0#1) a 0 9) 14 6 = a := wP_a ..
  rw [decode_29 p0, decodePred_9 p1, r0, r1]
  exact accept_ok (by simp only [List.all_cons, List.all_nil, z0, z1]; rfl) h
theorem pfilt (d a b : BitVec 6) : Statement (.pfilt d a b) := by
  intro _ h
  show decode (wP 29 d a b 10) = _
  have p0 : bits (wP 29 d a b 10) 26 6 = 29#6 := wP_major ..
  have p1 : bits (wP 29 d a b 10) 0 5 = 10#5 := wP_fn ..
  have z0 : bits (wP 29 d a b 10) 5 3 = 0#3 := wP_gap5 ..
  have r0 : bits (wP 29 d a b 10) 20 6 = d := wP_d ..
  have r1 : bits (wP 29 d a b 10) 14 6 = a := wP_a ..
  have r2 : bits (wP 29 d a b 10) 8 6 = b := wP_b ..
  rw [decode_29 p0, decodePred_10 p1, r0, r1, r2]
  exact accept_ok (by simp only [List.all_cons, List.all_nil, z0]; rfl) h
theorem mpush (a : BitVec 6) : Statement (.mpush a) := by
  intro _ h
  show decode (wP 29 0 a 0 11) = _
  have p0 : bits (wP 29 0 a 0 11) 26 6 = 29#6 := wP_major ..
  have p1 : bits (wP 29 0 a 0 11) 0 5 = 11#5 := wP_fn ..
  have z0 : bits (wP 29 0 a 0 11) 20 6 = 0#6 := wP_d ..
  have z1 : bits (wP 29 0 a 0 11) 5 9 = 0#9 := bits_join 5 3 8 6 9 rfl rfl (wP_gap5 ..)
    (wP_b ..)
  have r0 : bits (wP 29 0 a 0 11) 14 6 = a := wP_a ..
  rw [decode_29 p0, decodePred_11 p1, r0]
  exact accept_ok (by simp only [List.all_cons, List.all_nil, z0, z1]; rfl) h
theorem minv  : Statement (.minv ) := by
  intro _ h
  show decode (wP 29 0 0 0 12) = _
  have p0 : bits (wP 29 0 0 0 12) 26 6 = 29#6 := wP_major ..
  have p1 : bits (wP 29 0 0 0 12) 0 5 = 12#5 := wP_fn ..
  have z0 : bits (wP 29 0 0 0 12) 5 21 = 0#21 := bits_join 5 3 8 18 21 rfl rfl (wP_gap5 ..)
    (bits_join 8 6 14 12 18 rfl rfl (wP_b ..)
    (bits_join 14 6 20 6 12 rfl rfl (wP_a ..)
    (wP_d ..)))
  rw [decode_29 p0, decodePred_12 p1]
  exact accept_ok (by simp only [List.all_cons, List.all_nil, z0]; rfl) h
theorem mpop  : Statement (.mpop ) := by
  intro _ h
  show decode (wP 29 0 0 0 13) = _
  have p0 : bits (wP 29 0 0 0 13) 26 6 = 29#6 := wP_major ..
  have p1 : bits (wP 29 0 0 0 13) 0 5 = 13#5 := wP_fn ..
  have z0 : bits (wP 29 0 0 0 13) 5 21 = 0#21 := bits_join 5 3 8 18 21 rfl rfl (wP_gap5 ..)
    (bits_join 8 6 14 12 18 rfl rfl (wP_b ..)
    (bits_join 14 6 20 6 12 rfl rfl (wP_a ..)
    (wP_d ..)))
  rw [decode_29 p0, decodePred_13 p1]
  exact accept_ok (by simp only [List.all_cons, List.all_nil, z0]; rfl) h
theorem mtop (d : BitVec 6) : Statement (.mtop d) := by
  intro _ h
  show decode (wP 29 d 0 0 14) = _
  have p0 : bits (wP 29 d 0 0 14) 26 6 = 29#6 := wP_major ..
  have p1 : bits (wP 29 d 0 0 14) 0 5 = 14#5 := wP_fn ..
  have z0 : bits (wP 29 d 0 0 14) 5 15 = 0#15 := bits_join 5 3 8 12 15 rfl rfl (wP_gap5 ..)
    (bits_join 8 6 14 6 12 rfl rfl (wP_b ..)
    (wP_a ..))
  have r0 : bits (wP 29 d 0 0 14) 20 6 = d := wP_d ..
  rw [decode_29 p0, decodePred_14 p1, r0]
  exact accept_ok (by simp only [List.all_cons, List.all_nil, z0]; rfl) h
theorem seamrd (d : BitVec 6) : Statement (.seamrd d) := by
  intro _ h
  show decode (wP 29 d 0 0 15) = _
  have p0 : bits (wP 29 d 0 0 15) 26 6 = 29#6 := wP_major ..
  have p1 : bits (wP 29 d 0 0 15) 0 5 = 15#5 := wP_fn ..
  have z0 : bits (wP 29 d 0 0 15) 5 15 = 0#15 := bits_join 5 3 8 12 15 rfl rfl (wP_gap5 ..)
    (bits_join 8 6 14 6 12 rfl rfl (wP_b ..)
    (wP_a ..))
  have r0 : bits (wP 29 d 0 0 15) 20 6 = d := wP_d ..
  rw [decode_29 p0, decodePred_15 p1, r0]
  exact accept_ok (by simp only [List.all_cons, List.all_nil, z0]; rfl) h
theorem seamwr (a : BitVec 6) : Statement (.seamwr a) := by
  intro _ h
  show decode (wP 29 0 a 0 16) = _
  have p0 : bits (wP 29 0 a 0 16) 26 6 = 29#6 := wP_major ..
  have p1 : bits (wP 29 0 a 0 16) 0 5 = 16#5 := wP_fn ..
  have z0 : bits (wP 29 0 a 0 16) 20 6 = 0#6 := wP_d ..
  have z1 : bits (wP 29 0 a 0 16) 5 9 = 0#9 := bits_join 5 3 8 6 9 rfl rfl (wP_gap5 ..)
    (wP_b ..)
  have r0 : bits (wP 29 0 a 0 16) 14 6 = a := wP_a ..
  rw [decode_29 p0, decodePred_16 p1, r0]
  exact accept_ok (by simp only [List.all_cons, List.all_nil, z0, z1]; rfl) h
theorem vredsum (d a b : BitVec 5) (p : BitVec 6) : Statement (.vredsum d a b p) := by
  intro _ h
  show decode (wV 30 d a b p 0) = _
  have p0 : bits (wV 30 d a b p 0) 26 6 = 30#6 := wV_major ..
  have p1 : bits (wV 30 d a b p 0) 0 5 = 0#5 := wV_fn ..
  have r0 : bits (wV 30 d a b p 0) 21 5 = d := wV_d ..
  have r1 : bits (wV 30 d a b p 0) 16 5 = a := wV_a ..
  have r2 : bits (wV 30 d a b p 0) 11 5 = b := wV_b ..
  have r3 : bits (wV 30 d a b p 0) 5 6 = p := wV_p ..
  rw [decode_30 p0, decodeReduce_0 p1, r0, r1, r2, r3]
  exact accept_ok (by rfl) h
theorem vredmin (d a b : BitVec 5) (p : BitVec 6) : Statement (.vredmin d a b p) := by
  intro _ h
  show decode (wV 30 d a b p 1) = _
  have p0 : bits (wV 30 d a b p 1) 26 6 = 30#6 := wV_major ..
  have p1 : bits (wV 30 d a b p 1) 0 5 = 1#5 := wV_fn ..
  have r0 : bits (wV 30 d a b p 1) 21 5 = d := wV_d ..
  have r1 : bits (wV 30 d a b p 1) 16 5 = a := wV_a ..
  have r2 : bits (wV 30 d a b p 1) 11 5 = b := wV_b ..
  have r3 : bits (wV 30 d a b p 1) 5 6 = p := wV_p ..
  rw [decode_30 p0, decodeReduce_1 p1, r0, r1, r2, r3]
  exact accept_ok (by rfl) h
theorem vredmax (d a b : BitVec 5) (p : BitVec 6) : Statement (.vredmax d a b p) := by
  intro _ h
  show decode (wV 30 d a b p 2) = _
  have p0 : bits (wV 30 d a b p 2) 26 6 = 30#6 := wV_major ..
  have p1 : bits (wV 30 d a b p 2) 0 5 = 2#5 := wV_fn ..
  have r0 : bits (wV 30 d a b p 2) 21 5 = d := wV_d ..
  have r1 : bits (wV 30 d a b p 2) 16 5 = a := wV_a ..
  have r2 : bits (wV 30 d a b p 2) 11 5 = b := wV_b ..
  have r3 : bits (wV 30 d a b p 2) 5 6 = p := wV_p ..
  rw [decode_30 p0, decodeReduce_2 p1, r0, r1, r2, r3]
  exact accept_ok (by rfl) h
theorem vredand (d a b : BitVec 5) (p : BitVec 6) : Statement (.vredand d a b p) := by
  intro _ h
  show decode (wV 30 d a b p 3) = _
  have p0 : bits (wV 30 d a b p 3) 26 6 = 30#6 := wV_major ..
  have p1 : bits (wV 30 d a b p 3) 0 5 = 3#5 := wV_fn ..
  have r0 : bits (wV 30 d a b p 3) 21 5 = d := wV_d ..
  have r1 : bits (wV 30 d a b p 3) 16 5 = a := wV_a ..
  have r2 : bits (wV 30 d a b p 3) 11 5 = b := wV_b ..
  have r3 : bits (wV 30 d a b p 3) 5 6 = p := wV_p ..
  rw [decode_30 p0, decodeReduce_3 p1, r0, r1, r2, r3]
  exact accept_ok (by rfl) h
theorem vredor (d a b : BitVec 5) (p : BitVec 6) : Statement (.vredor d a b p) := by
  intro _ h
  show decode (wV 30 d a b p 4) = _
  have p0 : bits (wV 30 d a b p 4) 26 6 = 30#6 := wV_major ..
  have p1 : bits (wV 30 d a b p 4) 0 5 = 4#5 := wV_fn ..
  have r0 : bits (wV 30 d a b p 4) 21 5 = d := wV_d ..
  have r1 : bits (wV 30 d a b p 4) 16 5 = a := wV_a ..
  have r2 : bits (wV 30 d a b p 4) 11 5 = b := wV_b ..
  have r3 : bits (wV 30 d a b p 4) 5 6 = p := wV_p ..
  rw [decode_30 p0, decodeReduce_4 p1, r0, r1, r2, r3]
  exact accept_ok (by rfl) h
theorem vargmax (d a b : BitVec 5) (p : BitVec 6) : Statement (.vargmax d a b p) := by
  intro _ h
  show decode (wV 30 d a b p 5) = _
  have p0 : bits (wV 30 d a b p 5) 26 6 = 30#6 := wV_major ..
  have p1 : bits (wV 30 d a b p 5) 0 5 = 5#5 := wV_fn ..
  have r0 : bits (wV 30 d a b p 5) 21 5 = d := wV_d ..
  have r1 : bits (wV 30 d a b p 5) 16 5 = a := wV_a ..
  have r2 : bits (wV 30 d a b p 5) 11 5 = b := wV_b ..
  have r3 : bits (wV 30 d a b p 5) 5 6 = p := wV_p ..
  rw [decode_30 p0, decodeReduce_5 p1, r0, r1, r2, r3]
  exact accept_ok (by rfl) h
theorem vargmin (d a b : BitVec 5) (p : BitVec 6) : Statement (.vargmin d a b p) := by
  intro _ h
  show decode (wV 30 d a b p 6) = _
  have p0 : bits (wV 30 d a b p 6) 26 6 = 30#6 := wV_major ..
  have p1 : bits (wV 30 d a b p 6) 0 5 = 6#5 := wV_fn ..
  have r0 : bits (wV 30 d a b p 6) 21 5 = d := wV_d ..
  have r1 : bits (wV 30 d a b p 6) 16 5 = a := wV_a ..
  have r2 : bits (wV 30 d a b p 6) 11 5 = b := wV_b ..
  have r3 : bits (wV 30 d a b p 6) 5 6 = p := wV_p ..
  rw [decode_30 p0, decodeReduce_6 p1, r0, r1, r2, r3]
  exact accept_ok (by rfl) h
theorem fredsum (d a b : BitVec 5) (p : BitVec 6) : Statement (.fredsum d a b p) := by
  intro _ h
  show decode (wV 30 d a b p 7) = _
  have p0 : bits (wV 30 d a b p 7) 26 6 = 30#6 := wV_major ..
  have p1 : bits (wV 30 d a b p 7) 0 5 = 7#5 := wV_fn ..
  have r0 : bits (wV 30 d a b p 7) 21 5 = d := wV_d ..
  have r1 : bits (wV 30 d a b p 7) 16 5 = a := wV_a ..
  have r2 : bits (wV 30 d a b p 7) 11 5 = b := wV_b ..
  have r3 : bits (wV 30 d a b p 7) 5 6 = p := wV_p ..
  rw [decode_30 p0, decodeReduce_7 p1, r0, r1, r2, r3]
  exact accept_ok (by rfl) h
theorem fredmax (d a b : BitVec 5) (p : BitVec 6) : Statement (.fredmax d a b p) := by
  intro _ h
  show decode (wV 30 d a b p 8) = _
  have p0 : bits (wV 30 d a b p 8) 26 6 = 30#6 := wV_major ..
  have p1 : bits (wV 30 d a b p 8) 0 5 = 8#5 := wV_fn ..
  have r0 : bits (wV 30 d a b p 8) 21 5 = d := wV_d ..
  have r1 : bits (wV 30 d a b p 8) 16 5 = a := wV_a ..
  have r2 : bits (wV 30 d a b p 8) 11 5 = b := wV_b ..
  have r3 : bits (wV 30 d a b p 8) 5 6 = p := wV_p ..
  rw [decode_30 p0, decodeReduce_8 p1, r0, r1, r2, r3]
  exact accept_ok (by rfl) h
theorem fargmax (d a b : BitVec 5) (p : BitVec 6) : Statement (.fargmax d a b p) := by
  intro _ h
  show decode (wV 30 d a b p 9) = _
  have p0 : bits (wV 30 d a b p 9) 26 6 = 30#6 := wV_major ..
  have p1 : bits (wV 30 d a b p 9) 0 5 = 9#5 := wV_fn ..
  have r0 : bits (wV 30 d a b p 9) 21 5 = d := wV_d ..
  have r1 : bits (wV 30 d a b p 9) 16 5 = a := wV_a ..
  have r2 : bits (wV 30 d a b p 9) 11 5 = b := wV_b ..
  have r3 : bits (wV 30 d a b p 9) 5 6 = p := wV_p ..
  rw [decode_30 p0, decodeReduce_9 p1, r0, r1, r2, r3]
  exact accept_ok (by rfl) h
theorem vscansum (d a : BitVec 5) (p : BitVec 6) : Statement (.vscansum d a p) := by
  intro _ h
  show decode (wV 31 d a 0 p 0) = _
  have p0 : bits (wV 31 d a 0 p 0) 26 6 = 31#6 := wV_major ..
  have p1 : bits (wV 31 d a 0 p 0) 0 5 = 0#5 := wV_fn ..
  have z0 : bits (wV 31 d a 0 p 0) 11 5 = 0#5 := wV_b ..
  have r0 : bits (wV 31 d a 0 p 0) 21 5 = d := wV_d ..
  have r1 : bits (wV 31 d a 0 p 0) 16 5 = a := wV_a ..
  have r2 : bits (wV 31 d a 0 p 0) 5 6 = p := wV_p ..
  rw [decode_31 p0, decodeScan_0 p1, r0, r1, r2]
  exact accept_ok (by simp only [List.all_cons, List.all_nil, z0]; rfl) h
theorem vscanmax (d a : BitVec 5) (p : BitVec 6) : Statement (.vscanmax d a p) := by
  intro _ h
  show decode (wV 31 d a 0 p 1) = _
  have p0 : bits (wV 31 d a 0 p 1) 26 6 = 31#6 := wV_major ..
  have p1 : bits (wV 31 d a 0 p 1) 0 5 = 1#5 := wV_fn ..
  have z0 : bits (wV 31 d a 0 p 1) 11 5 = 0#5 := wV_b ..
  have r0 : bits (wV 31 d a 0 p 1) 21 5 = d := wV_d ..
  have r1 : bits (wV 31 d a 0 p 1) 16 5 = a := wV_a ..
  have r2 : bits (wV 31 d a 0 p 1) 5 6 = p := wV_p ..
  rw [decode_31 p0, decodeScan_1 p1, r0, r1, r2]
  exact accept_ok (by simp only [List.all_cons, List.all_nil, z0]; rfl) h
theorem vscanmin (d a : BitVec 5) (p : BitVec 6) : Statement (.vscanmin d a p) := by
  intro _ h
  show decode (wV 31 d a 0 p 2) = _
  have p0 : bits (wV 31 d a 0 p 2) 26 6 = 31#6 := wV_major ..
  have p1 : bits (wV 31 d a 0 p 2) 0 5 = 2#5 := wV_fn ..
  have z0 : bits (wV 31 d a 0 p 2) 11 5 = 0#5 := wV_b ..
  have r0 : bits (wV 31 d a 0 p 2) 21 5 = d := wV_d ..
  have r1 : bits (wV 31 d a 0 p 2) 16 5 = a := wV_a ..
  have r2 : bits (wV 31 d a 0 p 2) 5 6 = p := wV_p ..
  rw [decode_31 p0, decodeScan_2 p1, r0, r1, r2]
  exact accept_ok (by simp only [List.all_cons, List.all_nil, z0]; rfl) h
theorem fscansum (d a : BitVec 5) (p : BitVec 6) : Statement (.fscansum d a p) := by
  intro _ h
  show decode (wV 31 d a 0 p 3) = _
  have p0 : bits (wV 31 d a 0 p 3) 26 6 = 31#6 := wV_major ..
  have p1 : bits (wV 31 d a 0 p 3) 0 5 = 3#5 := wV_fn ..
  have z0 : bits (wV 31 d a 0 p 3) 11 5 = 0#5 := wV_b ..
  have r0 : bits (wV 31 d a 0 p 3) 21 5 = d := wV_d ..
  have r1 : bits (wV 31 d a 0 p 3) 16 5 = a := wV_a ..
  have r2 : bits (wV 31 d a 0 p 3) 5 6 = p := wV_p ..
  rw [decode_31 p0, decodeScan_3 p1, r0, r1, r2]
  exact accept_ok (by simp only [List.all_cons, List.all_nil, z0]; rfl) h
theorem vcompress (d a : BitVec 5) (p : BitVec 6) : Statement (.vcompress d a p) := by
  intro _ h
  show decode (wV 31 d a 0 p 4) = _
  have p0 : bits (wV 31 d a 0 p 4) 26 6 = 31#6 := wV_major ..
  have p1 : bits (wV 31 d a 0 p 4) 0 5 = 4#5 := wV_fn ..
  have z0 : bits (wV 31 d a 0 p 4) 11 5 = 0#5 := wV_b ..
  have r0 : bits (wV 31 d a 0 p 4) 21 5 = d := wV_d ..
  have r1 : bits (wV 31 d a 0 p 4) 16 5 = a := wV_a ..
  have r2 : bits (wV 31 d a 0 p 4) 5 6 = p := wV_p ..
  rw [decode_31 p0, decodeScan_4 p1, r0, r1, r2]
  exact accept_ok (by simp only [List.all_cons, List.all_nil, z0]; rfl) h
theorem vexpand (d a : BitVec 5) (p : BitVec 6) : Statement (.vexpand d a p) := by
  intro _ h
  show decode (wV 31 d a 0 p 5) = _
  have p0 : bits (wV 31 d a 0 p 5) 26 6 = 31#6 := wV_major ..
  have p1 : bits (wV 31 d a 0 p 5) 0 5 = 5#5 := wV_fn ..
  have z0 : bits (wV 31 d a 0 p 5) 11 5 = 0#5 := wV_b ..
  have r0 : bits (wV 31 d a 0 p 5) 21 5 = d := wV_d ..
  have r1 : bits (wV 31 d a 0 p 5) 16 5 = a := wV_a ..
  have r2 : bits (wV 31 d a 0 p 5) 5 6 = p := wV_p ..
  rw [decode_31 p0, decodeScan_5 p1, r0, r1, r2]
  exact accept_ok (by simp only [List.all_cons, List.all_nil, z0]; rfl) h
theorem vperm (d a b : BitVec 5) (p : BitVec 6) : Statement (.vperm d a b p) := by
  intro _ h
  show decode (wV 31 d a b p 6) = _
  have p0 : bits (wV 31 d a b p 6) 26 6 = 31#6 := wV_major ..
  have p1 : bits (wV 31 d a b p 6) 0 5 = 6#5 := wV_fn ..
  have r0 : bits (wV 31 d a b p 6) 21 5 = d := wV_d ..
  have r1 : bits (wV 31 d a b p 6) 16 5 = a := wV_a ..
  have r2 : bits (wV 31 d a b p 6) 11 5 = b := wV_b ..
  have r3 : bits (wV 31 d a b p 6) 5 6 = p := wV_p ..
  rw [decode_31 p0, decodeScan_6 p1, r0, r1, r2, r3]
  exact accept_ok (by rfl) h
theorem fadd (d a b : BitVec 5) (p : BitVec 6) : Statement (.fadd d a b p) := by
  intro _ h
  show decode (wV 32 d a b p 0) = _
  have p0 : bits (wV 32 d a b p 0) 26 6 = 32#6 := wV_major ..
  have p1 : bits (wV 32 d a b p 0) 0 5 = 0#5 := wV_fn ..
  have r0 : bits (wV 32 d a b p 0) 21 5 = d := wV_d ..
  have r1 : bits (wV 32 d a b p 0) 16 5 = a := wV_a ..
  have r2 : bits (wV 32 d a b p 0) 11 5 = b := wV_b ..
  have r3 : bits (wV 32 d a b p 0) 5 6 = p := wV_p ..
  rw [decode_32 p0, decodeFloat_0 p1, r0, r1, r2, r3]
  exact accept_ok (by rfl) h
theorem fsub (d a b : BitVec 5) (p : BitVec 6) : Statement (.fsub d a b p) := by
  intro _ h
  show decode (wV 32 d a b p 1) = _
  have p0 : bits (wV 32 d a b p 1) 26 6 = 32#6 := wV_major ..
  have p1 : bits (wV 32 d a b p 1) 0 5 = 1#5 := wV_fn ..
  have r0 : bits (wV 32 d a b p 1) 21 5 = d := wV_d ..
  have r1 : bits (wV 32 d a b p 1) 16 5 = a := wV_a ..
  have r2 : bits (wV 32 d a b p 1) 11 5 = b := wV_b ..
  have r3 : bits (wV 32 d a b p 1) 5 6 = p := wV_p ..
  rw [decode_32 p0, decodeFloat_1 p1, r0, r1, r2, r3]
  exact accept_ok (by rfl) h
theorem fmul (d a b : BitVec 5) (p : BitVec 6) : Statement (.fmul d a b p) := by
  intro _ h
  show decode (wV 32 d a b p 2) = _
  have p0 : bits (wV 32 d a b p 2) 26 6 = 32#6 := wV_major ..
  have p1 : bits (wV 32 d a b p 2) 0 5 = 2#5 := wV_fn ..
  have r0 : bits (wV 32 d a b p 2) 21 5 = d := wV_d ..
  have r1 : bits (wV 32 d a b p 2) 16 5 = a := wV_a ..
  have r2 : bits (wV 32 d a b p 2) 11 5 = b := wV_b ..
  have r3 : bits (wV 32 d a b p 2) 5 6 = p := wV_p ..
  rw [decode_32 p0, decodeFloat_2 p1, r0, r1, r2, r3]
  exact accept_ok (by rfl) h
theorem fma (d a b : BitVec 5) (p : BitVec 6) : Statement (.fma d a b p) := by
  intro _ h
  show decode (wV 32 d a b p 3) = _
  have p0 : bits (wV 32 d a b p 3) 26 6 = 32#6 := wV_major ..
  have p1 : bits (wV 32 d a b p 3) 0 5 = 3#5 := wV_fn ..
  have r0 : bits (wV 32 d a b p 3) 21 5 = d := wV_d ..
  have r1 : bits (wV 32 d a b p 3) 16 5 = a := wV_a ..
  have r2 : bits (wV 32 d a b p 3) 11 5 = b := wV_b ..
  have r3 : bits (wV 32 d a b p 3) 5 6 = p := wV_p ..
  rw [decode_32 p0, decodeFloat_3 p1, r0, r1, r2, r3]
  exact accept_ok (by rfl) h
theorem fmin (d a b : BitVec 5) (p : BitVec 6) : Statement (.fmin d a b p) := by
  intro _ h
  show decode (wV 32 d a b p 4) = _
  have p0 : bits (wV 32 d a b p 4) 26 6 = 32#6 := wV_major ..
  have p1 : bits (wV 32 d a b p 4) 0 5 = 4#5 := wV_fn ..
  have r0 : bits (wV 32 d a b p 4) 21 5 = d := wV_d ..
  have r1 : bits (wV 32 d a b p 4) 16 5 = a := wV_a ..
  have r2 : bits (wV 32 d a b p 4) 11 5 = b := wV_b ..
  have r3 : bits (wV 32 d a b p 4) 5 6 = p := wV_p ..
  rw [decode_32 p0, decodeFloat_4 p1, r0, r1, r2, r3]
  exact accept_ok (by rfl) h
theorem fmax (d a b : BitVec 5) (p : BitVec 6) : Statement (.fmax d a b p) := by
  intro _ h
  show decode (wV 32 d a b p 5) = _
  have p0 : bits (wV 32 d a b p 5) 26 6 = 32#6 := wV_major ..
  have p1 : bits (wV 32 d a b p 5) 0 5 = 5#5 := wV_fn ..
  have r0 : bits (wV 32 d a b p 5) 21 5 = d := wV_d ..
  have r1 : bits (wV 32 d a b p 5) 16 5 = a := wV_a ..
  have r2 : bits (wV 32 d a b p 5) 11 5 = b := wV_b ..
  have r3 : bits (wV 32 d a b p 5) 5 6 = p := wV_p ..
  rw [decode_32 p0, decodeFloat_5 p1, r0, r1, r2, r3]
  exact accept_ok (by rfl) h
theorem fabs (d a : BitVec 5) (p : BitVec 6) : Statement (.fabs d a p) := by
  intro _ h
  show decode (wV 32 d a 0 p 6) = _
  have p0 : bits (wV 32 d a 0 p 6) 26 6 = 32#6 := wV_major ..
  have p1 : bits (wV 32 d a 0 p 6) 0 5 = 6#5 := wV_fn ..
  have z0 : bits (wV 32 d a 0 p 6) 11 5 = 0#5 := wV_b ..
  have r0 : bits (wV 32 d a 0 p 6) 21 5 = d := wV_d ..
  have r1 : bits (wV 32 d a 0 p 6) 16 5 = a := wV_a ..
  have r2 : bits (wV 32 d a 0 p 6) 5 6 = p := wV_p ..
  rw [decode_32 p0, decodeFloat_6 p1, r0, r1, r2]
  exact accept_ok (by simp only [List.all_cons, List.all_nil, z0]; rfl) h
theorem fneg (d a : BitVec 5) (p : BitVec 6) : Statement (.fneg d a p) := by
  intro _ h
  show decode (wV 32 d a 0 p 7) = _
  have p0 : bits (wV 32 d a 0 p 7) 26 6 = 32#6 := wV_major ..
  have p1 : bits (wV 32 d a 0 p 7) 0 5 = 7#5 := wV_fn ..
  have z0 : bits (wV 32 d a 0 p 7) 11 5 = 0#5 := wV_b ..
  have r0 : bits (wV 32 d a 0 p 7) 21 5 = d := wV_d ..
  have r1 : bits (wV 32 d a 0 p 7) 16 5 = a := wV_a ..
  have r2 : bits (wV 32 d a 0 p 7) 5 6 = p := wV_p ..
  rw [decode_32 p0, decodeFloat_7 p1, r0, r1, r2]
  exact accept_ok (by simp only [List.all_cons, List.all_nil, z0]; rfl) h
theorem fcvt (d a : BitVec 5) (p : BitVec 6) : Statement (.fcvt d a p) := by
  intro _ h
  show decode (wV 32 d a 0 p 8) = _
  have p0 : bits (wV 32 d a 0 p 8) 26 6 = 32#6 := wV_major ..
  have p1 : bits (wV 32 d a 0 p 8) 0 5 = 8#5 := wV_fn ..
  have z0 : bits (wV 32 d a 0 p 8) 11 5 = 0#5 := wV_b ..
  have r0 : bits (wV 32 d a 0 p 8) 21 5 = d := wV_d ..
  have r1 : bits (wV 32 d a 0 p 8) 16 5 = a := wV_a ..
  have r2 : bits (wV 32 d a 0 p 8) 5 6 = p := wV_p ..
  rw [decode_32 p0, decodeFloat_8 p1, r0, r1, r2]
  exact accept_ok (by simp only [List.all_cons, List.all_nil, z0]; rfl) h
theorem fcvti (d a : BitVec 5) (p : BitVec 6) : Statement (.fcvti d a p) := by
  intro _ h
  show decode (wV 32 d a 0 p 9) = _
  have p0 : bits (wV 32 d a 0 p 9) 26 6 = 32#6 := wV_major ..
  have p1 : bits (wV 32 d a 0 p 9) 0 5 = 9#5 := wV_fn ..
  have z0 : bits (wV 32 d a 0 p 9) 11 5 = 0#5 := wV_b ..
  have r0 : bits (wV 32 d a 0 p 9) 21 5 = d := wV_d ..
  have r1 : bits (wV 32 d a 0 p 9) 16 5 = a := wV_a ..
  have r2 : bits (wV 32 d a 0 p 9) 5 6 = p := wV_p ..
  rw [decode_32 p0, decodeFloat_9 p1, r0, r1, r2]
  exact accept_ok (by simp only [List.all_cons, List.all_nil, z0]; rfl) h
theorem fcvtf (d a : BitVec 5) (p : BitVec 6) : Statement (.fcvtf d a p) := by
  intro _ h
  show decode (wV 32 d a 0 p 10) = _
  have p0 : bits (wV 32 d a 0 p 10) 26 6 = 32#6 := wV_major ..
  have p1 : bits (wV 32 d a 0 p 10) 0 5 = 10#5 := wV_fn ..
  have z0 : bits (wV 32 d a 0 p 10) 11 5 = 0#5 := wV_b ..
  have r0 : bits (wV 32 d a 0 p 10) 21 5 = d := wV_d ..
  have r1 : bits (wV 32 d a 0 p 10) 16 5 = a := wV_a ..
  have r2 : bits (wV 32 d a 0 p 10) 5 6 = p := wV_p ..
  rw [decode_32 p0, decodeFloat_10 p1, r0, r1, r2]
  exact accept_ok (by simp only [List.all_cons, List.all_nil, z0]; rfl) h
theorem fexp2 (d a : BitVec 5) (p : BitVec 6) : Statement (.fexp2 d a p) := by
  intro _ h
  show decode (wV 32 d a 0 p 11) = _
  have p0 : bits (wV 32 d a 0 p 11) 26 6 = 32#6 := wV_major ..
  have p1 : bits (wV 32 d a 0 p 11) 0 5 = 11#5 := wV_fn ..
  have z0 : bits (wV 32 d a 0 p 11) 11 5 = 0#5 := wV_b ..
  have r0 : bits (wV 32 d a 0 p 11) 21 5 = d := wV_d ..
  have r1 : bits (wV 32 d a 0 p 11) 16 5 = a := wV_a ..
  have r2 : bits (wV 32 d a 0 p 11) 5 6 = p := wV_p ..
  rw [decode_32 p0, decodeFloat_11 p1, r0, r1, r2]
  exact accept_ok (by simp only [List.all_cons, List.all_nil, z0]; rfl) h
theorem frcp (d a : BitVec 5) (p : BitVec 6) : Statement (.frcp d a p) := by
  intro _ h
  show decode (wV 32 d a 0 p 12) = _
  have p0 : bits (wV 32 d a 0 p 12) 26 6 = 32#6 := wV_major ..
  have p1 : bits (wV 32 d a 0 p 12) 0 5 = 12#5 := wV_fn ..
  have z0 : bits (wV 32 d a 0 p 12) 11 5 = 0#5 := wV_b ..
  have r0 : bits (wV 32 d a 0 p 12) 21 5 = d := wV_d ..
  have r1 : bits (wV 32 d a 0 p 12) 16 5 = a := wV_a ..
  have r2 : bits (wV 32 d a 0 p 12) 5 6 = p := wV_p ..
  rw [decode_32 p0, decodeFloat_12 p1, r0, r1, r2]
  exact accept_ok (by simp only [List.all_cons, List.all_nil, z0]; rfl) h
theorem fscl (d a b : BitVec 5) (p : BitVec 6) : Statement (.fscl d a b p) := by
  intro _ h
  show decode (wV 32 d a b p 13) = _
  have p0 : bits (wV 32 d a b p 13) 26 6 = 32#6 := wV_major ..
  have p1 : bits (wV 32 d a b p 13) 0 5 = 13#5 := wV_fn ..
  have r0 : bits (wV 32 d a b p 13) 21 5 = d := wV_d ..
  have r1 : bits (wV 32 d a b p 13) 16 5 = a := wV_a ..
  have r2 : bits (wV 32 d a b p 13) 11 5 = b := wV_b ..
  have r3 : bits (wV 32 d a b p 13) 5 6 = p := wV_p ..
  rw [decode_32 p0, decodeFloat_13 p1, r0, r1, r2, r3]
  exact accept_ok (by rfl) h
theorem mxscl (d a : BitVec 5) (p : BitVec 6) : Statement (.mxscl d a p) := by
  intro _ h
  show decode (wV 33 d a 0 p 0) = _
  have p0 : bits (wV 33 d a 0 p 0) 26 6 = 33#6 := wV_major ..
  have p1 : bits (wV 33 d a 0 p 0) 0 5 = 0#5 := wV_fn ..
  have z0 : bits (wV 33 d a 0 p 0) 11 5 = 0#5 := wV_b ..
  have r0 : bits (wV 33 d a 0 p 0) 21 5 = d := wV_d ..
  have r1 : bits (wV 33 d a 0 p 0) 16 5 = a := wV_a ..
  have r2 : bits (wV 33 d a 0 p 0) 5 6 = p := wV_p ..
  rw [decode_33 p0, decodeMx_0 p1, r0, r1, r2]
  exact accept_ok (by simp only [List.all_cons, List.all_nil, z0]; rfl) h
theorem mxqnt (d a : BitVec 5) (p : BitVec 6) : Statement (.mxqnt d a p) := by
  intro _ h
  show decode (wV 33 d a 0 p 1) = _
  have p0 : bits (wV 33 d a 0 p 1) 26 6 = 33#6 := wV_major ..
  have p1 : bits (wV 33 d a 0 p 1) 0 5 = 1#5 := wV_fn ..
  have z0 : bits (wV 33 d a 0 p 1) 11 5 = 0#5 := wV_b ..
  have r0 : bits (wV 33 d a 0 p 1) 21 5 = d := wV_d ..
  have r1 : bits (wV 33 d a 0 p 1) 16 5 = a := wV_a ..
  have r2 : bits (wV 33 d a 0 p 1) 5 6 = p := wV_p ..
  rw [decode_33 p0, decodeMx_1 p1, r0, r1, r2]
  exact accept_ok (by simp only [List.all_cons, List.all_nil, z0]; rfl) h
theorem mxbdot (d a b : BitVec 5) (p : BitVec 6) : Statement (.mxbdot d a b p) := by
  intro _ h
  show decode (wV 33 d a b p 2) = _
  have p0 : bits (wV 33 d a b p 2) 26 6 = 33#6 := wV_major ..
  have p1 : bits (wV 33 d a b p 2) 0 5 = 2#5 := wV_fn ..
  have r0 : bits (wV 33 d a b p 2) 21 5 = d := wV_d ..
  have r1 : bits (wV 33 d a b p 2) 16 5 = a := wV_a ..
  have r2 : bits (wV 33 d a b p 2) 11 5 = b := wV_b ..
  have r3 : bits (wV 33 d a b p 2) 5 6 = p := wV_p ..
  rw [decode_33 p0, decodeMx_2 p1, r0, r1, r2, r3]
  exact accept_ok (by rfl) h
theorem emov (e f : BitVec 4) : Statement (.emov e f) := by
  intro _ h
  show decode (wV 33 (0#1 ++ e) (0#1 ++ f) 0 0 3) = _
  have p0 : bits (wV 33 (0#1 ++ e) (0#1 ++ f) 0 0 3) 26 6 = 33#6 := wV_major ..
  have p1 : bits (wV 33 (0#1 ++ e) (0#1 ++ f) 0 0 3) 0 5 = 3#5 := wV_fn ..
  have z0 : bits (wV 33 (0#1 ++ e) (0#1 ++ f) 0 0 3) 25 1 = 0#1 := (bits_sub (m := 5) 21 4 25 1 rfl (by decide)).trans
    ((congrArg _ (wV_d ..)).trans ((by decide : ∀ (e : BitVec 4), BitVec.extractLsb' 4 1 ((0#1 ++ e) : BitVec 5) = 0#1) e))
  have z1 : bits (wV 33 (0#1 ++ e) (0#1 ++ f) 0 0 3) 20 1 = 0#1 := (bits_sub (m := 5) 16 4 20 1 rfl (by decide)).trans
    ((congrArg _ (wV_a ..)).trans ((by decide : ∀ (f : BitVec 4), BitVec.extractLsb' 4 1 ((0#1 ++ f) : BitVec 5) = 0#1) f))
  have z2 : bits (wV 33 (0#1 ++ e) (0#1 ++ f) 0 0 3) 5 11 = 0#11 := bits_join 5 6 11 5 11 rfl rfl (wV_p ..)
    (wV_b ..)
  have r0 : bits (wV 33 (0#1 ++ e) (0#1 ++ f) 0 0 3) 21 4 = e := (bits_sub (m := 5) 21 0 21 4 rfl (by decide)).trans
    ((congrArg _ (wV_d ..)).trans ((by decide : ∀ (e : BitVec 4), BitVec.extractLsb' 0 4 ((0#1 ++ e) : BitVec 5) = e) e))
  have r1 : bits (wV 33 (0#1 ++ e) (0#1 ++ f) 0 0 3) 16 4 = f := (bits_sub (m := 5) 16 0 16 4 rfl (by decide)).trans
    ((congrArg _ (wV_a ..)).trans ((by decide : ∀ (f : BitVec 4), BitVec.extractLsb' 0 4 ((0#1 ++ f) : BitVec 5) = f) f))
  rw [decode_33 p0, decodeMx_3 p1, r0, r1]
  exact accept_ok (by simp only [List.all_cons, List.all_nil, z0, z1, z2]; rfl) h
theorem vqnt (d a : BitVec 5) (p : BitVec 6) : Statement (.vqnt d a p) := by
  intro _ h
  show decode (wV 33 d a 0 p 4) = _
  have p0 : bits (wV 33 d a 0 p 4) 26 6 = 33#6 := wV_major ..
  have p1 : bits (wV 33 d a 0 p 4) 0 5 = 4#5 := wV_fn ..
  have z0 : bits (wV 33 d a 0 p 4) 11 5 = 0#5 := wV_b ..
  have r0 : bits (wV 33 d a 0 p 4) 21 5 = d := wV_d ..
  have r1 : bits (wV 33 d a 0 p 4) 16 5 = a := wV_a ..
  have r2 : bits (wV 33 d a 0 p 4) 5 6 = p := wV_p ..
  rw [decode_33 p0, decodeMx_4 p1, r0, r1, r2]
  exact accept_ok (by simp only [List.all_cons, List.all_nil, z0]; rfl) h
theorem vld (d a : BitVec 5) (p : BitVec 6) : Statement (.vld d a p) := by
  intro _ h
  show decode (wV 34 d a 0 p 0) = _
  have p0 : bits (wV 34 d a 0 p 0) 26 6 = 34#6 := wV_major ..
  have p1 : bits (wV 34 d a 0 p 0) 0 5 = 0#5 := wV_fn ..
  have z0 : bits (wV 34 d a 0 p 0) 11 5 = 0#5 := wV_b ..
  have r0 : bits (wV 34 d a 0 p 0) 21 5 = d := wV_d ..
  have r1 : bits (wV 34 d a 0 p 0) 16 5 = a := wV_a ..
  have r2 : bits (wV 34 d a 0 p 0) 5 6 = p := wV_p ..
  rw [decode_34 p0, decodeVmem_0 p1, r0, r1, r2]
  exact accept_ok (by simp only [List.all_cons, List.all_nil, z0]; rfl) h
theorem vst (s a : BitVec 5) (p : BitVec 6) : Statement (.vst s a p) := by
  intro _ h
  show decode (wV 34 s a 0 p 1) = _
  have p0 : bits (wV 34 s a 0 p 1) 26 6 = 34#6 := wV_major ..
  have p1 : bits (wV 34 s a 0 p 1) 0 5 = 1#5 := wV_fn ..
  have z0 : bits (wV 34 s a 0 p 1) 11 5 = 0#5 := wV_b ..
  have r0 : bits (wV 34 s a 0 p 1) 21 5 = s := wV_d ..
  have r1 : bits (wV 34 s a 0 p 1) 16 5 = a := wV_a ..
  have r2 : bits (wV 34 s a 0 p 1) 5 6 = p := wV_p ..
  rw [decode_34 p0, decodeVmem_1 p1, r0, r1, r2]
  exact accept_ok (by simp only [List.all_cons, List.all_nil, z0]; rfl) h
theorem vlds (d a b : BitVec 5) (p : BitVec 6) : Statement (.vlds d a b p) := by
  intro _ h
  show decode (wV 34 d a b p 2) = _
  have p0 : bits (wV 34 d a b p 2) 26 6 = 34#6 := wV_major ..
  have p1 : bits (wV 34 d a b p 2) 0 5 = 2#5 := wV_fn ..
  have r0 : bits (wV 34 d a b p 2) 21 5 = d := wV_d ..
  have r1 : bits (wV 34 d a b p 2) 16 5 = a := wV_a ..
  have r2 : bits (wV 34 d a b p 2) 11 5 = b := wV_b ..
  have r3 : bits (wV 34 d a b p 2) 5 6 = p := wV_p ..
  rw [decode_34 p0, decodeVmem_2 p1, r0, r1, r2, r3]
  exact accept_ok (by rfl) h
theorem vsts (s a b : BitVec 5) (p : BitVec 6) : Statement (.vsts s a b p) := by
  intro _ h
  show decode (wV 34 s a b p 3) = _
  have p0 : bits (wV 34 s a b p 3) 26 6 = 34#6 := wV_major ..
  have p1 : bits (wV 34 s a b p 3) 0 5 = 3#5 := wV_fn ..
  have r0 : bits (wV 34 s a b p 3) 21 5 = s := wV_d ..
  have r1 : bits (wV 34 s a b p 3) 16 5 = a := wV_a ..
  have r2 : bits (wV 34 s a b p 3) 11 5 = b := wV_b ..
  have r3 : bits (wV 34 s a b p 3) 5 6 = p := wV_p ..
  rw [decode_34 p0, decodeVmem_3 p1, r0, r1, r2, r3]
  exact accept_ok (by rfl) h
theorem vldx (d a b : BitVec 5) (p : BitVec 6) : Statement (.vldx d a b p) := by
  intro _ h
  show decode (wV 34 d a b p 4) = _
  have p0 : bits (wV 34 d a b p 4) 26 6 = 34#6 := wV_major ..
  have p1 : bits (wV 34 d a b p 4) 0 5 = 4#5 := wV_fn ..
  have r0 : bits (wV 34 d a b p 4) 21 5 = d := wV_d ..
  have r1 : bits (wV 34 d a b p 4) 16 5 = a := wV_a ..
  have r2 : bits (wV 34 d a b p 4) 11 5 = b := wV_b ..
  have r3 : bits (wV 34 d a b p 4) 5 6 = p := wV_p ..
  rw [decode_34 p0, decodeVmem_4 p1, r0, r1, r2, r3]
  exact accept_ok (by rfl) h
theorem vstx (s a b : BitVec 5) (p : BitVec 6) : Statement (.vstx s a b p) := by
  intro _ h
  show decode (wV 34 s a b p 5) = _
  have p0 : bits (wV 34 s a b p 5) 26 6 = 34#6 := wV_major ..
  have p1 : bits (wV 34 s a b p 5) 0 5 = 5#5 := wV_fn ..
  have r0 : bits (wV 34 s a b p 5) 21 5 = s := wV_d ..
  have r1 : bits (wV 34 s a b p 5) 16 5 = a := wV_a ..
  have r2 : bits (wV 34 s a b p 5) 11 5 = b := wV_b ..
  have r3 : bits (wV 34 s a b p 5) 5 6 = p := wV_p ..
  rw [decode_34 p0, decodeVmem_5 p1, r0, r1, r2, r3]
  exact accept_ok (by rfl) h
theorem vldl (d a : BitVec 5) (p : BitVec 6) : Statement (.vldl d a p) := by
  intro _ h
  show decode (wV 34 d a 0 p 6) = _
  have p0 : bits (wV 34 d a 0 p 6) 26 6 = 34#6 := wV_major ..
  have p1 : bits (wV 34 d a 0 p 6) 0 5 = 6#5 := wV_fn ..
  have z0 : bits (wV 34 d a 0 p 6) 11 5 = 0#5 := wV_b ..
  have r0 : bits (wV 34 d a 0 p 6) 21 5 = d := wV_d ..
  have r1 : bits (wV 34 d a 0 p 6) 16 5 = a := wV_a ..
  have r2 : bits (wV 34 d a 0 p 6) 5 6 = p := wV_p ..
  rw [decode_34 p0, decodeVmem_6 p1, r0, r1, r2]
  exact accept_ok (by simp only [List.all_cons, List.all_nil, z0]; rfl) h
theorem vstl (s a : BitVec 5) (p : BitVec 6) : Statement (.vstl s a p) := by
  intro _ h
  show decode (wV 34 s a 0 p 7) = _
  have p0 : bits (wV 34 s a 0 p 7) 26 6 = 34#6 := wV_major ..
  have p1 : bits (wV 34 s a 0 p 7) 0 5 = 7#5 := wV_fn ..
  have z0 : bits (wV 34 s a 0 p 7) 11 5 = 0#5 := wV_b ..
  have r0 : bits (wV 34 s a 0 p 7) 21 5 = s := wV_d ..
  have r1 : bits (wV 34 s a 0 p 7) 16 5 = a := wV_a ..
  have r2 : bits (wV 34 s a 0 p 7) 5 6 = p := wV_p ..
  rw [decode_34 p0, decodeVmem_7 p1, r0, r1, r2]
  exact accept_ok (by simp only [List.all_cons, List.all_nil, z0]; rfl) h
theorem pld (a : BitVec 5) (p : BitVec 6) : Statement (.pld a p) := by
  intro _ h
  show decode (wV 34 0 a 0 p 8) = _
  have p0 : bits (wV 34 0 a 0 p 8) 26 6 = 34#6 := wV_major ..
  have p1 : bits (wV 34 0 a 0 p 8) 0 5 = 8#5 := wV_fn ..
  have z0 : bits (wV 34 0 a 0 p 8) 21 5 = 0#5 := wV_d ..
  have z1 : bits (wV 34 0 a 0 p 8) 11 5 = 0#5 := wV_b ..
  have r0 : bits (wV 34 0 a 0 p 8) 16 5 = a := wV_a ..
  have r1 : bits (wV 34 0 a 0 p 8) 5 6 = p := wV_p ..
  rw [decode_34 p0, decodeVmem_8 p1, r0, r1]
  exact accept_ok (by simp only [List.all_cons, List.all_nil, z0, z1]; rfl) h
theorem pst (a : BitVec 5) (p : BitVec 6) : Statement (.pst a p) := by
  intro _ h
  show decode (wV 34 0 a 0 p 9) = _
  have p0 : bits (wV 34 0 a 0 p 9) 26 6 = 34#6 := wV_major ..
  have p1 : bits (wV 34 0 a 0 p 9) 0 5 = 9#5 := wV_fn ..
  have z0 : bits (wV 34 0 a 0 p 9) 21 5 = 0#5 := wV_d ..
  have z1 : bits (wV 34 0 a 0 p 9) 11 5 = 0#5 := wV_b ..
  have r0 : bits (wV 34 0 a 0 p 9) 16 5 = a := wV_a ..
  have r1 : bits (wV 34 0 a 0 p 9) 5 6 = p := wV_p ..
  rw [decode_34 p0, decodeVmem_9 p1, r0, r1]
  exact accept_ok (by simp only [List.all_cons, List.all_nil, z0, z1]; rfl) h
theorem mxld (d a : BitVec 5) (e : BitVec 4) (p : BitVec 6) : Statement (.mxld d a e p) := by
  intro _ h
  show decode (wV 34 d a (0#1 ++ e) p 10) = _
  have p0 : bits (wV 34 d a (0#1 ++ e) p 10) 26 6 = 34#6 := wV_major ..
  have p1 : bits (wV 34 d a (0#1 ++ e) p 10) 0 5 = 10#5 := wV_fn ..
  have z0 : bits (wV 34 d a (0#1 ++ e) p 10) 15 1 = 0#1 := (bits_sub (m := 5) 11 4 15 1 rfl (by decide)).trans
    ((congrArg _ (wV_b ..)).trans ((by decide : ∀ (e : BitVec 4), BitVec.extractLsb' 4 1 ((0#1 ++ e) : BitVec 5) = 0#1) e))
  have r0 : bits (wV 34 d a (0#1 ++ e) p 10) 21 5 = d := wV_d ..
  have r1 : bits (wV 34 d a (0#1 ++ e) p 10) 16 5 = a := wV_a ..
  have r2 : bits (wV 34 d a (0#1 ++ e) p 10) 11 4 = e := (bits_sub (m := 5) 11 0 11 4 rfl (by decide)).trans
    ((congrArg _ (wV_b ..)).trans ((by decide : ∀ (e : BitVec 4), BitVec.extractLsb' 0 4 ((0#1 ++ e) : BitVec 5) = e) e))
  have r3 : bits (wV 34 d a (0#1 ++ e) p 10) 5 6 = p := wV_p ..
  rw [decode_34 p0, decodeVmem_10 p1, r0, r1, r2, r3]
  exact accept_ok (by simp only [List.all_cons, List.all_nil, z0]; rfl) h
theorem mxst (s a : BitVec 5) (e : BitVec 4) (p : BitVec 6) : Statement (.mxst s a e p) := by
  intro _ h
  show decode (wV 34 s a (0#1 ++ e) p 11) = _
  have p0 : bits (wV 34 s a (0#1 ++ e) p 11) 26 6 = 34#6 := wV_major ..
  have p1 : bits (wV 34 s a (0#1 ++ e) p 11) 0 5 = 11#5 := wV_fn ..
  have z0 : bits (wV 34 s a (0#1 ++ e) p 11) 15 1 = 0#1 := (bits_sub (m := 5) 11 4 15 1 rfl (by decide)).trans
    ((congrArg _ (wV_b ..)).trans ((by decide : ∀ (e : BitVec 4), BitVec.extractLsb' 4 1 ((0#1 ++ e) : BitVec 5) = 0#1) e))
  have r0 : bits (wV 34 s a (0#1 ++ e) p 11) 21 5 = s := wV_d ..
  have r1 : bits (wV 34 s a (0#1 ++ e) p 11) 16 5 = a := wV_a ..
  have r2 : bits (wV 34 s a (0#1 ++ e) p 11) 11 4 = e := (bits_sub (m := 5) 11 0 11 4 rfl (by decide)).trans
    ((congrArg _ (wV_b ..)).trans ((by decide : ∀ (e : BitVec 4), BitVec.extractLsb' 0 4 ((0#1 ++ e) : BitVec 5) = e) e))
  have r3 : bits (wV 34 s a (0#1 ++ e) p 11) 5 6 = p := wV_p ..
  rw [decode_34 p0, decodeVmem_11 p1, r0, r1, r2, r3]
  exact accept_ok (by simp only [List.all_cons, List.all_nil, z0]; rfl) h
theorem vvrld (d a b : BitVec 5) (p : BitVec 6) : Statement (.vvrld d a b p) := by
  intro _ h
  show decode (wV 34 d a b p 12) = _
  have p0 : bits (wV 34 d a b p 12) 26 6 = 34#6 := wV_major ..
  have p1 : bits (wV 34 d a b p 12) 0 5 = 12#5 := wV_fn ..
  have r0 : bits (wV 34 d a b p 12) 21 5 = d := wV_d ..
  have r1 : bits (wV 34 d a b p 12) 16 5 = a := wV_a ..
  have r2 : bits (wV 34 d a b p 12) 11 5 = b := wV_b ..
  have r3 : bits (wV 34 d a b p 12) 5 6 = p := wV_p ..
  rw [decode_34 p0, decodeVmem_12 p1, r0, r1, r2, r3]
  exact accept_ok (by rfl) h
theorem vvrst (s a b : BitVec 5) (p : BitVec 6) : Statement (.vvrst s a b p) := by
  intro _ h
  show decode (wV 34 s a b p 13) = _
  have p0 : bits (wV 34 s a b p 13) 26 6 = 34#6 := wV_major ..
  have p1 : bits (wV 34 s a b p 13) 0 5 = 13#5 := wV_fn ..
  have r0 : bits (wV 34 s a b p 13) 21 5 = s := wV_d ..
  have r1 : bits (wV 34 s a b p 13) 16 5 = a := wV_a ..
  have r2 : bits (wV 34 s a b p 13) 11 5 = b := wV_b ..
  have r3 : bits (wV 34 s a b p 13) 5 6 = p := wV_p ..
  rw [decode_34 p0, decodeVmem_13 p1, r0, r1, r2, r3]
  exact accept_ok (by rfl) h
theorem setvlx (d a : BitVec 5) (o : BitVec 16) : Statement (.setvlx d a o) := by
  intro _ h
  show decode (wSV 35 d a o) = _
  have p0 : bits (wSV 35 d a o) 26 6 = 35#6 := wSV_major ..
  have r0 : bits (wSV 35 d a o) 21 5 = d := wSV_d ..
  have r1 : bits (wSV 35 d a o) 16 5 = a := wSV_a ..
  have r2 : bits (wSV 35 d a o) 0 16 = o := wSV_o ..
  rw [decode_35 p0, r0, r1, r2]
  exact accept_ok (by rfl) h
theorem setvl (d a : BitVec 5) : Statement (.setvl d a) := by
  intro _ h
  show decode (wZ 36 d a 0 0) = _
  have p0 : bits (wZ 36 d a 0 0) 26 6 = 36#6 := wZ_major ..
  have p1 : bits (wZ 36 d a 0 0) 0 4 = 0#4 := wZ_fn ..
  have z0 : bits (wZ 36 d a 0 0) 4 12 = 0#12 := wZ_i ..
  have r0 : bits (wZ 36 d a 0 0) 21 5 = d := wZ_d ..
  have r1 : bits (wZ 36 d a 0 0) 16 5 = a := wZ_a ..
  rw [decode_36 p0, decodeConf_0 p1, r0, r1]
  exact accept_ok (by simp only [List.all_cons, List.all_nil, z0]; rfl) h
theorem setvlf (d a : BitVec 5) : Statement (.setvlf d a) := by
  intro _ h
  show decode (wZ 36 d a 0 1) = _
  have p0 : bits (wZ 36 d a 0 1) 26 6 = 36#6 := wZ_major ..
  have p1 : bits (wZ 36 d a 0 1) 0 4 = 1#4 := wZ_fn ..
  have z0 : bits (wZ 36 d a 0 1) 4 12 = 0#12 := wZ_i ..
  have r0 : bits (wZ 36 d a 0 1) 21 5 = d := wZ_d ..
  have r1 : bits (wZ 36 d a 0 1) 16 5 = a := wZ_a ..
  rw [decode_36 p0, decodeConf_1 p1, r0, r1]
  exact accept_ok (by simp only [List.all_cons, List.all_nil, z0]; rfl) h
theorem vkill (a : BitVec 5) : Statement (.vkill a) := by
  intro _ h
  show decode (wZ 36 0 a 0 2) = _
  have p0 : bits (wZ 36 0 a 0 2) 26 6 = 36#6 := wZ_major ..
  have p1 : bits (wZ 36 0 a 0 2) 0 4 = 2#4 := wZ_fn ..
  have z0 : bits (wZ 36 0 a 0 2) 21 5 = 0#5 := wZ_d ..
  have z1 : bits (wZ 36 0 a 0 2) 4 12 = 0#12 := wZ_i ..
  have r0 : bits (wZ 36 0 a 0 2) 16 5 = a := wZ_a ..
  rw [decode_36 p0, decodeConf_2 p1, r0]
  exact accept_ok (by simp only [List.all_cons, List.all_nil, z0, z1]; rfl) h
theorem setew (a b : BitVec 4) (d : BitVec 5) (x y z : BitVec 1) : Statement (.setew a b d x y z) := by
  intro _ h
  show decode (wEW 37 a b d x y z) = _
  have p0 : bits (wEW 37 a b d x y z) 26 6 = 37#6 := wEW_major ..
  have z0 : bits (wEW 37 a b d x y z) 0 10 = 0#10 := wEW_gap0 ..
  have r0 : bits (wEW 37 a b d x y z) 22 4 = a := wEW_a ..
  have r1 : bits (wEW 37 a b d x y z) 18 4 = b := wEW_b ..
  have r2 : bits (wEW 37 a b d x y z) 13 5 = d := wEW_d ..
  have r3 : bits (wEW 37 a b d x y z) 12 1 = x := wEW_x ..
  have r4 : bits (wEW 37 a b d x y z) 11 1 = y := wEW_y ..
  have r5 : bits (wEW 37 a b d x y z) 10 1 = z := wEW_z ..
  rw [decode_37 p0, r0, r1, r2, r3, r4, r5]
  exact accept_ok (by simp only [List.all_cons, List.all_nil, z0]; rfl) h
theorem pgclr (t : BitVec 2) : Statement (.pgclr t) := by
  intro _ h
  show decode (wPG 38 0 0 0 t 0) = _
  have p0 : bits (wPG 38 0 0 0 t 0) 26 6 = 38#6 := wPG_major ..
  have p1 : bits (wPG 38 0 0 0 t 0) 0 4 = 0#4 := wPG_fn ..
  have z0 : bits (wPG 38 0 0 0 t 0) 10 16 = 0#16 := bits_join 10 5 15 11 16 rfl rfl (wPG_b ..)
    (bits_join 15 5 20 6 11 rfl rfl (wPG_a ..)
    (wPG_d ..))
  have z1 : bits (wPG 38 0 0 0 t 0) 4 4 = 0#4 := wPG_gap4 ..
  have r0 : bits (wPG 38 0 0 0 t 0) 8 2 = t := wPG_t ..
  rw [decode_38 p0, decodePedigree_0 p1, r0]
  exact accept_ok (by simp only [List.all_cons, List.all_nil, z0, z1]; rfl) h
theorem pgadd (d a b : BitVec 5) (t : BitVec 2) : Statement (.pgadd d a b t) := by
  intro _ h
  show decode (wPG 38 (0#1 ++ d) a b t 1) = _
  have p0 : bits (wPG 38 (0#1 ++ d) a b t 1) 26 6 = 38#6 := wPG_major ..
  have p1 : bits (wPG 38 (0#1 ++ d) a b t 1) 0 4 = 1#4 := wPG_fn ..
  have z0 : bits (wPG 38 (0#1 ++ d) a b t 1) 25 1 = 0#1 := (bits_sub (m := 6) 20 5 25 1 rfl (by decide)).trans
    ((congrArg _ (wPG_d ..)).trans ((by decide : ∀ (d : BitVec 5), BitVec.extractLsb' 5 1 ((0#1 ++ d) : BitVec 6) = 0#1) d))
  have z1 : bits (wPG 38 (0#1 ++ d) a b t 1) 4 4 = 0#4 := wPG_gap4 ..
  have r0 : bits (wPG 38 (0#1 ++ d) a b t 1) 20 5 = d := (bits_sub (m := 6) 20 0 20 5 rfl (by decide)).trans
    ((congrArg _ (wPG_d ..)).trans ((by decide : ∀ (d : BitVec 5), BitVec.extractLsb' 0 5 ((0#1 ++ d) : BitVec 6) = d) d))
  have r1 : bits (wPG 38 (0#1 ++ d) a b t 1) 15 5 = a := wPG_a ..
  have r2 : bits (wPG 38 (0#1 ++ d) a b t 1) 10 5 = b := wPG_b ..
  have r3 : bits (wPG 38 (0#1 ++ d) a b t 1) 8 2 = t := wPG_t ..
  rw [decode_38 p0, decodePedigree_1 p1, r0, r1, r2, r3]
  exact accept_ok (by simp only [List.all_cons, List.all_nil, z0, z1]; rfl) h
theorem pganc (d : BitVec 6) (a b : BitVec 5) (t : BitVec 2) : Statement (.pganc d a b t) := by
  intro _ h
  show decode (wPG 38 d a b t 2) = _
  have p0 : bits (wPG 38 d a b t 2) 26 6 = 38#6 := wPG_major ..
  have p1 : bits (wPG 38 d a b t 2) 0 4 = 2#4 := wPG_fn ..
  have z0 : bits (wPG 38 d a b t 2) 4 4 = 0#4 := wPG_gap4 ..
  have r0 : bits (wPG 38 d a b t 2) 20 6 = d := wPG_d ..
  have r1 : bits (wPG 38 d a b t 2) 15 5 = a := wPG_a ..
  have r2 : bits (wPG 38 d a b t 2) 10 5 = b := wPG_b ..
  have r3 : bits (wPG 38 d a b t 2) 8 2 = t := wPG_t ..
  rw [decode_38 p0, decodePedigree_2 p1, r0, r1, r2, r3]
  exact accept_ok (by simp only [List.all_cons, List.all_nil, z0]; rfl) h
theorem pgpos (d a : BitVec 5) (t : BitVec 2) : Statement (.pgpos d a t) := by
  intro _ h
  show decode (wPG 38 (0#1 ++ d) a 0 t 3) = _
  have p0 : bits (wPG 38 (0#1 ++ d) a 0 t 3) 26 6 = 38#6 := wPG_major ..
  have p1 : bits (wPG 38 (0#1 ++ d) a 0 t 3) 0 4 = 3#4 := wPG_fn ..
  have z0 : bits (wPG 38 (0#1 ++ d) a 0 t 3) 25 1 = 0#1 := (bits_sub (m := 6) 20 5 25 1 rfl (by decide)).trans
    ((congrArg _ (wPG_d ..)).trans ((by decide : ∀ (d : BitVec 5), BitVec.extractLsb' 5 1 ((0#1 ++ d) : BitVec 6) = 0#1) d))
  have z1 : bits (wPG 38 (0#1 ++ d) a 0 t 3) 10 5 = 0#5 := wPG_b ..
  have z2 : bits (wPG 38 (0#1 ++ d) a 0 t 3) 4 4 = 0#4 := wPG_gap4 ..
  have r0 : bits (wPG 38 (0#1 ++ d) a 0 t 3) 20 5 = d := (bits_sub (m := 6) 20 0 20 5 rfl (by decide)).trans
    ((congrArg _ (wPG_d ..)).trans ((by decide : ∀ (d : BitVec 5), BitVec.extractLsb' 0 5 ((0#1 ++ d) : BitVec 6) = d) d))
  have r1 : bits (wPG 38 (0#1 ++ d) a 0 t 3) 15 5 = a := wPG_a ..
  have r2 : bits (wPG 38 (0#1 ++ d) a 0 t 3) 8 2 = t := wPG_t ..
  rw [decode_38 p0, decodePedigree_3 p1, r0, r1, r2]
  exact accept_ok (by simp only [List.all_cons, List.all_nil, z0, z1, z2]; rfl) h
theorem pgpath (d a : BitVec 5) (t : BitVec 2) : Statement (.pgpath d a t) := by
  intro _ h
  show decode (wPG 38 (0#1 ++ d) a 0 t 4) = _
  have p0 : bits (wPG 38 (0#1 ++ d) a 0 t 4) 26 6 = 38#6 := wPG_major ..
  have p1 : bits (wPG 38 (0#1 ++ d) a 0 t 4) 0 4 = 4#4 := wPG_fn ..
  have z0 : bits (wPG 38 (0#1 ++ d) a 0 t 4) 25 1 = 0#1 := (bits_sub (m := 6) 20 5 25 1 rfl (by decide)).trans
    ((congrArg _ (wPG_d ..)).trans ((by decide : ∀ (d : BitVec 5), BitVec.extractLsb' 5 1 ((0#1 ++ d) : BitVec 6) = 0#1) d))
  have z1 : bits (wPG 38 (0#1 ++ d) a 0 t 4) 10 5 = 0#5 := wPG_b ..
  have z2 : bits (wPG 38 (0#1 ++ d) a 0 t 4) 4 4 = 0#4 := wPG_gap4 ..
  have r0 : bits (wPG 38 (0#1 ++ d) a 0 t 4) 20 5 = d := (bits_sub (m := 6) 20 0 20 5 rfl (by decide)).trans
    ((congrArg _ (wPG_d ..)).trans ((by decide : ∀ (d : BitVec 5), BitVec.extractLsb' 0 5 ((0#1 ++ d) : BitVec 6) = d) d))
  have r1 : bits (wPG 38 (0#1 ++ d) a 0 t 4) 15 5 = a := wPG_a ..
  have r2 : bits (wPG 38 (0#1 ++ d) a 0 t 4) 8 2 = t := wPG_t ..
  rw [decode_38 p0, decodePedigree_4 p1, r0, r1, r2]
  exact accept_ok (by simp only [List.all_cons, List.all_nil, z0, z1, z2]; rfl) h
theorem pgprune (d a b : BitVec 5) (t : BitVec 2) : Statement (.pgprune d a b t) := by
  intro _ h
  show decode (wPG 38 (0#1 ++ d) a b t 5) = _
  have p0 : bits (wPG 38 (0#1 ++ d) a b t 5) 26 6 = 38#6 := wPG_major ..
  have p1 : bits (wPG 38 (0#1 ++ d) a b t 5) 0 4 = 5#4 := wPG_fn ..
  have z0 : bits (wPG 38 (0#1 ++ d) a b t 5) 25 1 = 0#1 := (bits_sub (m := 6) 20 5 25 1 rfl (by decide)).trans
    ((congrArg _ (wPG_d ..)).trans ((by decide : ∀ (d : BitVec 5), BitVec.extractLsb' 5 1 ((0#1 ++ d) : BitVec 6) = 0#1) d))
  have z1 : bits (wPG 38 (0#1 ++ d) a b t 5) 4 4 = 0#4 := wPG_gap4 ..
  have r0 : bits (wPG 38 (0#1 ++ d) a b t 5) 20 5 = d := (bits_sub (m := 6) 20 0 20 5 rfl (by decide)).trans
    ((congrArg _ (wPG_d ..)).trans ((by decide : ∀ (d : BitVec 5), BitVec.extractLsb' 0 5 ((0#1 ++ d) : BitVec 6) = d) d))
  have r1 : bits (wPG 38 (0#1 ++ d) a b t 5) 15 5 = a := wPG_a ..
  have r2 : bits (wPG 38 (0#1 ++ d) a b t 5) 10 5 = b := wPG_b ..
  have r3 : bits (wPG 38 (0#1 ++ d) a b t 5) 8 2 = t := wPG_t ..
  rw [decode_38 p0, decodePedigree_5 p1, r0, r1, r2, r3]
  exact accept_ok (by simp only [List.all_cons, List.all_nil, z0, z1]; rfl) h
theorem pgrd (d a c : BitVec 5) (t : BitVec 2) : Statement (.pgrd d a c t) := by
  intro _ h
  show decode (wPG 38 (0#1 ++ d) a c t 6) = _
  have p0 : bits (wPG 38 (0#1 ++ d) a c t 6) 26 6 = 38#6 := wPG_major ..
  have p1 : bits (wPG 38 (0#1 ++ d) a c t 6) 0 4 = 6#4 := wPG_fn ..
  have z0 : bits (wPG 38 (0#1 ++ d) a c t 6) 25 1 = 0#1 := (bits_sub (m := 6) 20 5 25 1 rfl (by decide)).trans
    ((congrArg _ (wPG_d ..)).trans ((by decide : ∀ (d : BitVec 5), BitVec.extractLsb' 5 1 ((0#1 ++ d) : BitVec 6) = 0#1) d))
  have z1 : bits (wPG 38 (0#1 ++ d) a c t 6) 4 4 = 0#4 := wPG_gap4 ..
  have r0 : bits (wPG 38 (0#1 ++ d) a c t 6) 20 5 = d := (bits_sub (m := 6) 20 0 20 5 rfl (by decide)).trans
    ((congrArg _ (wPG_d ..)).trans ((by decide : ∀ (d : BitVec 5), BitVec.extractLsb' 0 5 ((0#1 ++ d) : BitVec 6) = d) d))
  have r1 : bits (wPG 38 (0#1 ++ d) a c t 6) 15 5 = a := wPG_a ..
  have r2 : bits (wPG 38 (0#1 ++ d) a c t 6) 10 5 = c := wPG_b ..
  have r3 : bits (wPG 38 (0#1 ++ d) a c t 6) 8 2 = t := wPG_t ..
  rw [decode_38 p0, decodePedigree_6 p1, r0, r1, r2, r3]
  exact accept_ok (by simp only [List.all_cons, List.all_nil, z0, z1]; rfl) h
theorem pgcnt (d a b : BitVec 5) (t : BitVec 2) : Statement (.pgcnt d a b t) := by
  intro _ h
  show decode (wPG 38 (0#1 ++ d) a b t 7) = _
  have p0 : bits (wPG 38 (0#1 ++ d) a b t 7) 26 6 = 38#6 := wPG_major ..
  have p1 : bits (wPG 38 (0#1 ++ d) a b t 7) 0 4 = 7#4 := wPG_fn ..
  have z0 : bits (wPG 38 (0#1 ++ d) a b t 7) 25 1 = 0#1 := (bits_sub (m := 6) 20 5 25 1 rfl (by decide)).trans
    ((congrArg _ (wPG_d ..)).trans ((by decide : ∀ (d : BitVec 5), BitVec.extractLsb' 5 1 ((0#1 ++ d) : BitVec 6) = 0#1) d))
  have z1 : bits (wPG 38 (0#1 ++ d) a b t 7) 4 4 = 0#4 := wPG_gap4 ..
  have r0 : bits (wPG 38 (0#1 ++ d) a b t 7) 20 5 = d := (bits_sub (m := 6) 20 0 20 5 rfl (by decide)).trans
    ((congrArg _ (wPG_d ..)).trans ((by decide : ∀ (d : BitVec 5), BitVec.extractLsb' 0 5 ((0#1 ++ d) : BitVec 6) = d) d))
  have r1 : bits (wPG 38 (0#1 ++ d) a b t 7) 15 5 = a := wPG_a ..
  have r2 : bits (wPG 38 (0#1 ++ d) a b t 7) 10 5 = b := wPG_b ..
  have r3 : bits (wPG 38 (0#1 ++ d) a b t 7) 8 2 = t := wPG_t ..
  rw [decode_38 p0, decodePedigree_7 p1, r0, r1, r2, r3]
  exact accept_ok (by simp only [List.all_cons, List.all_nil, z0, z1]; rfl) h
theorem pgsize (d : BitVec 5) (t : BitVec 2) : Statement (.pgsize d t) := by
  intro _ h
  show decode (wPG 38 (0#1 ++ d) 0 0 t 8) = _
  have p0 : bits (wPG 38 (0#1 ++ d) 0 0 t 8) 26 6 = 38#6 := wPG_major ..
  have p1 : bits (wPG 38 (0#1 ++ d) 0 0 t 8) 0 4 = 8#4 := wPG_fn ..
  have z0 : bits (wPG 38 (0#1 ++ d) 0 0 t 8) 25 1 = 0#1 := (bits_sub (m := 6) 20 5 25 1 rfl (by decide)).trans
    ((congrArg _ (wPG_d ..)).trans ((by decide : ∀ (d : BitVec 5), BitVec.extractLsb' 5 1 ((0#1 ++ d) : BitVec 6) = 0#1) d))
  have z1 : bits (wPG 38 (0#1 ++ d) 0 0 t 8) 10 10 = 0#10 := bits_join 10 5 15 5 10 rfl rfl (wPG_b ..)
    (wPG_a ..)
  have z2 : bits (wPG 38 (0#1 ++ d) 0 0 t 8) 4 4 = 0#4 := wPG_gap4 ..
  have r0 : bits (wPG 38 (0#1 ++ d) 0 0 t 8) 20 5 = d := (bits_sub (m := 6) 20 0 20 5 rfl (by decide)).trans
    ((congrArg _ (wPG_d ..)).trans ((by decide : ∀ (d : BitVec 5), BitVec.extractLsb' 0 5 ((0#1 ++ d) : BitVec 6) = d) d))
  have r1 : bits (wPG 38 (0#1 ++ d) 0 0 t 8) 8 2 = t := wPG_t ..
  rw [decode_38 p0, decodePedigree_8 p1, r0, r1]
  exact accept_ok (by simp only [List.all_cons, List.all_nil, z0, z1, z2]; rfl) h
theorem split (n : BitVec 5) : Statement (.split n) := by
  intro _ h
  show decode (wQ 39 n 0 0 0) = _
  have p0 : bits (wQ 39 n 0 0 0) 26 6 = 39#6 := wQ_major ..
  have p1 : bits (wQ 39 n 0 0 0) 0 11 = 0#11 := wQ_fn ..
  have z0 : bits (wQ 39 n 0 0 0) 11 10 = 0#10 := bits_join 11 5 16 5 10 rfl rfl (wQ_z ..)
    (wQ_y ..)
  have r0 : bits (wQ 39 n 0 0 0) 21 5 = n := wQ_x ..
  rw [decode_39 p0, decodeSpl_0 p1, r0]
  exact accept_ok (by simp only [List.all_cons, List.all_nil, z0]; rfl) h
theorem join  : Statement (.join ) := by
  intro _ h
  show decode (wQ 39 0 0 0 1) = _
  have p0 : bits (wQ 39 0 0 0 1) 26 6 = 39#6 := wQ_major ..
  have p1 : bits (wQ 39 0 0 0 1) 0 11 = 1#11 := wQ_fn ..
  have z0 : bits (wQ 39 0 0 0 1) 11 15 = 0#15 := bits_join 11 5 16 10 15 rfl rfl (wQ_z ..)
    (bits_join 16 5 21 5 10 rfl rfl (wQ_y ..)
    (wQ_x ..))
  rw [decode_39 p0, decodeSpl_1 p1]
  exact accept_ok (by simp only [List.all_cons, List.all_nil, z0]; rfl) h
theorem mtid (d : BitVec 5) : Statement (.mtid d) := by
  intro _ h
  show decode (wQ 39 d 0 0 2) = _
  have p0 : bits (wQ 39 d 0 0 2) 26 6 = 39#6 := wQ_major ..
  have p1 : bits (wQ 39 d 0 0 2) 0 11 = 2#11 := wQ_fn ..
  have z0 : bits (wQ 39 d 0 0 2) 11 10 = 0#10 := bits_join 11 5 16 5 10 rfl rfl (wQ_z ..)
    (wQ_y ..)
  have r0 : bits (wQ 39 d 0 0 2) 21 5 = d := wQ_x ..
  rw [decode_39 p0, decodeSpl_2 p1, r0]
  exact accept_ok (by simp only [List.all_cons, List.all_nil, z0]; rfl) h
theorem pfx (p : BitVec 6) (i : BitVec 1) (v : BitVec 5) (c e l u : BitVec 1) : Statement (.pfx p i v c e l u) := by
  intro _ h
  show decode (wX 40 p i v c e l u) = _
  have p0 : bits (wX 40 p i v c e l u) 26 6 = 40#6 := wX_major ..
  have z0 : bits (wX 40 p i v c e l u) 0 10 = 0#10 := wX_gap0 ..
  have r0 : bits (wX 40 p i v c e l u) 20 6 = p := wX_p ..
  have r1 : bits (wX 40 p i v c e l u) 19 1 = i := wX_i ..
  have r2 : bits (wX 40 p i v c e l u) 14 5 = v := wX_v ..
  have r3 : bits (wX 40 p i v c e l u) 13 1 = c := wX_c ..
  have r4 : bits (wX 40 p i v c e l u) 12 1 = e := wX_e ..
  have r5 : bits (wX 40 p i v c e l u) 11 1 = l := wX_l ..
  have r6 : bits (wX 40 p i v c e l u) 10 1 = u := wX_u ..
  rw [decode_40 p0, r0, r1, r2, r3, r4, r5, r6]
  exact accept_ok (by simp only [List.all_cons, List.all_nil, z0]; rfl) h
theorem fillComplete (c : CoreId) (w : Who) (n : Nat) : Statement (.fillComplete c w n) := of_event rfl
theorem waitTimeout (c : CoreId) (w : Who) : Statement (.waitTimeout c w) := of_event rfl
theorem feTimeout (c : CoreId) (n : Nat) : Statement (.feTimeout c n) := of_event rfl
theorem verTimeout (c : CoreId) (w : Who) : Statement (.verTimeout c w) := of_event rfl
theorem verFull (c : CoreId) (w : Who) : Statement (.verFull c w) := of_event rfl
theorem trapDelivery (c : CoreId) (w : Who) : Statement (.trapDelivery c w) := of_event rfl
theorem predeadlineExpiry (c : CoreId) (w : Who) : Statement (.predeadlineExpiry c w) := of_event rfl
theorem contextSave (team : Nat) : Statement (.contextSave team) := of_event rfl
theorem teamRestore (team die cluster : Nat) : Statement (.teamRestore team die cluster) := of_event rfl
theorem teamPlace (launch : Nat) : Statement (.teamPlace launch) := of_event rfl
theorem victimSelection (launch : Nat) : Statement (.victimSelection launch) := of_event rfl
theorem hotSpotCheck  : Statement (.hotSpotCheck ) := of_event rfl
theorem launch (q : Nat) : Statement (.launch q) := of_event rfl
theorem launchLive (launch : Nat) : Statement (.launchLive launch) := of_event rfl
theorem launchComplete (launch : Nat) : Statement (.launchComplete launch) := of_event rfl
theorem droverCopy (q : Nat) : Statement (.droverCopy q) := of_event rfl
theorem waitver (q : Nat) : Statement (.waitver q) := of_event rfl
theorem makever (q : Nat) : Statement (.makever q) := of_event rfl
theorem droverFence (q : Nat) : Statement (.droverFence q) := of_event rfl
theorem cancel (q : Nat) : Statement (.cancel q) := of_event rfl
theorem invalidRecord (q : Nat) : Statement (.invalidRecord q) := of_event rfl
theorem qtailWrite (q : Nat) (v : Word) : Statement (.qtailWrite q v) := of_event rfl
theorem queueEnable (q : Nat) : Statement (.queueEnable q) := of_event rfl
theorem queueDisable (q : Nat) : Statement (.queueDisable q) := of_event rfl
theorem fltClear (q : Nat) : Statement (.fltClear q) := of_event rfl
theorem hostEventRingEnable  : Statement (.hostEventRingEnable ) := of_event rfl
theorem hevheadWrite (v : Word) : Statement (.hevheadWrite v) := of_event rfl
theorem hostEventRecord (r : EvRec) : Statement (.hostEventRecord r) := of_event rfl
theorem registerWrite (r : RegName) (v : Word) : Statement (.registerWrite r v) := of_event rfl
theorem pwrctlEnter  : Statement (.pwrctlEnter ) := of_event rfl
theorem pwrctlExit  : Statement (.pwrctlExit ) := of_event rfl
theorem brnNAssert  : Statement (.brnNAssert ) := of_event rfl
theorem brnNDeassert  : Statement (.brnNDeassert ) := of_event rfl
theorem engineParkDeadline  : Statement (.engineParkDeadline ) := of_event rfl
theorem brownoutHeld  : Statement (.brownoutHeld ) := of_event rfl
theorem brownoutExit  : Statement (.brownoutExit ) := of_event rfl
theorem brownoutResume  : Statement (.brownoutResume ) := of_event rfl
theorem supplyLoss  : Statement (.supplyLoss ) := of_event rfl
theorem coldBoot  : Statement (.coldBoot ) := of_event rfl
theorem attestationRequest (nonce : List Byte) : Statement (.attestationRequest nonce) := of_event rfl
theorem crookAssert  : Statement (.crookAssert ) := of_event rfl
theorem crookDeassert  : Statement (.crookDeassert ) := of_event rfl
theorem crookRelease  : Statement (.crookRelease ) := of_event rfl
theorem crookRampStep  : Statement (.crookRampStep ) := of_event rfl
theorem powerSample (watts : Nat) : Statement (.powerSample watts) := of_event rfl
theorem powerLoop  : Statement (.powerLoop ) := of_event rfl
theorem thermalAdjust  : Statement (.thermalAdjust ) := of_event rfl
theorem lease (f : Flit) : Statement (.lease f) := of_event rfl
theorem leaseExpiry  : Statement (.leaseExpiry ) := of_event rfl
theorem migrationScan  : Statement (.migrationScan ) := of_event rfl
theorem frameCounterHalving  : Statement (.frameCounterHalving ) := of_event rfl
theorem migration  : Statement (.migration ) := of_event rfl
theorem migrateDone  : Statement (.migrateDone ) := of_event rfl
theorem hotCounterHalving (die : Nat) : Statement (.hotCounterHalving die) := of_event rfl
theorem bankRoleChange (die : Nat) : Statement (.bankRoleChange die) := of_event rfl
theorem bankSpare (die bank : Nat) : Statement (.bankSpare die bank) := of_event rfl
theorem scoreHalving  : Statement (.scoreHalving ) := of_event rfl
theorem remap (c : CoreId) : Statement (.remap c) := of_event rfl
theorem testResult (die : Nat) (verdict : BitVec 2) : Statement (.testResult die verdict) := of_event rfl
theorem timedRotation (die : Nat) : Statement (.timedRotation die) := of_event rfl
theorem suspicionSwap (die : Nat) : Statement (.suspicionSwap die) := of_event rfl
theorem swapEnd (die : Nat) : Statement (.swapEnd die) := of_event rfl
theorem eventSettle (c : CoreId) : Statement (.eventSettle c) := of_event rfl
theorem copy (c : CoreId) (ticket : Nat) : Statement (.copy c ticket) := of_event rfl
theorem toslice (c : CoreId) (ticket : Nat) : Statement (.toslice c ticket) := of_event rfl
theorem fromslice (c : CoreId) (ticket : Nat) : Statement (.fromslice c ticket) := of_event rfl
theorem planes (c : CoreId) (ticket : Nat) : Statement (.planes c ticket) := of_event rfl
theorem unplanes (c : CoreId) (ticket : Nat) : Statement (.unplanes c ticket) := of_event rfl
theorem mxsplit (c : CoreId) (ticket : Nat) : Statement (.mxsplit c ticket) := of_event rfl
theorem copyDone (c : CoreId) (ticket : Nat) : Statement (.copyDone c ticket) := of_event rfl
theorem xcopyPut (c : CoreId) (ticket : Nat) : Statement (.xcopyPut c ticket) := of_event rfl
theorem xcopyGet (c : CoreId) (ticket : Nat) : Statement (.xcopyGet c ticket) := of_event rfl
theorem xcopyDataFlit (f : Flit) : Statement (.xcopyDataFlit f) := of_event rfl
theorem xcopyDone (c : CoreId) (ticket : Nat) (status : BitVec 8) (addr : Word) : Statement (.xcopyDone c ticket status addr) := of_event rfl
theorem xcopyPathTimeout (c : CoreId) (ticket : Nat) : Statement (.xcopyPathTimeout c ticket) := of_event rfl
theorem tileReady (die cluster slot : Nat) : Statement (.tileReady die cluster slot) := of_event rfl
theorem tilePlace (die cluster slot : Nat) : Statement (.tilePlace die cluster slot) := of_event rfl
theorem kStep (die cluster slot : Nat) : Statement (.kStep die cluster slot) := of_event rfl
theorem tileWindowCommit (die cluster slot : Nat) : Statement (.tileWindowCommit die cluster slot) := of_event rfl
theorem tileFetchFailure (die cluster slot : Nat) : Statement (.tileFetchFailure die cluster slot) := of_event rfl
theorem tilePark (die cluster slot : Nat) : Statement (.tilePark die cluster slot) := of_event rfl
theorem spoolFetch (c : CoreId) (n cnt : Nat) : Statement (.spoolFetch c n cnt) := of_event rfl
theorem postedReductionWalkEnd (c : CoreId) (w : Who) : Statement (.postedReductionWalkEnd c w) := of_event rfl
theorem floorApply (region die : Nat) : Statement (.floorApply region die) := of_event rfl
theorem syncBroadcast (die : Nat) : Statement (.syncBroadcast die) := of_event rfl
theorem nak (port : Nat) (ack : BitVec 16) : Statement (.nak port ack) := of_event rfl
theorem ackTimer (port : Nat) : Statement (.ackTimer port) := of_event rfl
theorem replayTimeout (port : Nat) : Statement (.replayTimeout port) := of_event rfl
theorem laneFailure (port lane : Nat) : Statement (.laneFailure port lane) := of_event rfl
theorem retrain (port : Nat) : Statement (.retrain port) := of_event rfl
theorem bellwetherPost (f : Flit) : Statement (.bellwetherPost f) := of_event rfl
theorem bellwetherResult (f : Flit) : Statement (.bellwetherResult f) := of_event rfl
theorem bwredRepost (group : Nat) : Statement (.bwredRepost group) := of_event rfl
theorem cxlHostAccess (write : Bool) (pa n : Nat) (data : List Byte) : Statement (.cxlHostAccess write pa n data) := of_event rfl
theorem ucieSegmentFailure (segment : Nat) : Statement (.ucieSegmentFailure segment) := of_event rfl
theorem dsModeChange (c : CoreId) : Statement (.dsModeChange c) := of_event rfl
theorem ill (w : BitVec 32) : Statement (.ill w) := of_event rfl
theorem flitReceived (port : Nat) (f : Flit) : Statement (.flitReceived port f) := of_event rfl
theorem hostSnoop (line : Nat) (invalidate : Bool) : Statement (.hostSnoop line invalidate) := of_event rfl
theorem contextRegistration (desc : List Word) : Statement (.contextRegistration desc) := of_event rfl
theorem contextDestruction (num : Nat) : Statement (.contextDestruction num) := of_event rfl
theorem managementConfiguration (cfg : MgmtCfg) : Statement (.managementConfiguration cfg) := of_event rfl
theorem ucieLaneRepair (segment lane : Nat) : Statement (.ucieLaneRepair segment lane) := of_event rfl

end Sys2Proof.Laws.RoundTrip
end

