-- ==== Sys2Proof/Machine/Scope.lean ====
section
/-! DEFINITION. Sys2Proof/Machine/Scope.lean: the agents of the package and the scopes that name sets of them (R306). Every
access is performed at system scope, hence at every scope, in the step that performs it (notes/assumptions/11.md); no meaning
therefore waits longer for a wide scope than for a narrow one. -/

namespace Sys2Proof.Machine

/-- What performs accesses to memory or observes them (R306). -/
inductive Agent
  | thread (c : CoreId) (w : Who)
  | spool (c : CoreId) (n : Nat)
  | bobbin (c : CoreId)
  | tileScheduler (die cluster : Nat)
  | tileFetch (die cluster : Nat)
  | walkers (die : Nat)
  | drover
  | migrationEngine
  | packageSwitch
  | linkEngine (port : Nat)
  | host
  | peer (node : BitVec 12)
  deriving DecidableEq, Repr

/-- The five scopes, the narrowest first (R306). -/
inductive Scope
  | core | cluster | die | package | system
  deriving DecidableEq, Repr

/-- The scope that a code names; 5 to 7 name none (R306). -/
def scopeOf (code : BitVec 3) : Option Scope :=
  [Scope.core, .cluster, .die, .package, .system][code.toNat]?

/-- The core, the cluster and the die in which an agent lies, as far as it lies in one. -/
def Agent.place : Agent → Option Nat × Option Nat × Option Nat
  | .thread c _ | .spool c _ | .bobbin c => (some c.core, some c.cluster, some c.die)
  | .tileScheduler d k | .tileFetch d k => (none, some k, some d)
  | .walkers d => (none, none, some d)
  | _ => (none, none, none)

/-- The agent is outside the package, or joins it to the outside. -/
def Agent.outer : Agent → Bool
  | .linkEngine _ | .host | .peer _ => true
  | _ => false

/-- The agents that a scope contains, relative to an agent on a core (R306). -/
def Scope.contains (x : Scope) (c : CoreId) (a : Agent) : Bool :=
  match x with
  | .core => a.place == (some c.core, some c.cluster, some c.die)
  | .cluster => a.place.2 == (some c.cluster, some c.die)
  | .die => a.place.2.2 == some c.die
  | .package => !a.outer
  | .system => true

end Sys2Proof.Machine
end

