-- ==== Sys2Proof/Tests/Slice0.lean ====
section
/-! SUPPORT. Sys2Proof/Tests/Slice0.lean: tests on small states, with results that the spec's worked examples give; and
for each statement of Obligations a state and operands that meet its hypotheses, clause by clause. -/

namespace Sys2Proof.Tests

open Sys2Proof.Machine Sys2Proof.Claims

set_option Elab.async false

/-! ## Small states -/

/-- A thread of a supervisor with its registers from a list, the rest 0. -/
def thread (g : List Word) : Thread :=
  { pc := 0x1000, g := Vector.ofFn (fun i => g.getD i.val 0), super := true, run := .running }

/-- A placed hart with the thread's registers on A and on E, and vector state. -/
def hart (g : List Word) (x : EState) : Hart := { a := thread g, e := thread g, ex := x }

/-- The core in focus runs a hart. -/
def on (who : Who) (h : Hart) : State := { who := who, core := { resident := true, hart := h } }

/-- EW as SETEW sets it (R144). -/
def ewOf (wa wb wd : Nat) (sa sb sd : Bool) : BitVec 16 :=
  BitVec.ofNat 16 (wa - 1 + 16 * (wb - 1) + 256 * (wd - 1) + (if sa then 2 ^ 13 else 0) + (if sb then 2 ^ 14 else 0) +
    (if sd then 2 ^ 15 else 0))

/-- A vector register holding elements of a width. -/
def column (w : Nat) (es : List Nat) : VReg := { planes := stripPlanes 0 w 0 (es.map SpEl.data) }

/-- Vector state with v1, v2 and v3 given. -/
def lanes (vl : Nat) (ew : BitVec 16) (fmt : BitVec 12) (v1 v2 v3 : VReg) : EState :=
  { vl := vl, ew := ew, fmt := fmt, vregs := Vector.ofFn (fun i =>
      if i.val = 1 then v1 else if i.val = 2 then v2 else if i.val = 3 then v3 else {}) }

/-- The state after an instruction. -/
noncomputable def run (i : Instr) (s : State) : State :=
  match exec i s with
  | .next t => t
  | _ => s

/-- The first elements of a vector register after an instruction. -/
noncomputable def vecAfter (i : Instr) (s : State) (r : BitVec 5) (n : Nat) : List Nat :=
  (List.range n).map (fun j => rawAt j ((run i s).est.vreg r).planes)

/-- E with two scalars. -/
def sE (x y : Word) : State := on .e (hart [0, x, y] {})

/-! ## Ill-formed operands are refused (R37, R41, R43, R44, R46) -/

theorem test_wf_scope : Instr.wellFormed (.fence 0 4) = true ∧ Instr.wellFormed (.fence 0 5) = false := by decide
theorem test_wf_level : Instr.wellFormed (.lidx 0 5) = true ∧ Instr.wellFormed (.lidx 0 6) = false := by decide
theorem test_wf_split : Instr.wellFormed (.split 16) = true ∧ Instr.wellFormed (.split 3) = false := by decide
theorem test_wf_had : Instr.wellFormed (.vhad 8 9 7 0) = true ∧ Instr.wellFormed (.vhad 8 9 0 0) = false ∧
    Instr.wellFormed (.vhad 8 9 8 0) = false := by decide
theorem test_wf_pred : Instr.wellFormed (.vceq 1 2 3 0) = true ∧ Instr.wellFormed (.vceq 0 2 3 0) = false := by decide
theorem test_wf_pair : Instr.wellFormed (.vargmax 30 1 2 0) = true ∧ Instr.wellFormed (.vargmax 31 1 2 0) = false := by
  decide
theorem test_wf_field : Instr.wellFormed (.pgrd 1 2 4 0) = true ∧ Instr.wellFormed (.pgrd 1 2 5 0) = false := by decide
theorem test_wf_pfx : Instr.wellFormed (.pfx 9 1 0 0 1 1 0) = true ∧ Instr.wellFormed (.pfx 9 0 0 0 0 0 0) = false ∧
    Instr.wellFormed (.pfx 0 0 4 0 1 0 0) = false := by decide

/-! ## Words that the spec writes out, one or more a family -/

theorem test_decode_int : decode 0x04611000#32 = .ok (.add 3 1 2 0 0) := rfl
theorem test_decode_addi : decode 0x08217FFF#32 = .ok (.addi 1 1 0 (-1)) := rfl
theorem test_decode_shift : decode 0x18434007#32 = .ok (.sari 2 3 0 7) := rfl
theorem test_decode_ins16 : decode 0x20700008#32 = .ok (.ins16 3 2 1) := rfl
theorem test_decode_store : decode 0x2D620000#32 = .ok (.stb 11 2 0 0) := rfl
theorem test_decode_branch : decode 0x30890FFD#32 = .ok (.bne 4 9 0 0 (-3)) := rfl
theorem test_decode_nop : decode 0x3C000007#32 = .ok .nop := rfl
theorem test_decode_loopi : decode 0x44630004#32 = .ok (.loopi 99 4) := rfl
theorem test_decode_csr : decode 0x48800000#32 = .ok (.csrrd 4 0) ∧ decode 0x480900E1#32 = .ok (.csrwr 9 0x00E) := ⟨rfl, rfl⟩
theorem test_decode_waita : decode 0x486A000A#32 = .ok (.waita 3 10) := rfl
theorem test_decode_tlbinv : decode 0x4819001E#32 = .ok (.tlbinvPage 25 0) := rfl
theorem test_decode_atomic : decode 0x4DE201AC#32 = .ok (.lda 15 2 0 4) ∧ decode 0x4C1C39D4#32 = .ok (.stl 28 7 0 0 4) :=
  ⟨rfl, rfl⟩
theorem test_decode_sync : decode 0x50821801#32 = .ok (.syfadd 4 2 3 0 0) := rfl
theorem test_decode_tag : decode 0x54821008#32 = .ok (.ldfe 4 2 0 8) := rfl
theorem test_decode_version : decode 0x58C21801#32 = .ok (.vrldle 3 2 3 0 0) ∧ decode 0x58074003#32 = .ok (.vrfloor 7 8 0 0) :=
  ⟨rfl, rfl⟩
theorem test_decode_engine : decode 0x5D2A0007#32 = .ok (.xcopy 9 10) ∧ decode 0x5C82300C#32 = .ok (.bwred 4 2 3) :=
  ⟨rfl, rfl⟩
theorem test_decode_tile : decode 0x5CA40009#32 = .ok (.twin 5 4) := rfl
theorem test_decode_vint : decode 0x608530E2#32 = .ok (.vmul 4 5 6 7) := rfl
theorem test_decode_vints : decode 0x6775200D#32 = .ok (.vrand 27 21 4 0) := rfl
theorem test_decode_vidx : decode 0x6C5FE040#32 = .ok (.vidx 2 0xFF 2) := rfl
theorem test_decode_compare : decode 0x708D6C78#32 = .ok (.vcgts 8 26 27 7) := rfl
theorem test_decode_pred : decode 0x7471460A#32 = .ok (.pfilt 7 5 6) := rfl
theorem test_decode_reduce : decode 0x78F4A800#32 = .ok (.vredsum 7 20 21 0) := rfl
theorem test_decode_scan : decode 0x7D490144#32 = .ok (.vcompress 10 9 10) := rfl
theorem test_decode_float : decode 0x80221883#32 = .ok (.fma 1 2 3 4) := rfl
theorem test_decode_mx : decode 0x84610000#32 = .ok (.mxscl 3 1 0) ∧ decode 0x84450003#32 = .ok (.emov 2 5) := ⟨rfl, rfl⟩
theorem test_decode_vmem : decode 0x8822080A#32 = .ok (.mxld 1 2 1 0) ∧ decode 0x88363805#32 = .ok (.vstx 1 22 7 0) := ⟨rfl, rfl⟩
theorem test_decode_conf : decode 0x90090002#32 = .ok (.vkill 9) := rfl
theorem test_decode_setew : decode 0x94C5FC00#32 = .ok (.setew 3 1 15 1 1 1) := rfl
theorem test_decode_pedigree : decode 0x996C8004#32 = .ok (.pgpath 22 25 0) := rfl
theorem test_decode_split : decode 0x9C800000#32 = .ok (.split 4) := rfl
theorem test_decode_pfx : decode 0xA0981800#32 = .ok (.pfx 9 1 0 0 1 1 0) := rfl
theorem test_reserved_words : (∀ i, decode 0x58000006#32 ≠ .ok i) ∧ (∀ i, decode 0x58A21801#32 ≠ .ok i) ∧
    (∀ i, decode 0x58274003#32 ≠ .ok i) ∧ (∀ i, decode 0x5C820808#32 ≠ .ok i) ∧ (∀ i, decode 0x8000000E#32 ≠ .ok i) ∧
    (∀ i, decode 0x80000806#32 ≠ .ok i) ∧ (∀ i, decode 0x86000003#32 ≠ .ok i) :=
  ⟨fun _ => nofun, fun _ => nofun, fun _ => nofun, fun _ => nofun, fun _ => nofun, fun _ => nofun, fun _ => nofun⟩
theorem test_table_word : decodeTableWord 32 0x3C000007 = some .nop := rfl
theorem test_first_step : ∃ t, step (State.reset.withFetchWord 32 0x3C000007) = .next t ∧ t.thr.pc = 0x1004 := ⟨_, rfl, rfl⟩

/-! ## The spec's worked examples -/

theorem test_div : (run (.div 3 1 2 0 0) (sE (-7) 2)).thr.reg 3 = -3 ∧ (run (.rem 3 1 2 0 0) (sE (-7) 2)).thr.reg 3 = -1 := by
  decide +kernel
theorem test_div_zero : (run (.divn 3 1 2 0 0) (sE 5 0)).thr.reg 3 = 0xFFFF_FFFF_FFFF_FFFF ∧
    (run (.remn 3 1 2 0 0) (sE 5 0)).thr.reg 3 = 5 := by decide +kernel
theorem test_sar : (run (.sari 3 1 0 1) (sE (-7) 0)).thr.reg 3 = -4 := by decide +kernel
theorem test_branch : (run (.bne 1 2 0 0 (-3)) (sE 1 2)).thr.pc = 0x0FF8 := by decide +kernel
theorem test_fstat_w1c : (run (.csrwr 1 0x00E) (on .e (hart [0, 2] { fstat := 0b1010 }))).est.fstat = 0b1000 ∧
    (run (.csrclr 1 0x00E) (on .e (hart [0, 2] { fstat := 0b1010 }))).est.fstat = 0b1010 := by decide +kernel
theorem test_vadd_mixed_signs : vecAfter (.vadd 3 1 2 0)
    (on .e (hart [] (lanes 1 (ewOf 4 4 8 true false true) 0 (column 4 [15]) (column 4 [15]) {}))) 3 1 = [0x0E] := by decide +kernel
theorem test_vmac : vecAfter (.vmac 3 1 2 0)
    (on .e (hart [] (lanes 1 (ewOf 4 4 8 true true true) 0 (column 4 [13]) (column 4 [5]) (column 8 [100])))) 3 1 = [85] := by
  decide +kernel
theorem test_vssa : vecAfter (.vssa 3 1 2 0) (on .e (hart [] (lanes 3 (ewOf 8 2 16 true true true) 0 (column 8 [5, 6, 7])
    (column 2 [1, 0, 3]) (column 16 [10, 10, 10])))) 3 3 = [15, 10, 3] := by decide +kernel
theorem test_vabs_wraps : vecAfter (.vabs 3 1 0)
    (on .e (hart [] (lanes 1 (ewOf 4 4 4 true true true) 0 (column 4 [8]) {} {}))) 3 1 = [8] := by decide +kernel
theorem test_vsatc : vecAfter (.vsatc 3 1 0) (on .e (hart [] (lanes 2 (ewOf 16 4 8 true true true) 0
    (column 16 [300, 65236]) {} {}))) 3 2 = [127, 128] := by decide +kernel
theorem test_vhad : vecAfter (.vhad 3 1 2 0) (on .e (hart [] (lanes 4 (ewOf 8 4 16 true true true) 0
    (column 8 [1, 2, 3, 4]) {} {}))) 3 4 = [10, 65534, 65532, 0] := by decide +kernel
theorem test_vidx : vecAfter (.vidx 3 0xFF 2) (on .e (hart [] (lanes 6 (ewOf 4 4 4 true true true) 0 {} {} {}))) 3 6
    = [15, 1, 3, 5, 7, 9] := by decide +kernel
theorem test_kept_lane : vecAfter (.vmov 3 1 1) (on .e (hart [] (lanes 1 (ewOf 8 4 16 true true true) 0 {} {}
    (column 8 [0xFD])))) 3 1 = [0xFFFD] := by decide +kernel
theorem test_vscansum : vecAfter (.vscansum 3 1 1) (on .e { hart [] { lanes 5 (ewOf 8 4 16 false false false) 0
    (column 8 [4, 9, 1, 2, 5]) {} (column 16 [0, 77]) with seamctl := 1 } with
      preds := (Vector.replicate 64 0).set 1 0b11101, seam := 0b01001 }) 3 5 = [4, 77, 5, 2, 7] := by decide +kernel
theorem test_vexpand : vecAfter (.vexpand 3 1 1) (on .e { hart [] (lanes 4 (ewOf 8 4 8 false false false) 0
    (column 8 [7, 8, 9, 1]) {} (column 8 [0, 55])) with preds := (Vector.replicate 64 0).set 1 0b1101 }) 3 4
    = [7, 55, 8, 9] := by decide +kernel
theorem test_fexp2 : vecAfter (.fexp2 3 1 0) (on .e (hart [] (lanes 1 0 0x111 (column 32 [0xBFC00000]) {} {}))) 3 1
    = [0x3EB504F3] := by decide +kernel
theorem test_frcp : vecAfter (.frcp 3 1 0) (on .e (hart [] (lanes 1 0 0x111 (column 32 [0x40400000]) {} {}))) 3 1
    = [0x3EAAAAAA] := by decide +kernel
theorem test_vqnt : vecAfter (.vqnt 3 1 0) (on .e (hart [] (lanes 3 0 0x911 (column 32 [0x4039999A, 0xBF19999A, 0xBFC00000])
    {} {}))) 3 3 = [1, 0, 3] := by decide +kernel
theorem test_setvl_grant : (run (.setvl 3 1) (on .e (hart [0, 20000] {}))).thr.reg 3 = 16384 := by decide +kernel
theorem test_trap_entry : (run (.trap 5) (on .e { hart [] {} with e := { thread [] with tvec := 0x4000 } })).thr.pc = 0x4000 ∧
    (run (.trap 5) (sE 0 0)).thr.tval = 5 ∧ (run (.trap 5) (sE 0 0)).thr.tpc = 0x1004 := by decide +kernel


/-! ## The hypotheses of the statements are met: scalar instructions -/

/-- The first byte of the own scratchpad (R215). -/
def pad : Word := 0xFFFF_FFFF_F000_0000

/-- A supervisor thread whose g1 is an address and whose page 0 is mapped to frame 0x20000. -/
def sM (who : Who) (ea x y : Word) : State :=
  { on who (hart [0, ea, x, y] {}) with
    core := { resident := true, hart := hart [0, ea, x, y] {}
              tlb := [{ ctx := 0, base := 0, size := 0x10000, pa := 0x20000, leaf := 0, glob := false, user := true,
                        x := true, w := true, r := true, d := true }] } }

theorem test_meets_IntegerResults : ∀ row ∈ int2Table, Ready (row.1 3 1 2 0 0) [1, 2] (sE 5 7) ∧ Free [3] (sE 5 7) := by
  unfold Ready Free; decide +kernel

/-- What DivisionResults asks of a state, over two operand registers. -/
def dividing (x y : Word) : Prop :=
  let s := sE x y
  s.core.resident = true ∧ s.thr.isFull 1 = true ∧ s.thr.isFull 2 = true ∧ Free [3] s ∧
    gate (encode (.div 3 1 2 0 0)) s = none ∧ gate (encode (.rem 3 1 2 0 0)) s = none ∧
    gate (encode (.divn 3 1 2 0 0)) s = none ∧ gate (encode (.remn 3 1 2 0 0)) s = none

theorem test_meets_DivisionResults : dividing 0x8000_0000_0000_0000 0xFFFF_FFFF_FFFF_FFFF ∧ dividing 5 0 ∧ dividing (-7) 2 := by
  unfold dividing Free; decide +kernel

theorem test_meets_BitCountResults : Free [3] (sE 0 0) ∧
    ∀ i ∈ [Instr.clz 3 1 0, .ctz 3 1 0, .popc 3 1 0, .mov 3 1 0], Ready i [1] (sE 0 0) ∧ Ready i [1] (sE (-1) 0) := by
  unfold Ready Free; decide +kernel

theorem test_meets_ImmediateAndFullBitResults : Ready (.gfull 3 1) [] (sE 5 7) ∧ Free [3] (sE 5 7) ∧ (sE 5 7).thr.wait = none ∧
    Ready (.gempty 3) [] (sE 5 7) ∧ (∀ row ∈ immTable, Ready (row.1 3 1 0 (-1)) [1] (sE 5 7)) ∧
    (∀ i ∈ [Instr.shli 3 1 0 63, .shri 3 1 0 63, .sari 3 1 0 63], Ready i [1] (sE 5 7)) ∧
    Ready (.ldi 3 (-1)) [] (sE 5 7) ∧ Ready (.ins16 3 3 0xFFFF) [3] (sE 5 7) := by
  unfold Ready Free; decide +kernel

theorem test_meets_LoadResults_memory : (∀ row ∈ loadTable, Ready (row.op 3 1 0 (-8)) [1] (sM .e 0x108 0 0)) ∧
    Idle [3] (sM .e 0x108 0 0) ∧ (∀ n ∈ [1, 2, 4, 8], ∃ p s', resolveThr (sM .e 0x108 0 0) .read (addr (sM .e 0x108 0 0) 1 (-8)) n
      = .ok p s' ∧ s'.poisonedAt p n = false) := by
  refine ⟨by unfold Ready; decide +kernel, by unfold Idle Free; decide +kernel, ?_⟩
  simp only [List.forall_mem_cons]
  exact ⟨⟨_, _, rfl, rfl⟩, ⟨_, _, rfl, rfl⟩, ⟨_, _, rfl, rfl⟩, ⟨_, _, rfl, rfl⟩, nofun⟩
theorem test_meets_LoadResults_pair : Ready (.ldq 1 1 0 0) [1] (sM .a (pad + 0x17FF0) 0 0) ∧
    Idle [2, 3] (sM .a (pad + 0x17FF0) 0 0) ∧ ∃ p s', resolveThr (sM .a (pad + 0x17FF0) 0 0) .read
      (addr (sM .a (pad + 0x17FF0) 0 0) 1 0) 16 = .ok p s' ∧ s'.poisonedAt p 16 = false :=
  ⟨by unfold Ready; decide +kernel, by unfold Idle Free; decide +kernel, _, _, rfl, rfl⟩

theorem test_meets_StoreResults : (∀ row ∈ storeTable, Ready (row.1 2 1 0 0) [1, 2] (sM .e 0x100 5 0)) ∧
    (sM .e 0x100 5 0).thr.held false = false ∧ Ready (.stq 1 1 0 0) [1, 2, 3] (sM .e 0x100 5 0) ∧
    (∃ s', resolveThr (sM .e 0x100 5 0) .write 0x100 8 = .ok (.phys 0x20100) s') ∧
    (∃ s', resolveThr (sM .e 0x100 5 0) .write 0x100 16 = .ok (.phys 0x20100) s') ∧
    ∃ s', resolveThr (sM .e 0 5 0) .write pad 8 = .ok (.spad ⟨0, 0, 0⟩ 0) s' :=
  ⟨by unfold Ready; decide +kernel, by decide +kernel, by unfold Ready; decide +kernel, ⟨_, rfl⟩, ⟨_, rfl⟩, _, rfl⟩

/-- A thread in a call with a loop of its level. -/
def sC : State := on .e { hart [0, 0x2000] {} with
  e := { thread [0, 0x2000] with clvl := 1, rets := [0x1004]
                                 loops := [{ start := 0x1000, fin := 0x1010, count := 3, index := 1, lvl := 1 }] }
  bo := [true, false] }

/-- A branch's two registers hold a pair, and the branch is ready. -/
def branching (row : BranchRow) (x y : Word) : Prop := Ready (row.1 1 2 0 0 1023) [1, 2] (sE x y)

theorem test_meets_BranchAndJumpResults_ready : ∀ row ∈ branchTable,
    branching row 1 2 ∧ branching row 2 1 ∧ branching row (-1) 1 ∧ branching row 3 3 := by
  simp only [branchTable, List.forall_mem_cons, branching, Ready]
  refine ⟨?_, ?_, ?_, ?_, ?_, ?_, List.forall_mem_nil _⟩ <;> decide +kernel

theorem test_meets_BranchAndJumpResults :
    (∀ row ∈ branchTable, (row.2 1 2 ∨ row.2 2 1 ∨ row.2 3 3) ∧ ¬(row.2 1 2 ∧ row.2 2 1 ∧ row.2 3 3)) ∧
    (∀ i ∈ [Instr.jmp 5, .call 5, .ret, .bmz 5, .boq (-5)], Ready i [] sC) ∧
    (∀ i ∈ [Instr.jmpr 1, .callr 1], Ready i [1] sC) ∧ (sC.thr.reg 1).toNat % 4 = 0 ∧ sC.thr.rets.length < retLimit sC ∧
    sC.thr.rets = [0x1004] ∧ (∀ k, sC.who ≠ .mt k) ∧ sC.hart.bo = [true, false] := by
  refine ⟨?_, by unfold Ready; decide +kernel, by unfold Ready; decide +kernel, by decide +kernel,
    by decide +kernel, rfl, nofun, rfl⟩
  simp only [branchTable, List.forall_mem_cons]
  refine ⟨?_, ?_, ?_, ?_, ?_, ?_, List.forall_mem_nil _⟩ <;> decide +kernel

theorem test_meets_LoopResults : Ready (.loop 1 4) [1] (sE 0 0) ∧ (sE 0 0).thr.reg 1 = 0 ∧ Ready (.loop 1 4) [1] (sE 9 0) ∧
    (sE 9 0).thr.loops.length < 6 ∧ Ready (.loopi 99 3) [] sC ∧ sC.thr.loops.length < 6 ∧ Free [3] sC ∧
    (∀ i ∈ [Instr.lidx 3 5, .lcnt 3 0, .nop, .yield], Ready i [] sC) ∧
    Ready (.bopush 1) [1] (sM .a 0 0 0) ∧ (sM .a 0 0 0).hart.bo.length < 32 := by
  unfold Ready Free; decide +kernel

theorem test_meets_CsrResults : Ready (.csrrd 3 0x00E) [] (sE 2 0) ∧ csrIll (sE 2 0) 0x00E 0 = false ∧ Free [3] (sE 2 0) ∧
    ¬((0x00E#12 = 0x030#12) ∧ (sE 2 0).hart.split ≠ 0) ∧
    (Ready (.csrwr 1 0x00E) [1] (sE 2 0) ∧ csrIll (sE 2 0) 0x00E 1 = false) ∧
    (Ready (.csrset 1 0x031) [1] (sE 2 0) ∧ csrIll (sE 2 0) 0x031 2 = false) ∧
    Ready (.csrclr 1 0x031) [1] (sE 2 0) ∧ csrIll (sE 2 0) 0x031 3 = false := by
  unfold Ready Free; decide +kernel

theorem test_meets_TrapReturnResults : Ready (.trap 0xFFF) [] (sE 0 0) ∧ (sE 0 0).thr.busy = false ∧
    (sE 0 0).thr.tvec.getLsbD 63 = false ∧ Ready .rett [] (sE 0 0) := by
  unfold Ready; decide +kernel

/-- An event record that may be removed. -/
def item : EvItem :=
  { record := { typ := 1, flags := 0, source := 0, seq := 0, gts := 0, p0 := 1, p1 := 0 }, arrived := 0, settled := true }

/-- A hart with a record in its event queue and a word in its scratchpad. -/
def sV : State := { on .e { hart [0, pad] {} with evq := [item], spad := [(0, 9)] } with gts := 1000 }

theorem test_meets_SystemResults : (∀ i ∈ [Instr.halt, .gtsrd 3, .evrd 7, .evwait], Ready i [] sV) ∧
    (∀ k, sV.who ≠ .mt k) ∧ sV.thr.fills = [] ∧ sV.thr.posted = [] ∧ Free [28, 29, 30, 31] sV ∧ sV.thr.fillRoom = true ∧
    (leastRemovable sV.gts sV.hart.evq).isSome = true ∧ Ready (.waita 3 1) [1, 3] sV ∧ sV.thr.held false = false ∧
    ∃ p s', resolveThr sV .read (sV.thr.reg 1) 8 = .ok p s' ∧ s'.poisonedAt p 8 = false ∧
      word (ofBytes (s'.loadAt p 8)) ≠ s'.thr.reg 3 :=
  ⟨by unfold Ready; decide +kernel, nofun, rfl, rfl, by unfold Free; decide +kernel, by decide +kernel, by decide +kernel,
    by unfold Ready; decide +kernel, by decide +kernel, _, _, rfl, rfl, by decide +kernel⟩

/-- A hart whose E has a reduction posted, or a Bobbin command that has not started. -/
def sHold (n : Nat) : State :=
  { on .e { hart [0, 0x30000] {} with e := { thread [0, 0x30000] with posted := if n = 1 then [⟨0, 10, 0x100, 1, false⟩] else [] } } with
    core := { resident := true
              hart := { hart [0, 0x30000] {} with
                e := { thread [0, 0x30000] with posted := if n = 1 then [⟨0, 10, 0x100, 1, false⟩] else [] } }
              bobbin := if n = 2 then [{ ticket := 1, desc := [], super := false, who := .e }] else [] } }
theorem test_meets_OrderingResults : (∀ n ∈ [0, 1, 2], Ready (.fence 0xF 4) [] (sHold n) ∧ Ready (.sbar 1) [1] (sHold n) ∧
      Ready .ifence [] (sHold n) ∧ ((sHold n).thr.reg 1).getLsbD 17 = true) ∧
    orderLeft (sHold 0) ((sHold 0).core.owes true true) = [] ∧ orderLeft (sHold 1) ((sHold 1).core.owes true true) ≠ [] ∧
    orderLeft (sHold 2) ((sHold 2).core.owes true false) ≠ [] ∧ (∃ x, (sHold 1).core.stillOwes x = true) ∧
    (sHold 0).thr.fills = [] ∧ (sHold 0).thr.posted = [] ∧
    (sHold 0).core.unstarted .e = false ∧ (sHold 1).thr.posted ≠ [] ∧ (sHold 2).core.unstarted .e = true ∧
    (∀ i ∈ [Instr.tlbinvAll 1 1, .tlbinvPage 1 0, .tlbinvContext 1 1], Ready i [1] (sM .e 0x100 0 0)) := by
  unfold Ready
  refine ⟨by decide +kernel, by decide +kernel, by decide +kernel, by decide +kernel, ⟨(.e, .posted 0), by decide +kernel⟩,
    by decide +kernel, by decide +kernel, by decide +kernel, by decide +kernel, by decide +kernel⟩

theorem test_meets_AtomicResults : (∀ row ∈ atomTable, Ready (row.1 3 1 2 0 0 3 4) [1, 2] (sM .e 0x100 5 6)) ∧
    Ready (.atcas 3 1 2 0 0 0 0) [1, 2, 3] (sM .e 0x100 5 6) ∧ (∀ o ∈ [(0 : BitVec 2), 3], (sM .e 0x100 5 6).thr.held (releases o) = false) ∧
    Free [3] (sM .e 0x100 5 6) ∧ (sM .e 0x100 5 6).thr.fillRoom = true ∧
    ∃ p s', resolveThr (sM .e 0x100 5 6) .rmw ((sM .e 0x100 5 6).thr.reg 1) 8 = .ok p s' ∧ s'.poisonedAt p 8 = false :=
  ⟨by unfold Ready; decide +kernel, by unfold Ready; decide +kernel, by decide +kernel, by unfold Free; decide +kernel,
    by decide +kernel, _, _, rfl, rfl⟩

theorem test_meets_ReductionAndOrderedAccessResults_posted : (∀ row ∈ redTable, Ready (row.op 1 2 0 0 1 0) [1, 2] (sM .e 0x20000 5 0)) ∧
    (sM .e 0x20000 5 0).thr.held true = false ∧ canonical 0x20000 = true ∧ ¬windowBase ≤ 0x20000 ∧
    (tlbFind (sM .e 0x20000 5 0).core.tlb 0 0x20000).isSome = false ∧ (sM .e 0x20000 5 0).thr.posted.length < 8 := by
  unfold Ready; decide +kernel
theorem test_meets_ReductionAndOrderedAccessResults : (∀ row ∈ redTable, Ready (row.op 1 2 0 0 1 0) [1, 2] (sM .e 0x100 5 0)) ∧
    (sM .e 0x100 5 0).thr.held true = false ∧ canonical 0x100 = true ∧ (tlbFind (sM .e 0x100 5 0).core.tlb 0 0x100).isSome = true ∧
    Ready (.lda 3 1 0 4) [1] (sM .e 0x100 5 0) ∧ Idle [3] (sM .e 0x100 5 0) ∧ Ready (.stl 1 2 0 0 4) [1, 2] (sM .e 0x100 5 0) ∧
    (∃ p s', resolveThr (sM .e 0x100 5 0) .rmw 0x100 8 = .ok p s' ∧ s'.poisonedAt p 8 = false) ∧
    (∃ p s', resolveThr (sM .e 0x100 5 0) .read 0x100 8 = .ok p s' ∧ s'.poisonedAt p 8 = false) ∧
    ∃ p s', resolveThr (sM .e 0x100 5 0) .write 0x100 8 = .ok p s' :=
  ⟨by unfold Ready; decide +kernel, by decide +kernel, by decide +kernel, by decide +kernel, by unfold Ready; decide +kernel,
    by unfold Idle Free; decide +kernel, by unfold Ready; decide +kernel, ⟨_, _, rfl, rfl⟩, ⟨_, _, rfl, rfl⟩, _, _, rfl⟩

/-- A context with SYBASE 8 and 4 sync registers. -/
def context0 : Context := { num := 0, desc := [0, 0x0004_0008] }

/-- A hart that names its last sync register. -/
def sY (v : Word) : State := { on .e (hart [0, 3, v] {}) with ctxs := [context0], sync := [(11, 1)] }

theorem test_meets_SyncRegisterResults : SyncReg (sY 0) 1 11 ∧
    (∀ i ∈ [Instr.sytas 3 1 0, .syrd 3 1 0], Ready i [1] (sY 0)) ∧
    (∀ i ∈ [Instr.syfadd 3 1 2 0 0, .sywr 1 2 0 0, .sywait 1 2 0 0], Ready i [1, 2] (sY 0)) ∧
    (sY 0).thr.held true = false ∧ (sY 0).thr.held false = false ∧ Idle [3] (sY 0) ∧ (sY 0).thr.syncWait = none ∧
    ((sY 0).thr.reg 2).toNat ≤ ((sY 0).mirrorAt (sY 0).loc.die 11).toNat := by
  unfold SyncReg Ready Idle Free; decide +kernel
/-- A SYWR whose update every mirror has. -/
def sYdone : State := { sY 1 with core := { (sY 1).core with hart := { (sY 1).hart with
  e := { (sY 1).hart.e with wait := some { kind := .update, num := 1, since := 0, bound := 0 } } } } }
theorem test_meets_SyncRegisterResults_retire : SyncReg sYdone 1 11 ∧ ∃ u, Ready (.sywr 1 2 0 0) [1, 2] sYdone ∧
    sYdone.thr.syncWait = some u ∧ sYdone.syncDone u = true := by
  refine ⟨by unfold SyncReg; decide +kernel, 1, by unfold Ready; decide +kernel, ?_⟩
  decide +kernel

theorem test_meets_TaggedWordResults : TagWord (sM .e (pad + 0x17FF8) 5 0) (addr (sM .e (pad + 0x17FF8) 5 0) 1 0) ⟨0, 0, 0⟩ 0x2FFF ∧
    (sM .e (pad + 0x17FF8) 5 0).hart.fetimeout ≠ 0 ∧ Idle [3] (sM .e (pad + 0x17FF8) 5 0) ∧
    (∀ i ∈ [Instr.ldff 3 1 0 0, .ldfe 3 1 0 0, .feclr 1 0 0, .feq 3 1 0 0], Ready i [1] (sM .e (pad + 0x17FF8) 5 0)) ∧
    (∀ i ∈ [Instr.stef 2 1 0 0, .stff 2 1 0 0], Ready i [1, 2] (sM .e (pad + 0x17FF8) 5 0)) ∧
    (sM .e (pad + 0x17FF8) 5 0).thr.wait = none ∧ (sM .e (pad + 0x17FF8) 5 0).thr.held true = false := by
  refine ⟨⟨by decide +kernel, by decide +kernel, by decide +kernel, 0x17FF8, by decide +kernel, by decide +kernel, rfl⟩, by decide +kernel,
    by unfold Idle Free; decide +kernel, by unfold Ready; decide +kernel, by unfold Ready; decide +kernel, rfl, by decide +kernel⟩
/-- A hart whose tagged store has been served, or that finds its word empty. -/
def sT (served : Bool) : State := on .e { hart [0, pad, 5] {} with
  spadEmpty := [0]
  e := { thread [0, pad, 5] with wait := if served then some { kind := .tagged, num := 0, since := 0, bound := 9, served := true }
    else none } }
theorem test_meets_TaggedWordResults_store : Ready (.stef 2 1 0 0) [1, 2] (sT true) ∧
    (∃ w, (sT true).thr.wait = some w ∧ w.kind = .tagged ∧ w.served = true) ∧ Ready (.stef 2 1 0 0) [1, 2] (sT false) ∧
    tagHeld (tagRequest { sT false with nextId := 1 } ⟨0, 0, 0⟩
      { id := 0, core := ⟨0, 0, 0⟩, who := .e, fill := 0, op := .stef 5, word := 0, ea := pad, since := 0, bound := 1000 })
        ⟨0, 0, 0⟩ 0 = false :=
  ⟨by unfold Ready; decide +kernel, ⟨_, rfl, rfl, rfl⟩, by unfold Ready; decide +kernel, by decide +kernel⟩

/-- Words laid out from offset 0 of a scratchpad. -/
def padWords (ws : List Word) : List Host.Cell := memWrite [] 0 (ws.flatMap (fun w => bytesOf 8 w.toNat))

/-- A region of one page with a word that has version 2 live, over floor 1 (depth 0). -/
def region0 : Region :=
  { ctx := 0, num := 3, base := 0x10000, length := 4096, timeout := 0, scope := 0, depth := 1, floor := 1
    applied := Vector.replicate 8 1, words := [{ addr := 0x10000, live := [(2, 77)] }] }

/-- A hart of that region's context. -/
def sR (ea v : Word) : State := { on .e (hart [0, ea, v, 9] {}) with regions := [region0] }

theorem test_meets_VersionResults : VersionedAt (sR 0x10000 2) 0x10000 region0 ∧ (sR 0x10000 2).thr.held false = false ∧
    (sR 0x10000 2).thr.held true = false ∧ Ready (.vrld 3 1 2 0 0) [1, 2] (sR 0x10000 2) ∧ Free [3] (sR 0x10000 2) ∧
    verGone (region0.floorAt 0x10000) (region0.word 0x10000) 2 = false ∧ (region0.word 0x10000).find 2 = some 77 ∧
    Ready (.vrldle 3 1 2 0 0) [1, 2] (sR 0x10000 2) ∧ Free [6, 7] (sR 0x10000 2) ∧
    (∀ i ∈ [Instr.vrtop 3 1 0], Ready i [1] (sR 0x10000 2)) ∧ Ready (.vrpoll 3 1 2 0 0) [1, 2] (sR 0x10000 2) := by
  unfold VersionedAt Ready Free; decide +kernel
/-- A version wait at 0x10000 that has been settled. -/
def sSettled (k : WaitKind) (v : Option Word) (e : VersEnd) : State := (sR 0x10000 2).setThr { (sR 0x10000 2).thr with
  full := 0xFFFF_FFF7
  wait := some { kind := k, num := 0x10000, since := 0, bound := 1, holds := if v.isNone then [3] else []
                 asks := [{ ctx := 0, addr := 0x10000, ver := 2, val := v, bound := 1, ended := some e }] } }
theorem test_meets_VersionResults_settled : Ready (.vrld 3 1 2 0 0) [1, 2] (sSettled .version none (.served 77)) ∧
    (sSettled .version none (.served 77)).thr.versDone 0x10000 = some (.served 77) ∧
    Ready (.vrst 3 1 2 0 0) [1, 2, 3] ((sSettled .room (some 5) .made).setThr { (sSettled .room (some 5) .made).thr with full := BitVec.allOnes 32 }) ∧
    (sSettled .room (some 5) .made).thr.versDone 0x10000 = some .made ∧ (sR 0x10000 2).thr.versDone 0x10000 = none ∧
    (sR 0x10000 2).held false = false := by
  unfold Ready; decide +kernel
theorem test_meets_VersionResults_create : VersionedAt (sR 0x10000 3) 0x10000 region0 ∧
    Ready (.vrst 3 1 2 0 0) [1, 2, 3] (sR 0x10000 3) ∧ verGone (region0.floorAt 0x10000) (region0.word 0x10000) 3 = false ∧
    (region0.word 0x10000).find 3 = none ∧ (region0.word 0x10000).live.length ≤ region0.depth ∧
    (sR 0x10000 3).entryFree (versHome 0x10000) = true := by
  unfold VersionedAt Ready; decide +kernel
theorem test_meets_VersionResults_floor : ((sR 3 2).regions.find? (fun q => decide (q.ctx = (sR 3 2).hart.ctx) && decide (q.num = 3)))
      = some region0 ∧ Ready (.vrfloor 1 2 0 0) [1, 2] (sR 3 2) ∧ (sR 3 2).thr.syncWait = none ∧ 0 < relTo region0.floor 2 ∧
    Ready (.vrfloor 1 2 0 0) [1, 2] (sR 3 1) ∧ relTo region0.floor 1 ≤ 0 ∧ region0.settled 1 = true := by
  unfold Ready; decide +kernel

/-- A hart whose g1 names a descriptor at offset 0 of its scratchpad. -/
def sD (who : Who) (ws : List Word) : State := on who { hart [0, pad] {} with spad := padWords ws }

theorem test_meets_QueueAndSpoolResults : (∀ k, (sE 0 0).who ≠ .mt k) ∧ Ready (.qpush 2 1) [1] (sE 0 0) ∧
    ((sE 0 0).who = .a ↔ (2 : BitVec 2).toNat ≤ 1) ∧ ((sE 0 0).hart.qs[2]).length < 64 ∧ Ready (.qpop 3 1) [] (sE 0 0) ∧
    ((sE 0 0).who = .a ↔ 2 ≤ (1 : BitVec 2).toNat) ∧ Free [3] (sE 0 0) ∧ (sE 0 0).thr.fillRoom = true ∧
    (∀ i ∈ [Instr.spunb 15, .spdrain 15, .spstat 3 15], Ready i [] (sE 0 0)) := by
  refine ⟨nofun, ?_⟩; unfold Ready Free; decide +kernel
/-- A read spool of 8 bytes an element over 4 elements, alias v5, width 8. -/
def spoolDesc : List Word := [0x0E2C, 0x1000, 0x800000004, 1, 1, 1, 0, 0]
theorem test_meets_QueueAndSpoolResults_bind : Ready (.spbind 15 1) [1] (sD .e spoolDesc) ∧
    (∃ s', DescAt (sD .e spoolDesc) ((sD .e spoolDesc).thr.reg 1) 64 spoolDesc s' ∧
      spoolBad (s'.hart.setSpool 15 {}) 15 spoolDesc = false) ∧ privFields spoolDesc = false :=
  ⟨by unfold Ready; decide +kernel, ⟨_, ⟨by decide +kernel, _, rfl, rfl, by decide +kernel⟩, by decide +kernel⟩, by decide +kernel⟩

/-- COPY of 16 bytes; PUT of 16 bytes to node 5 by port 0. -/
def copyDesc : List Word := [0, 0x1000, 0x2000, 16, 0, 0, 0, 0]
def putDesc : List Word := [0x50, 0x1000, 0x2000, 16, 0, 0, 0, 0]
/-- A member of a group whose root is here. -/
def sG : State := { on .e (hart [0, 0x5_0000_0007, 0, 1, 2, 3] {}) with
  mgmt := { groups := [{ num := 7, members := [(0, ⟨0, 0, 0⟩), (9, ⟨1, 1, 1⟩)], root := 0 }] } }
theorem test_meets_EngineCommandResults_copy : Ready (.bcopy 3 1) [1] (sD .e copyDesc) ∧ (∃ s', DescAt (sD .e copyDesc) pad 64 copyDesc s' ∧
      Free [3] s' ∧ s'.core.bobbin.length < 8) ∧ bobbinBad (sD .e copyDesc).hart.hartid copyDesc = false ∧ privFields copyDesc = false :=
  ⟨by unfold Ready; decide +kernel, ⟨_, ⟨by decide +kernel, _, rfl, rfl, by decide +kernel⟩, by unfold Free; decide +kernel,
    by decide +kernel⟩, by decide +kernel, by decide +kernel⟩
theorem test_meets_EngineCommandResults_put : Ready (.xcopy 3 1) [1] (sD .e putDesc) ∧ (∃ s', DescAt (sD .e putDesc) pad 64 putDesc s' ∧
      Free [3] s' ∧ s'.core.xcopy.length < 4) ∧ xcopyBad putDesc = false ∧ privFields putDesc = false :=
  ⟨by unfold Ready; decide +kernel, ⟨_, ⟨by decide +kernel, _, rfl, rfl, by decide +kernel⟩, by unfold Free; decide +kernel,
    by decide +kernel⟩, by decide +kernel, by decide +kernel⟩
theorem test_meets_EngineCommandResults : Ready (.pgmig 1 2) [1, 2] (sE 0x1000 1) ∧ canonical 0x1000 = true ∧
    (1 : Word).toNat % 4 ≤ 1 ∧ (sE 0x1000 1).thr.held false = false ∧ Ready (.pgmig 1 2) [1, 2] (sE 0x1000 0x8000_0003_0000_0000) ∧
    (sE 0x1000 0x8000_0003_0000_0000).thr.super = true ∧ Ready (.bwred 6 1 2) [1, 4, 5] sG ∧
    (∃ g, sG.group ((sG.thr.reg 1).toNat % 1024) = some g ∧ memberBit sG g sG.loc = 1) ∧ sG.thr.held true = false ∧
    Free [6, 7] sG ∧ sG.thr.fillRoom = true := by
  refine ⟨by unfold Ready; decide +kernel, by decide +kernel, by decide, by decide +kernel, by unfold Ready; decide +kernel,
    by decide +kernel, by unfold Ready; decide +kernel, ⟨_, rfl, by decide +kernel⟩, by decide +kernel,
    by unfold Free; decide +kernel, by decide +kernel⟩

/-- A 1 by 1 by 1 record of integers with pool registers v1 and v0. -/
def tileRecord : List Word := 0x1_0000_0000 :: List.replicate 15 0
/-- A hart whose cluster runs its task: one window committed, none released. -/
def sK (st : TileState) : State :=
  (on .e (hart [0, 64] {})).setSlot 0 0 0 (fun _ =>
    { state := st, gen := 1, record := tileRecord, parts := [{ core := 0, hart := 0, committed := 1 }] })
theorem test_meets_TileInstructionResults : (∀ k, (sD .e tileRecord).who ≠ .mt k) ∧ Ready (.tenq 3 1) [1] (sD .e tileRecord) ∧
    Free [3] (sD .e tileRecord) ∧ (∃ s', DescAt (sD .e tileRecord) pad 128 tileRecord s' ∧ tValid s' tileRecord = true ∧
      s'.loc = (sD .e tileRecord).loc ∧ (s'.slot 0 0 0).state = .free) ∧ privFields tileRecord = false ∧
    (∀ i ∈ [Instr.twin 3 1, .trel 1, .tcancel 1], Ready i [1] (sK .running)) ∧
    (∃ k p, (sK .running).taskOf 64 = some (0, k) ∧ k.placed = true ∧ k.partOf 0 = some (0, p) ∧ p.released < p.committed ∧
      k.state = .running) ∧ (sK .running).taskOf 65 = none :=
  ⟨nofun, by unfold Ready; decide +kernel, by unfold Free; decide +kernel, ⟨_, ⟨by decide +kernel, _, rfl, rfl, by decide +kernel⟩,
    by decide +kernel, rfl, by decide +kernel⟩, by decide +kernel, by unfold Ready; decide +kernel,
    ⟨_, _, rfl, by decide +kernel, rfl, by decide +kernel, by decide +kernel⟩, rfl⟩
theorem test_meets_TileInstructionResults_full : ∀ s : State,
    s = { sD .e tileRecord with dies := Vector.replicate 8 { clusters := Vector.replicate 66 { slots := Vector.replicate 64 { state := .waiting } } } } → ∀ n, n < 64 → (s.slot 0 0 n).state ≠ .free := by
  rintro s rfl; decide +kernel

/-! ## The hypotheses of the statements are met: vector instructions -/

/-- The operands can be read and any elements can be written. -/
def CanRun (s : State) (va vb : Option (BitVec 5)) (acc : Bool) (act : List Nat) : Prop :=
  ∃ s' i, Reads s va vb (some 3) acc act s' i ∧ i.act = act ∧ ∀ va vb vd wd res fl, ∃ t, Put s' i va vb vd wd res fl t

theorem canRun_plain {s : State} {va vb : Option (BitVec 5)} {acc : Bool} {act : List Nat}
    (h : (s.plainField va && s.plainField vb && s.plainField (some 3) &&
      s.quietLanes) = true) : CanRun s va vb acc act := by
  simp only [Bool.and_eq_true] at h
  obtain ⟨⟨⟨h1, h2⟩, h3⟩, h4⟩ := h
  exact ⟨_, _, fun _ _ _ => vreadAll_plain h1 h2 h3 h4, rfl, fun _ _ _ _ _ _ => ⟨_, rfl⟩⟩
/-- The operands of an instruction without a vector destination can be read. -/
theorem reads_plain {s : State} {va vb : Option (BitVec 5)} {act : List Nat}
    (h : (s.plainField va && s.plainField vb && s.quietLanes) = true) :
    ∃ s' i, Reads s va vb none false act s' i ∧ i.act = act := by
  simp only [Bool.and_eq_true] at h
  exact ⟨_, _, fun _ _ _ => vreadAll_plain h.1.1 h.1.2 rfl h.2, rfl⟩

/-- Two elements of two vector registers; g1 = 5 and g2 = 1. -/
def sX (fmt : BitVec 12) : State :=
  on .e (hart [0, 5, 1] (lanes 2 (ewOf 4 4 8 true true true) fmt (column 4 [1, 15]) (column 4 [3, 8]) (column 8 [7, 7])))

theorem test_meets_VectorIntegerResults : (∀ row ∈ vintTable, Ready (row.op 3 1 2 0) [] (sX 0)) ∧
    (∀ i ∈ [Instr.vssa 3 1 2 0, .vshl 3 1 2 0, .vshr 3 1 2 0, .vsel 3 1 2 0], Ready i [] (sX 0)) ∧
    CanRun (sX 0) (some 1) (some 2) false (actives (sX 0) 0) ∧ CanRun (sX 0) (some 1) (some 2) true (actives (sX 0) 0) ∧
    CanRun (sX 0) (some 1) (some 2) false (topJs (sX 0).hart (sX 0).est 0) ∧ actives (sX 0) 0 = [0, 1] :=
  ⟨by unfold Ready; decide +kernel, by unfold Ready; decide +kernel, canRun_plain (by decide +kernel),
    canRun_plain (by decide +kernel), canRun_plain (by decide +kernel), by decide +kernel⟩

theorem test_meets_VectorScalarResults : (∀ row ∈ vintsTable, Ready (row.op 3 1 2 0) [2] (sX 0)) ∧
    (∀ i ∈ [Instr.vshls 3 1 2 0, .vshrs 3 1 2 0, .vbcast 3 2 0, .vrand 3 1 2 0, .vslup 3 1 2 0, .vsldn 3 1 2 0], Ready i [2] (sX 0)) ∧
    CanRun (sX 0) (some 1) none false (actives (sX 0) 0) ∧ CanRun (sX 0) (some 1) none true (actives (sX 0) 0) ∧
    CanRun (sX 0) none none false (actives (sX 0) 0) :=
  ⟨by unfold Ready; decide +kernel, by unfold Ready; decide +kernel, canRun_plain (by decide +kernel),
    canRun_plain (by decide +kernel), canRun_plain (by decide +kernel)⟩

theorem test_meets_VectorUnaryResults : (∀ i ∈ [Instr.vmov 3 1 0, .vnot 3 1 0, .vneg 3 1 0, .vabs 3 1 0, .vcvt 3 1 0, .vsatc 3 1 0,
      .vhad 3 1 7 0, .vidx 3 0xFF 2, .vperm 3 1 2 0], Ready i [] (sX 0)) ∧
    CanRun (sX 0) none none false (topJs (sX 0).hart (sX 0).est 0) :=
  ⟨by unfold Ready; decide +kernel, canRun_plain (by decide +kernel)⟩

theorem test_meets_VectorFloatResults : (∀ i ∈ [Instr.fadd 3 1 2 0, .fsub 3 1 2 0, .fmul 3 1 2 0, .fma 3 1 2 0, .fmin 3 1 2 0,
      .fmax 3 1 2 0, .fscl 3 1 2 0, .fabs 3 1 0, .fneg 3 1 0, .fcvt 3 1 0, .fcvtf 3 1 0, .fcvti 3 1 0, .fexp2 3 1 0, .frcp 3 1 0,
      .mxscl 3 1 0, .vqnt 3 1 0], Ready i [] (sX 0x111)) ∧
    CanRun (sX 0x111) (some 1) (some 2) false (actives (sX 0x111) 0) ∧ CanRun (sX 0x111) (some 1) (some 2) true (actives (sX 0x111) 0) ∧
    CanRun (sX 0x111) (some 1) none false (actives (sX 0x111) 0) :=
  ⟨by unfold Ready; decide +kernel, canRun_plain (by decide +kernel),
    canRun_plain (by decide +kernel), canRun_plain (by decide +kernel)⟩

theorem test_meets_ExactFloatArithmetic : (3 : Nat) ≠ 0 ∧ (-1 : Int) ≤ -1 ∧ (-1 : Int) ≤ 0 ∧
    numAdd (.fin false 3 (-1)) (.fin true 1 0) = (.fin false 1 (-1), 0) := by decide +kernel

theorem test_meets_FloatConversionTruncates : ∃ f, ffmt 1 = some f ∧
    magLe 3 (-1) (2 ^ f.mb + f.largest.2) (f.largest.1 - f.bias - f.mb) ∧ decide (f.flush = true) = true := by
  refine ⟨_, rfl, ?_, ?_⟩ <;> decide +kernel
theorem test_meets_FloatConversionTruncates_flush : ∃ f, ffmt 2 = some f ∧ f.flush = true ∧ magLe 1 (1 - f.bias) 3 (-1) := by
  refine ⟨_, rfl, ?_, ?_⟩ <;> decide +kernel

theorem test_meets_MxBlockResults : (∀ i ∈ [Instr.mxqnt 3 1 0, .mxbdot 3 1 2 0, .emov 15 0], Ready i [] (sX 0x111)) ∧
    (5 : Nat) / 32 < ((sX 0x111).hart.scales[15]).length := by
  unfold Ready; decide +kernel

theorem test_meets_CompareAndPredicateResults : (∀ row ∈ cmpTable, Ready (row.1 63 1 2 0) [] (sX 0)) ∧
    (∀ row ∈ cmpsTable, Ready (row.1 63 1 2 0) [2] (sX 0)) ∧ (∀ row ∈ fcmpTable, Ready (row.1 63 1 2 0) [] (sX 0x111)) ∧
    (∃ s' i, Reads (sX 0) (some 1) (some 2) none false (actives (sX 0) 0) s' i ∧ i.act = actives (sX 0) 0) ∧
    (∃ s' i, Reads (sX 0) (some 1) none none false (actives (sX 0) 0) s' i ∧ i.act = actives (sX 0) 0) ∧
    (∃ s' i, Reads (sX 0x111) (some 1) (some 2) none false (actives (sX 0x111) 0) s' i ∧ i.act = actives (sX 0x111) 0) :=
  ⟨by unfold Ready; decide +kernel, by unfold Ready; decide +kernel, by unfold Ready; decide +kernel,
    reads_plain (by decide +kernel), reads_plain (by decide +kernel), reads_plain (by decide +kernel)⟩
/-- p1 names element 1, p2 element 0. -/
def sP : State := { sX 0 with core := { (sX 0).core with hart :=
  { (sX 0).hart with preds := ((Vector.replicate 64 0).set 1 2).set 2 1 } } }
theorem test_meets_CompareAndPredicateResults_masks : (∀ i ∈ [Instr.pand 63 1 2, .por 63 1 2, .pxor 63 1 2, .pandn 63 1 2, .pnot 63 1,
      .pmov 63 1, .pall 63, .pclr 63, .seamrd 63, .mtop 63, .seamwr 1, .pcnt 3 1, .pffs 3 1, .pfilt 63 1 2], Ready i [] sP) ∧
    Free [3] sP ∧ sP.thr.fillRoom = true ∧ (∃ j ∈ topList sP, pred sP 1 j = true ∧ pred sP 0 j = true) ∧
    (∀ j ∈ topList sP, ¬(pred sP 1 j = true ∧ pred sP 2 j = true)) ∧ (∀ j ∈ topList sP, pred sP 3 j = false) := by
  unfold Ready Free; decide +kernel

/-- The mask stack at a depth. -/
def sMask (n : Nat) : State := on .e (hart [] { msdepth := n })
theorem test_meets_MaskStackResults : Ready (.mpush 1) [] (sMask 23) ∧ (sMask 23).est.msdepth < 24 ∧ Ready .minv [] (sMask 24) ∧
    (sMask 24).est.msdepth ≠ 0 ∧ (sMask 24).est.msdepth ≤ 24 ∧ Ready .mpop [] (sMask 1) ∧ (sMask 1).est.msdepth ≠ 0 ∧
    Ready (.mpush 1) [] (sMask 24) ∧ (sMask 24).est.msdepth = 24 ∧ Ready .minv [] (sMask 0) ∧ Ready .mpop [] (sMask 0) ∧
    (sMask 0).est.msdepth = 0 := by
  unfold Ready; decide +kernel

/-- A hart whose spool 0 reads as v5 and holds two elements, and whose spool 1 writes as v6. -/
def sSpool : State := on .e { hart [0, 5, 1] (lanes 2 (ewOf 4 4 8 true true true) 0 (column 4 [1, 15]) {} {}) with
  spools := ((Vector.replicate 16 {}).set 0 { bound := true, desc := spoolDesc, buf := [.data 200, .data 3, .data 4] }).set 1
    { bound := true, desc := [0x0E35, 0x100, 0x800000004, 1, 1, 1, 0, 0] } }
theorem test_meets_VectorOperandReads : Source sSpool none {} ∧
    Source sSpool (some 1) { planes := (sSpool.est.vreg 1).planes } ∧ (∃ v, Source sSpool (some 5) v ∧ v.spool = some 0) ∧
    Dest sSpool 3 none ∧ Dest sSpool 6 (some 1) ∧ CleanLanes sSpool ∧
    checkWrites sSpool sSpool.loc 1 0 [] = .ok sSpool := by
  refine ⟨rfl, .inl ⟨by decide +kernel, rfl⟩, ⟨_, .inr ⟨0, [200, 3], by decide +kernel, by decide +kernel, by decide +kernel,
    by decide +kernel, rfl⟩, rfl⟩, ⟨by decide +kernel, nofun⟩, ⟨by decide +kernel, ?_⟩, ⟨rfl, rfl, rfl, rfl⟩, rfl⟩
  rintro _ ⟨⟩; decide +kernel
theorem test_meets_VectorOperandReads_values : (1 : Nat) < [5, 255].length ∧ 16382 + [5, 255].length ≤ 16384 ∧
    (∀ e ∈ [5, 255], e < 2 ^ 8) ∧ 0 < 8 ∧ 255 < 2 ^ 8 := by decide

theorem test_meets_MaskedWriteRules : (sX 0).est.pfx.pend = false ∧ (([(0, 255), (16383, 0)] : List (Nat × Nat)).map (·.1)).Nodup ∧
    (∀ e ∈ ([(0, 255), (16383, 0)] : List (Nat × Nat)), e.1 < primaryLanes (sX 0) ∧ e.2 < 2 ^ 8) ∧
    (∀ k ∈ [0, 16383], k < (if (sX 0).hart.ds then 8192 else 16384)) ∧ (∀ k ∈ [16383], k ∈ [0, 16383]) := by decide +kernel

/-- As `sX`, with a prefix that lends p1, frees v1 and copies to v4. -/
def sPfx : State := { sX 0 with core := { (sX 0).core with hart := { (sX 0).hart with
  ex := { (sX 0).hart.ex with pfx := { pend := true, pm := 1, inv := true, vc := 4, ce := true, pe := true, lua := true } } } } }
theorem test_meets_PrefixEffects : sPfx.est.pfx.pend = true ∧ sPfx.est.pfx.lua = true ∧ (1 : BitVec 5) ≠ 3 ∧ (1 : BitVec 5) ≠ sPfx.est.pfx.vc ∧
    sPfx.est.pfx.ce = true ∧ sPfx.est.pfx.vc ≠ 3 ∧ ([(0, 255), (1, 0)] : List (Nat × Nat)).map (·.1) = actives sPfx 0 ∧
    (actives sPfx 0).Nodup ∧ ∀ e ∈ ([(0, 255), (1, 0)] : List (Nat × Nat)), e.1 < primaryLanes sPfx ∧ e.2 < 2 ^ 8 := by
  decide +kernel

/-- Vector memory: g1 = 0x100 in a mapped page, g2 = 3. -/
def sVm (fmt : BitVec 12) : State := (sM .e 0x100 3 0).setHart (hart [0, 0x100, 3]
  (lanes 2 (ewOf 4 4 8 false false false) fmt (column 4 [1, 15]) (column 4 [3, 8]) (column 8 [7, 9])))
/-- A vector memory instruction reached its last element. -/
def MemEnd.isAll : MemEnd → Bool
  | .all _ _ => true
  | _ => false
theorem all_of {m : MemEnd} (h : MemEnd.isAll m = true) : ∃ s vals, m = .all s vals := by
  cases m <;> simp_all [MemEnd.isAll]
/-- The elements at which a vector memory instruction starts. -/
def live (s : State) : List Nat := (actives s 0).filter (fun j => decide (s.est.vstart.toNat ≤ j))
theorem memReads_plain {w : BitVec 32} {s : State} {va vb vd : Option (BitVec 5)} (h : (!s.held false && s.plainField va && s.plainField vb &&
    s.plainField vd && s.quietLanes) = true) (hc : s.thr.cut = none) : ∃ i, MemReads w s 0 va vb vd (actives s 0) s i
      s.est.vstart.toNat (live s) ∧ i.dst = none ∧ i.base = laneBase s.hart s.who ∧ i.b = plainSrc s vb := by
  simp only [Bool.and_eq_true, Bool.not_eq_true'] at h
  obtain ⟨⟨⟨⟨h1, h2⟩, h3⟩, h4⟩, h5⟩ := h
  exact ⟨_, fun k => memStart_plain h1 hc h2 h3 h4 h5, rfl, rfl, rfl⟩

theorem test_meets_VectorLoadResults : (∀ row ∈ vloadTable 3 1 2 0, Ready row.1 row.2.1 (sVm 0)) ∧ live (sVm 0) = [0, 1] ∧
    (∀ w vb, vb = none ∨ vb = some 2 → ∃ i, MemReads w (sVm 0) 0 none vb (some 3) (actives (sVm 0) 0) (sVm 0) i
      (sVm 0).est.vstart.toNat (live (sVm 0)) ∧ i.dst = none ∧ i.base = laneBase (sVm 0).hart (sVm 0).who ∧ i.b = plainSrc (sVm 0) vb) ∧
    ∀ row ∈ vloadTable 3 1 2 0, ∃ s2 vals, memLoop (readOne (row.2.2.2 (sVm 0) { b := plainSrc (sVm 0) row.2.2.1 })
      (memClass (sVm 0).est row.2.2.1) (ebOf (sVm 0).est.wd) (sVm 0).est.wd) (live (sVm 0)) (sVm 0) [] = .all s2 vals := by
  refine ⟨by unfold Ready; decide +kernel, by decide +kernel, ?_, ?_⟩
  · rintro w vb (rfl | rfl) <;> exact memReads_plain (s := sVm 0) (by decide +kernel) rfl
  · exact List.forall_mem_cons.2 ⟨all_of (by decide +kernel), List.forall_mem_cons.2 ⟨all_of (by decide +kernel),
      List.forall_mem_cons.2 ⟨all_of (by decide +kernel), List.forall_mem_nil _⟩⟩⟩
theorem test_meets_VectorLoadResults_one : ∃ p s', resolveThr (sVm 0) .read 0x100 1 = .ok p s' ∧ s'.poisonedAt p 1 = false :=
  ⟨_, _, rfl, rfl⟩

theorem test_meets_VectorStoreResults : (∀ row ∈ vstoreTable 3 1 2 0, Ready row.1 row.2.1 (sVm 0)) ∧
    (∀ w vb, vb = none ∨ vb = some 2 → ∃ i, MemReads w (sVm 0) 0 (some 3) vb none (actives (sVm 0) 0) (sVm 0) i
      (sVm 0).est.vstart.toNat (live (sVm 0)) ∧ i.dst = none ∧ i.base = laneBase (sVm 0).hart (sVm 0).who ∧ i.b = plainSrc (sVm 0) vb) ∧
    (∀ row ∈ vstoreTable 3 1 2 0, ∃ s2 vals, memLoop (checkOne (row.2.2.2 (sVm 0) { b := plainSrc (sVm 0) row.2.2.1 })
      (ebOf (sVm 0).est.wd)) (live (sVm 0)) (sVm 0) [] = .all s2 vals) ∧
    ∃ p s', resolveThr (sVm 0) .write 0xFFFF ([5] : List Byte).length = .ok p s' := by
  refine ⟨by unfold Ready; decide +kernel, ?_, ?_, ⟨_, _, rfl⟩⟩
  · rintro w vb (rfl | rfl) <;> exact memReads_plain (s := sVm 0) (by decide +kernel) rfl
  · exact List.forall_mem_cons.2 ⟨all_of (by decide +kernel), List.forall_mem_cons.2 ⟨all_of (by decide +kernel),
      List.forall_mem_cons.2 ⟨all_of (by decide +kernel), List.forall_mem_nil _⟩⟩⟩

/-- Slice rows 248 to 255. -/
def sSlice : State := { sX 0 with core := { (sX 0).core with hart := { (sX 0).hart with
  e := thread [0, 248, 5], ex := { (sX 0).hart.ex with vl := 2 } } } }
theorem test_meets_SliceAndPredicateMemoryResults : Ready (.vldl 3 1 0) [1] sSlice ∧ Ready (.vstl 3 1 0) [1] sSlice ∧
    (sSlice.thr.reg 1).toNat + sSlice.est.wd ≤ 256 ∧ sliceHeld sSlice 248 8 = false ∧
    (∃ s' i, Reads sSlice none none (some 3) false (actives sSlice 0) s' i ∧
      ∀ wd res, ∃ t, Put s' i none none 3 wd res 0 t) ∧
    (∃ s' i, Reads sSlice (some 3) none none false (actives sSlice 0) s' i ∧ i.act = actives sSlice 0) := by
  refine ⟨by unfold Ready; decide +kernel, by unfold Ready; decide +kernel, by decide +kernel, by decide +kernel, ?_,
    reads_plain (by decide +kernel)⟩
  exact ⟨_, _, fun _ _ _ => vreadAll_plain (by decide +kernel) (by decide +kernel) (by decide +kernel) (by decide +kernel),
    fun _ _ => ⟨_, rfl⟩⟩
/-- A predicate's bytes that straddle two 16-byte parts. -/
def sPart : State := (sM .e 0x10F 0 0).setHart (hart [0, 0x10F] { vl := 9 })
theorem test_meets_SliceAndPredicateMemoryResults_parts : Ready (.pld 1 63) [1] sPart ∧ Ready (.pst 1 0) [1] sPart ∧
    sPart.held false = false ∧ CleanLanes sPart ∧ (predParts 0x10F 0 2).length = 2 ∧
    (∃ t, parts .read 0x10F (loadPart 0 63) (predParts 0x10F 0 2) sPart = some t) ∧
    ∃ t, parts .write 0x10F (storePart 0 0) (predParts 0x10F 0 2) sPart = some t :=
  ⟨by unfold Ready; decide +kernel, by unfold Ready; decide +kernel, by decide +kernel, ⟨rfl, rfl, rfl, rfl⟩, by decide +kernel,
    Option.isSome_iff_exists.mp (by decide +kernel), Option.isSome_iff_exists.mp (by decide +kernel)⟩

theorem test_meets_MxAndVersionedVectorResults : Ready (.mxld 3 1 15 0) [1] (sVm 0x888) ∧ Ready (.mxst 3 1 15 0) [1] (sVm 0x888) ∧
    (mxEmax (sVm 0x888).est.fd).isSome = true ∧ ((sVm 0x888).thr.reg 1).toNat % 16 = 0 ∧
    (∀ w, ∃ i, MemReads w (sVm 0x888) 0 none none (some 3) (actives (sVm 0x888) 0) (sVm 0x888) i 0 (live (sVm 0x888)) ∧ i.dst = none ∧
      i.base = 0 ∧ i.b = plainSrc (sVm 0x888) none) ∧
    (∀ w, ∃ i, MemReads w (sVm 0x888) 0 (some 3) none none (actives (sVm 0x888) 0) (sVm 0x888) i 0 (live (sVm 0x888)) ∧ i.dst = none ∧
      i.base = 0 ∧ i.b = plainSrc (sVm 0x888) none) ∧
    (∃ s2 vals, mxLoad 15 0x100 4 0 (blocksOf (live (sVm 0x888))) (sVm 0x888) [] = .all s2 vals) ∧
    ∃ s2 vals, mxStore 15 0x100 4 { a := plainSrc (sVm 0x888) (some 3) } false (blocksOf (live (sVm 0x888))) (sVm 0x888) []
      = .all s2 vals :=
  ⟨by unfold Ready; decide +kernel, by unfold Ready; decide +kernel, by decide +kernel, by decide +kernel,
    fun _ => memReads_plain (s := sVm 0x888) (by decide +kernel) rfl, fun _ => memReads_plain (s := sVm 0x888) (by decide +kernel) rfl,
    all_of (by decide +kernel), all_of (by decide +kernel)⟩
/-- Two versioned words and the two elements of v3. -/
def sVv (v : Word) : State := { sR 0x10000 v with
  regions := [{ region0 with words := [{ addr := 0x10000, live := [(2, 77)] }, { addr := 0x10008, live := [(2, 5)] }] }]
  core := { (sX 0).core with hart := { (sX 0).hart with e := thread [0, 0x10000, v] } } }
theorem test_meets_MxAndVersionedVectorResults_versions : Ready (.vvrld 3 1 2 0) [1, 2] (sVv 2) ∧ Ready (.vvrst 3 1 2 0) [1, 2] (sVv 3) ∧
    (sVv 3).held true = false ∧
    (∃ s2 vals, memLoop (versReadOne 0x10000 8 (versAsks (sVv 2) 0x10000 2 (live (sVv 2)))) (live (sVv 2)) (sVv 2) [] = .all s2 vals) ∧
    ∃ s2 vals, memLoop (versWriteOne 0x10000 3 (fun _ => 7) []) (live (sVv 3)) (sVv 3) []
      = .all s2 vals :=
  ⟨by unfold Ready; decide +kernel, by unfold Ready; decide +kernel, by decide +kernel, all_of (by decide +kernel),
    all_of (by decide +kernel)⟩

theorem test_meets_VectorLengthResults : Ready (.setvl 3 1) [1] (sX 0) ∧ Free [3] (sX 0) ∧ newVl (sX 0) ((sX 0).thr.reg 1) ≠ 0 ∧
    Ready (.setvlx 3 1 100) [1] (sX 0) ∧ newVl (sE 0 0) ((sE 0 0).thr.reg 1) = 0 ∧ Ready (.setvlx 3 1 100) [1] (sE 0 0) ∧
    Ready (.setvlf 3 1) [] (sX 0) ∧ Source (sX 0) (some 1) { planes := ((sX 0).est.vreg 1).planes } ∧
    CleanLanes (sX 0) ∧ laneBase (sX 0).hart (sX 0).who + vlmaxOf (sX 0).hart (sX 0).who ≤ primaryLanes (sX 0) ∧
    Ready (.vkill 1) [1] (sX 0) ∧ Ready (.setew 15 15 31 1 1 1) [] (sX 0) := by
  refine ⟨by unfold Ready; decide +kernel, by unfold Free; decide +kernel, by decide +kernel, by unfold Ready; decide +kernel,
    by decide +kernel, by unfold Ready; decide +kernel, by unfold Ready; decide +kernel, .inl ⟨by decide +kernel, rfl⟩,
    ⟨rfl, rfl, rfl, rfl⟩, by decide +kernel, by unfold Ready; decide +kernel, by unfold Ready; decide +kernel⟩

/-- Two micro-threads, the second in focus; the first has joined when `j`. -/
def sMt (j : Bool) : State :=
  let m : Micro := { thr := thread [1], ex := {} }
  on (.mt 1) { hart [] {} with
    split := 2, splitSave := some { thr := thread [], ex := {} }
    mts := ((Vector.replicate 16 {}).set 0 { m with thr := { m.thr with run := if j then .joined else .running } }).set 1 m }
theorem test_meets_MicroThreadResults : Ready (.split 16) [] (sE 0 0) ∧ (sE 0 0).who = .e ∧ (sE 0 0).thr.fills = [] ∧
    (sE 0 0).thr.posted = [] ∧ (sE 0 0).hart.dsPending = none ∧ Ready .join [] (sMt false) ∧ (sMt false).who = .mt 1 ∧
    (sMt false).thr.fills = [] ∧ (sMt false).thr.posted = [] ∧ (sMt false).thr.isFull 0 = true ∧
    ((sMt false).setThr { (sMt false).thr with run := .joined, wait := none }).hart.allJoined = false ∧
    ((sMt true).setThr { (sMt true).thr with run := .joined, wait := none }).hart.allJoined = true ∧
    Ready (.mtid 3) [] (sMt false) ∧ Free [3] (sMt false) ∧ Ready (.pfx 9 1 4 1 1 1 1) [] (sX 0) := by
  unfold Ready Free; decide +kernel

/-- A root, two children and a grandchild. -/
def tree4 : List PgNode := [⟨0, 0, 9, 0, 0x3FF⟩, ⟨0, 0, 14, 1, 0⟩, ⟨0, 0, 5, 1, 0⟩, ⟨0, 0, 22, 2, 1⟩]
/-- A hart with that tree; g1 = 3 names the grandchild. -/
def sPg : State := on .e { hart [0, 3, 5, 0xFFFF_FFFF_FFFF_FFFF]
  { (lanes 4 (ewOf 16 16 16 false false false) 0 {} (column 16 [9, 14, 5, 22]) {}) with tilerows := 2, tilecols := 2 } with
  trees := (Vector.replicate 4 []).set 0 tree4 }
theorem test_meets_PedigreeResults : Ordered tree4 ∧ (3 : Nat) < tree4.length ∧ (∀ k, sPg.who ≠ .mt k) ∧ Ready (.pgclr 0) [] sPg ∧
    Ready (.pgadd 4 1 2 0) [1, 2] sPg ∧ Free [4] sPg ∧ sPg.hart.liveNodes < 1024 ∧ sPg.thr.reg 1 ≠ BitVec.allOnes 64 ∧
    (sPg.thr.reg 1).toNat < (sPg.hart.tree 0).length ∧ depthAt (sPg.hart.tree 0) 3 ≠ 255 ∧
    Ready (.pgadd 4 3 2 1) [3, 2] sPg ∧ sPg.thr.reg 3 = BitVec.allOnes 64 ∧ sPg.hart.tree 1 = [] := by
  refine ⟨?_, by decide, nofun, ?_⟩
  · intro x v h
    rcases x with _ | _ | _ | _ | x <;> simp [tree4] at h <;> subst h <;> decide
  · unfold Ready Free; decide +kernel
theorem test_meets_PedigreeResults_vectors : Ready (.pgprune 4 1 3 0) [1] sPg ∧ CanRun sPg none none false (topList sPg) ∧
    Ready (.pganc 63 1 2 0) [1, 2] sPg ∧ (∀ i ∈ [Instr.pgpos 3 1 0, .pgpath 3 1 0, .pgcnt 3 1 2 0, .pgrd 4 1 4 0], Ready i [1] sPg) ∧
    CanRun sPg none none false (nodeElems sPg tree4) ∧ CanRun sPg none (some 2) false (nodeElems sPg tree4) ∧
    Ready (.pgpath 3 2 0) [2] sPg ∧ (sPg.hart.tree 0).length ≤ (sPg.thr.reg 2).toNat ∧ Ready (.pgsize 4 3) [] sPg ∧
    CanRun (sPg.setEst { sPg.est with vl := 3 }) none none false (topList (sPg.setEst { sPg.est with vl := 3 })) := by
  refine ⟨by unfold Ready; decide +kernel, canRun_plain (by decide +kernel), by unfold Ready; decide +kernel,
    by unfold Ready; decide +kernel, canRun_plain (by decide +kernel), canRun_plain (by decide +kernel),
    by unfold Ready; decide +kernel, by decide +kernel, by unfold Ready; decide +kernel, canRun_plain (by decide +kernel)⟩

theorem test_meets_ReductionResults : (∀ row ∈ redIntTable, Ready (row.1 3 1 2 0) [2] (sX 0x111)) ∧ (sX 0x111).est.fd ≤ 10 ∧
    (∀ i ∈ [Instr.fredsum 3 1 2 0, .fredmax 3 1 2 0], Ready i [2] (sX 0x111)) ∧ Free [3] (sX 0x111) ∧ (sX 0x111).thr.fillRoom = true ∧
    Fresh (sX 0x111) 1 { planes := ((sX 0x111).est.vreg 1).planes } ∧
    laneBase (sX 0x111).hart (sX 0x111).who + (sX 0x111).est.vl ≤ primaryLanes (sX 0x111) :=
  ⟨by unfold Ready; decide +kernel, by decide +kernel, by unfold Ready; decide +kernel, by unfold Free; decide +kernel,
    by decide +kernel, ⟨by decide +kernel, .inl ⟨by decide +kernel, rfl⟩, ⟨rfl, rfl, rfl, rfl⟩, rfl⟩, by decide +kernel⟩

theorem test_meets_ArgReductionResults : (∀ i ∈ [Instr.vargmax 30 1 2 0, .vargmin 30 1 2 0, .fargmax 30 1 2 0], Ready i [2] (sX 0x111)) ∧
    Free [30, 31] (sX 0x111) ∧ (sX 0x111).thr.fillRoom = true ∧ Fresh (sX 0x111) 1 { planes := ((sX 0x111).est.vreg 1).planes } :=
  ⟨by unfold Ready; decide +kernel, by unfold Free; decide +kernel, by decide +kernel, by decide +kernel, .inl ⟨by decide +kernel, rfl⟩,
    ⟨rfl, rfl, rfl, rfl⟩, rfl⟩

theorem test_meets_ScanAndPackResults : (∀ i ∈ [Instr.vscansum 3 1 0, .vscanmax 3 1 0, .vscanmin 3 1 0, .fscansum 3 1 0, .vcompress 3 1 0,
      .vexpand 3 1 0], Ready i [] (sX 0x111)) ∧ Fresh (sX 0x111) 1 { planes := ((sX 0x111).est.vreg 1).planes } ∧
    Dest (sX 0x111) 3 none ∧ ∀ cs, ∃ t, StripPositions none cs (sX 0x111) t ∧ CleanLanes t :=
  ⟨by unfold Ready; decide +kernel, ⟨by decide +kernel, .inl ⟨by decide +kernel, rfl⟩, ⟨rfl, rfl, rfl, rfl⟩, rfl⟩,
    ⟨by decide +kernel, nofun⟩, fun cs => ⟨sX 0x111, by cases cs <;> rfl, rfl, rfl, rfl, rfl⟩⟩

/-! ## The hypotheses of the statements are met: events of a core -/

/-- A hart whose E waits or has fills, at GTS 1000. -/
def sF (f : Thread → Thread) : State := { on .e { hart [0, pad, 5] {} with
  e := f (thread [0, pad, 5]), evq := [item], qs := (Vector.replicate 4 []).set 1 [5] } with gts := 1000 }
def c0 : CoreId := ⟨0, 0, 0⟩
/-- E waits in some way since GTS 0 with a bound of 1 microsecond. -/
def waiting (k : WaitKind) (n : Word) (t : Thread) : Thread :=
  { t with full := 0xFFFF_FFF7, wait := some { kind := k, num := n, since := 0, bound := 1 } }

theorem test_meets_FillAndWaitEventResults_fills : ∀ src ∈ [FillSrc.value [7], .queue 1, .event, .sync 11 1 5],
    let s := sF (fun t => { t with fills := [{ id := 0, dests := [3], src := src }] })
    s.asleep = false ∧ (s.getCore c0).resident = true ∧
    ((s.getCore c0).hart.thr .e).fills.find? (fun f => decide (f.id = 0)) = some { id := 0, dests := [3], src := src } ∧
    (s.getCore c0).hart.qs[1] = [5] ∧ leastRemovable s.gts (s.getCore c0).hart.evq = some item ∧ s.syncDone 1 = true ∧
    (∀ g ∈ (s.getCore c0).hart.allFills, g.isEvent = true → 0 ≤ g.id) := by decide +kernel
theorem test_meets_FillAndWaitEventResults_waits : ∀ k ∈ [WaitKind.reg, .event, .sync],
    let s := { sF (waiting k 3) with core := { (sF (waiting k 3)).core with hart := { (sF (waiting k 3)).core.hart with evq := [] } } }
    (s.getCore c0).canRun .e = true ∧ ((s.getCore c0).hart.thr .e).deferred = [] ∧ 0 + 1 * 1000 ≤ s.gts ∧
    stillWaits (s.getCore c0).hart .e s.gts { kind := k, num := 3, since := 0, bound := 1 } = true ∧
    k.number.isSome = true := by decide +kernel
theorem test_meets_FillAndWaitEventResults_versions : ∀ k ∈ [WaitKind.version, .room],
    let q : VersAsk := { ctx := 0, addr := 0x10000, ver := 3, val := none, bound := 1 }
    let s := sF (fun t => { t with wait := some { kind := k, num := 3, since := 0, bound := 1, asks := [q] } })
    (s.getCore c0).canRun .e = true ∧ ((s.getCore c0).hart.thr .e).deferred = [] ∧ q.ended = none ∧ 0 + q.bound * 1000 ≤ s.gts := by
  decide +kernel
theorem test_meets_FillAndWaitEventResults_tagged : ∀ op ∈ [TagOp.ldff, .stef 5],
    let r : TagReq := { id := 4, core := c0, who := .e, fill := 0, op := op, word := 0, ea := pad, since := 0, bound := 1 }
    let s := { on .e { hart [0, pad] {} with spadWait := [r] } with gts := 1000 }
    s.tagReqs.find? (fun r => decide (r.id = 4) && decide (r.core = c0)) = some r ∧ r.since + r.bound * 1000 ≤ s.gts ∧
    (s.getCore c0).canRun .e = true ∧
    (((s.withdrawTag 4).focus c0 .e).tryTrap .feTimeout pad (((s.withdrawTag 4).getCore c0).hart.thr .e).pc).isSome = true := by
  decide +kernel
theorem test_meets_FillAndWaitEventResults_delivery :
    let s := sF (fun t => { t with deferred := [(.deferXlate, 8)] })
    (s.getCore c0).canRun .e = true ∧ (s.focus c0 .e).thr.deferred = [(.deferXlate, 8)] ∧ (s.focus c0 .e).thr.wait = none ∧
    (((s.focus c0 .e).setThr { (s.focus c0 .e).thr with deferred := [] }).tryTrap .deferXlate 8 (s.focus c0 .e).thr.pc).isSome = true := by
  decide +kernel
theorem test_meets_FillAndWaitEventResults_deadline :
    let s := { on .e { hart [] {} with park := some { since := 0, force := 1000 } } with gts := 1000 }
    (s.getCore c0).hart.park = some { since := 0, force := 1000 } ∧ (s.getCore c0).canRun .e = true ∧
    (s.getCore c0).alive .e = true ∧ ((s.getCore c0).hart.thr .e).deferred = [] ∧ ((s.getCore c0).hart.thr .e).syncWait = none ∧
    ((s.getCore c0).hart.thr .e).wait = none := by decide +kernel

/-- A core that has something for every event of CoreEventResults; the reduction's address is mapped. -/
def sCore : State := { (sM .e 0x100 0 0).setHart { hart [0, 0x100] {} with
  dsPending := some true
  spools := (Vector.replicate 16 {}).set 0 { bound := true, desc := [0x0E2C, 0x1000, 0x800000004, 1, 1, 1, 0, 0] }
  e := { thread [0, 0x100] with posted := [{ op4 := 10, va := 0x108, operand := 1, user := false }] } } with
    regions := [region0], syncMsgs := (Vector.replicate 8 []).set 7 [{ reg := 3, upd := 1, val := 5 }] }
theorem test_meets_CoreEventResults : sCore.asleep = false ∧ (sCore.getCore c0).hart.dsPending = some true ∧
    (sCore.getCore c0).hart.split = 0 ∧ sCore.core.resident = true ∧ ((sCore.getCore c0).hart.spool 0).bound = true ∧
    ((sCore.getCore c0).hart.spool 0).isWrite = false ∧ ((sCore.getCore c0).hart.spool 0).held = false ∧
    ((sCore.getCore c0).hart.spool 0).buf.length < 32768 ∧ (∃ e s', readElem sCore c0 ((sCore.getCore c0).hart.spool 0)
      (((sCore.getCore c0).hart.spool 0).pos + ((sCore.getCore c0).hart.spool 0).buf.length) = .ok e s') ∧
    ((sCore.getCore c0).hart.thr .e).posted = [{ op4 := 10, va := 0x108, operand := 1, user := false }] ∧
    (∃ p s2, resolve (walkEnded sCore c0 .e) c0 false .rmw 0x108 8 = .ok p s2 ∧ s2.poisonedAt p 8 = false) ∧
    (∃ x ∈ redEffect, x.1 = 10) ∧ sCore.regions[0]? = some region0 ∧ sCore.syncMsgs.toList.getD 7 [] ≠ [] :=
  ⟨by decide +kernel, rfl, rfl, rfl, by decide +kernel, by decide +kernel, by decide +kernel, by decide +kernel, ⟨_, _, rfl⟩, rfl,
    ⟨_, _, rfl, by decide +kernel⟩, by decide +kernel, rfl, by decide +kernel⟩
theorem test_meets_CoreEventResults_fails :
    let s := on .e { hart [] {} with e := { thread [] with posted := [{ op4 := 12, va := 0x108, operand := 1, user := false }] } }
    (∃ s2, resolve (walkEnded s c0 .e) c0 false .rmw 0x108 8 = .fail .xlate s2) ∧ ((walkEnded s c0 .e).getCore c0).resident = true ∧
    (((walkEnded s c0 .e).getCore c0).hart.thr .e).run ≠ .halted := ⟨⟨_, rfl⟩, rfl, by decide +kernel⟩

/-- A team of one hart on core 0 of cluster 0 with a task in a state. -/
def sTile (st : TileState) (k : Nat) (ts : TeamState) (rec : List Word) : State :=
  { (on .e (hart [0, 64] {})).setSlot 0 0 63 (fun _ => { state := st, gen := 1, record := rec, team := 9, kdone := k
                                                         parts := if st = .ready then [] else [{ core := 0, hart := 0 }] }) with
    teams := [(9, { launch := 0, ctx := 0, teamid := 0, prio := 0, q := 0, die := 0, cluster := 0, cores := [0], state := ts })]
    regions := [region0]
    core := { resident := true, hart := { hart [0, 64] {} with team := 9 }
              tlb := [] }
    ctxs := [{ num := 0, desc := [0x200000] }]
    mem := memWrite (memWrite [] 0x200000 (bytesOf 8 0x300001)) 0x300000 (bytesOf 8 0xDF) }
/-- A record that waits for version `v` of the word at 0x10000. -/
def waitRecord (v : Nat) : List Word :=
  0x1_0000_0000 :: (List.replicate 7 0 ++ [0x10000, word (2 ^ 63 + v)] ++ List.replicate 6 0)
theorem test_meets_TileEventResults : (sTile .waiting 0 .running tileRecord).asleep = false ∧
    ((sTile .waiting 0 .running tileRecord).slot 0 0 63).state = .waiting ∧
    (sTile .waiting 0 .running tileRecord).preState 0 (tVers tileRecord 8) = some true ∧
    (sTile .waiting 0 .running tileRecord).preState 0 (tVers tileRecord 10) = some true ∧
    (sTile .waiting 0 .running (waitRecord 0)).preState 0 (tVers (waitRecord 0) 8) = some false ∧
    (sTile .waiting 0 .running (waitRecord 2)).preState 0 (tVers (waitRecord 2) 8) = some true := by decide +kernel
theorem test_meets_TileEventResults_place : ∃ tm, ((sTile .ready 0 .running tileRecord).slot 0 0 63).state = .ready ∧
    assocFind (sTile .ready 0 .running tileRecord).teams ((sTile .ready 0 .running tileRecord).slot 0 0 63).team = some tm ∧
    tm.state = .running ∧ ((sTile .ready 0 .running tileRecord).idleHarts 0 0 tm).take (tParts tileRecord) = [0] ∧
    tParts tileRecord = 1 ∧ (sTile .ready 0 .running tileRecord).shunned 0 0 = false :=
  ⟨_, by decide +kernel, rfl, rfl, by decide +kernel, by decide +kernel, by decide +kernel⟩
/-- What a read of a tile's parts came to. -/
def TileRead.kind : TileRead → Nat
  | .ok _ _ => 0
  | .fail _ _ _ => 1
  | .stall => 2
  | .full => 3
theorem tileRead_of {x : TileRead} : (TileRead.kind x = 0 → ∃ s t, x = .ok s t) ∧ (TileRead.kind x = 1 → ∃ s st a, x = .fail s st a) := by
  cases x <;> simp [TileRead.kind]
theorem test_meets_TileEventResults_step : let s := sTile .running 0 .running tileRecord
    let t := s.slot 0 0 63
    t.state = .running ∧ t.windowDone = false ∧
    (∃ s1 t1, fetchParts 0 0 63 true (t.needs 0) s t = .ok s1 t1) ∧
    ((sTile .running 1 .running tileRecord).slot 0 0 63).windowDone = true ∧
    ((sTile .hold 1 .running tileRecord).slot 0 0 63).state = .hold ∧ ((sTile .drain 1 .running tileRecord).slot 0 0 63).state = .drain ∧
    ∃ s1 st a, fetchParts 0 0 63 true (t.windowNeeds t.window t.kdone 2) { s with ctxs := [] } t = .fail s1 st a :=
  ⟨by decide +kernel, by decide +kernel, tileRead_of.1 (by decide +kernel), by decide +kernel, by decide +kernel, by decide +kernel,
    tileRead_of.2 (by decide +kernel)⟩
/-- A core whose lanes have nothing to report, and one where a check will fail three times. -/
theorem test_meets_TileEventResults_checks : let s := sTile .running 0 .running tileRecord
    (s.checkParts 0 0 [{ core := 0, hart := 0 }]).2 = true ∧
    ({ s with core := { s.core with laneErrs := [(5, 3)] } }.checkParts 0 0 [{ core := 0, hart := 0 }]).2 = false := by
  decide +kernel
theorem test_meets_TileEventResults_park : ∃ tm, ((sTile .hold 0 .parking tileRecord).slot 0 0 63).placed = true ∧
    assocFind (sTile .hold 0 .parking tileRecord).teams 9 = some tm ∧ tm.state = .parking :=
  ⟨_, by decide +kernel, rfl, rfl⟩

/-- A core with a Bobbin command: COPY, TOSLICE, ... by `op`, of one byte or element; g1's page is mapped. -/
def sBob (op : Nat) (d : Word) (started ended : Bool) (evs : Nat) : State :=
  let s := (sM .e 0x100 0 0).setHart { hart [] {} with evq := List.replicate evs item }
  { s with core := { s.core with
      bobbin := [{ ticket := 1, desc := [word op, 0x100, d, 1, 0x300, 0, 0, 0], super := true, who := .e, started := started, ended := ended }] } }
/-- The one command of such a core. -/
def kBob (op : Nat) (d : Word) (started : Bool) : EngCmd :=
  { ticket := 1, desc := [word op, 0x100, d, 1, 0x300, 0, 0, 0], super := true, who := .e, started := started }
theorem test_meets_EngineEventResults_bobbin : ∀ row ∈ bobTable, ∀ st ∈ [false, true],
    (sBob row.op 0x200 st false 0).bobCmd c0 1 row.op = some (kBob row.op 0x200 st) ∧
    mayStart ((sBob row.op 0x200 st false 0).getCore c0).bobbin (kBob row.op 0x200 st) = true ∧
    ∀ x ∈ row.aligns (kBob row.op 0x200 st).desc, x.1.toNat % x.2 = 0 := by
  simp only [bobTable, List.forall_mem_cons]
  refine ⟨?_, ?_, ?_, ?_, ?_, ?_, List.forall_mem_nil _⟩ <;> decide +kernel
theorem test_meets_EngineEventResults_misaligned : ([(bSaddr (kBob 3 0x201 false).desc, ebOf (bWidth (kBob 3 0x201 false).desc)),
    (bDaddr (kBob 3 0x201 false).desc, 8)] : List (Word × Nat)).find? (fun x => x.1.toNat % x.2 != 0) = some (0x201, 8) ∧
    (sBob 3 0x201 false false 0).bobCmd c0 1 3 = some (kBob 3 0x201 false) := by decide +kernel
theorem test_meets_EngineEventResults_done : ∀ evs ∈ [255, 256], (sBob 0 0x200 true true evs).asleep = false ∧
    findCmd ((sBob 0 0x200 true true evs).getCore c0).bobbin 1 (·.ended) = some { kBob 0 0x200 true with ended := true } ∧
    (sBob 0 0x200 true true evs).queueRoom c0 { kBob 0 0x200 true with ended := true } = decide (evs = 255) := by decide +kernel

/-- A link command of 16 bytes: PUT or GET, of which `n` bytes are done. -/
def kLink (op : Nat) (started ended : Bool) (n : Nat) (posted : Option Nat) : EngCmd :=
  { ticket := 1, desc := [word (0x50 + op), 0x100, 0x200, 16, 0, 0, 0, 0], super := true, who := .e, started := started, ended := ended
    done := n, port := if started then some 0 else none, downSince := if started then some 0 else none, postedAt := posted }
def sLink (k : EngCmd) (w : Width) : State :=
  { sM .e 0x100 0 0 with
    core := { (sM .e 0x100 0 0).core with xcopy := [k] }, links := (Vector.replicate 5 {}).set 0 { width := w }, gts := 100000000 }
/-- An access of an engine succeeded. -/
def BobRes.kind : BobRes → Nat
  | .ok _ => 0
  | .bad _ _ _ => 1
  | .stall => 2
theorem bobRes_of {x : BobRes} : (BobRes.kind x = 0 → ∃ t, x = .ok t) ∧ (BobRes.kind x = 1 → ∃ t st a, x = .bad t st a) := by
  cases x <;> simp [BobRes.kind]
/-- What a PUT makes of the bytes that it has read. -/
def anyRead (s : State) (_ : List Byte) : BobRes := .ok s
theorem test_meets_EngineEventResults_put : let k := kLink 0 true false 0 none
    (sLink k .x16).xcopyCmd c0 1 0 = some k ∧ ((sLink k .x16).link 0).ready = true ∧ k.done < xCount k.desc ∧ k.port = some 0 ∧
    (∃ t, xcopyRead (sLink k .x16) c0 k (off (xLaddr k.desc) k.done) (16 / 16) [] anyRead = .ok t) ∧
    ∃ t st a, xcopyRead { sLink k .x16 with poison := [0x20100 / 16] } c0 k (off (xLaddr k.desc) k.done) (16 / 16) [] anyRead = .bad t st a :=
  ⟨by decide +kernel, by decide +kernel, by decide +kernel, rfl, bobRes_of.1 (by decide +kernel), bobRes_of.2 (by decide +kernel)⟩
theorem test_meets_EngineEventResults_start : ∀ op ∈ [0, 1], (sLink (kLink op false false 0 none) .x16).asleep = false ∧
    (sLink (kLink op false false 0 none) .x16).xcopyCmd c0 1 op = some (kLink op false false 0 none) ∧
    mayStart ((sLink (kLink op false false 0 none) .x16).getCore c0).xcopy (kLink op false false 0 none) = true := by decide +kernel
theorem test_meets_EngineEventResults_end : (∀ p ∈ [none, some 7], ∀ e ∈ [true, false],
      findCmd ((sLink (kLink 1 true e 16 p) .x16).getCore c0).xcopy 1 (·.ended) = if e then some (kLink 1 true e 16 p) else none) ∧
    findCmd ((sLink (kLink 1 true false 0 none) .down).getCore c0).xcopy 1 (fun k => k.started && !k.ended) = some (kLink 1 true false 0 none) ∧
    (sLink (kLink 1 true false 0 none) .down).pathDownSince (some 0) 5 0 = some 0 ∧
    0 + 100000000 ≤ (sLink (kLink 1 true false 0 none) .down).gts := by decide +kernel
/-- A flit of a kind with a payload, at the head of link 0. -/
def flit (kind : BitVec 4) (src : BitVec 12) (p : List Byte) : Flit :=
  { seq := 0, ack := 0, av := false, nak := false, kind := kind, dnode := 0, snode := src, vc := 0, payload := p, crc := 0 }
def sRx (f : Flit) : State := { sLink (kLink 1 true false 0 none) .x16 with links := (Vector.replicate 5 {}).set 0 { rx := [f] } }

/-- An XCOPY flit from a node: its address, ticket 1, what it is, an operand, core 0, and what follows. -/
def xFlit (n : BitVec 12) (what arg : Nat) (rest : List Byte) : Flit :=
  flit 2 n (bytesOf 8 0x100 ++ bytesOf 2 1 ++ bytesOf 1 what ++ bytesOf 1 arg ++ bytesOf 4 0 ++ rest)
/-- The data of a GET. -/
def getFlit : Flit := xFlit 5 3 0 (List.replicate 16 7)
theorem any_of {α : Type} {x : Option α} {f : α → Bool} (h : x.any f = true) : ∃ a, x = some a ∧ f a = true := by
  cases x <;> simp_all
theorem some_of {α : Type} {x : Option α} (h : x.isSome = true) : ∃ t, x = some t := Option.isSome_iff_exists.mp h
theorem test_meets_EngineEventResults_data : (sRx getFlit).asleep = false ∧ getFlit.kind = 2 ∧
    ∃ s1 k, (sRx getFlit).takeFlit getFlit = some s1 ∧ s1.mine getFlit = true ∧ flitWhat getFlit = 3 ∧
      s1.xcopyOf getFlit 1 = some (c0, k) ∧ ∃ t, writeParts c0 k 1 (List.replicate 16 7) (off (xLaddr k.desc) 0) s1 = .ok t :=
  ⟨by decide +kernel, rfl, _, kLink 1 true false 0 none, rfl, by decide +kernel, by decide +kernel, by decide +kernel,
    bobRes_of.1 (by decide +kernel)⟩
/-- A PUT of node 6, context 0, into context 0: its opening flit and its data; a command of this module acknowledged and ended. -/
def openFlit : Flit := xFlit 6 1 0 (bytesOf 8 16 ++ bytesOf 8 0x300 ++ bytesOf 2 0 ++ bytesOf 2 0)
def putFlit : Flit := xFlit 6 0 0 (List.replicate 16 7)
def remote (get : Bool) : Remote :=
  { node := 6, core := 0, ticket := 1, get := get, ctx := 0, addr := 0x100, back := 0x300, count := 16, since := 0, stamp := 0 }
def sRemote (get : Bool) : State := { sRx putFlit with
  remotes := [remote get], ctxs := [{ num := 0, desc := [0x200000] }], mgmt := { access := [(6, 0, 0)], routes := [(6, 0)] }
  mem := memWrite (memWrite [] 0x200000 (bytesOf 8 0x300001)) 0x300000 (bytesOf 8 0xDF) }
theorem test_meets_EngineEventResults_incoming : (∀ f ∈ [openFlit, putFlit, xFlit 6 5 0 [], xFlit 6 2 7 []], ∃ s1, (sRx f).takeFlit f = some s1 ∧
      (s1.portFull (s1.routeTo f.snode) == false && s1.mine f) = true) ∧
    (flitWhat openFlit = 1 ∧ (openFlit.snode, BitVec.ofNat 16 (flitNum openFlit 32 2), BitVec.ofNat 16 (flitNum openFlit 34 2)) ∈ (sRemote false).mgmt.access) ∧
    (flitWhat putFlit = 0 ∧ (sRemote false).remoteOf 6 (flitCore putFlit) (flitTicket putFlit) = some (remote false) ∧
      ∃ t, putParts (remote false) 1 (List.replicate 16 7) (off 0x100 0) (sRemote false) = .ok t) :=
  ⟨List.forall_mem_cons.2 ⟨any_of rfl, List.forall_mem_cons.2 ⟨any_of rfl, List.forall_mem_cons.2 ⟨any_of rfl,
      List.forall_mem_cons.2 ⟨any_of rfl, List.forall_mem_nil _⟩⟩⟩⟩,
    by decide +kernel, by decide +kernel, by decide +kernel, bobRes_of.1 (by decide +kernel)⟩
theorem test_meets_EngineEventResults_serve : (sRemote true).asleep = false ∧ (sRemote true).power.state = 0 ∧
    (sRemote true).remoteOf 6 (coreNum c0) (BitVec.ofNat 16 1) = some (remote true) ∧ (sRemote true).routeTo 6 = some 0 ∧
    ((sRemote true).link 0).ready = true ∧ ∃ t, getParts (remote true) 1 [] (off 0x100 0) (sRemote true) anyRead = .ok t :=
  ⟨by decide +kernel, by decide +kernel, by decide +kernel, by decide +kernel, by decide +kernel, bobRes_of.1 (by decide +kernel)⟩

/-- A flit with its CRC, or one above it. -/
def sealed (f : Flit) (ok : Bool) : Flit := { f with crc := if ok then crc64 (flitBody f) else crc64 (flitBody f) + 1 }
theorem sealed_ok (f : Flit) (ok : Bool) : flitCrcOk (sealed f ok) = ok := by
  have hb : flitBody (sealed f ok) = flitBody f := rfl
  rw [flitCrcOk, hb]
  cases ok
  · simp only [sealed]
    generalize crc64 (flitBody f) = x
    simp
  · simp [sealed]
theorem test_meets_LinkAndGroupEventResults_flits : (sRx getFlit).asleep = false ∧ ((sRx getFlit).link 0).width ≠ .down ∧
    flitCrcOk (sealed (flit 2 5 []) false) = false ∧ (∀ p ∈ [((0, 0) : BitVec 16 × BitVec 4), (0, 2), (1, 2), (0xFFFF, 2)],
      flitCrcOk (sealed { flit p.2 5 [] with seq := p.1 } true) = true) ∧ ((sRx getFlit).link 0).expect = 0 ∧ 0 < ((1 : BitVec 16) - 0).toInt :=
  ⟨by decide +kernel, by decide +kernel, sealed_ok _ _, fun _ _ => sealed_ok _ _, by decide +kernel, by decide⟩
/-- Link 4 in some condition, at GTS 20000. -/
def sL (l : Link) : State := { gts := 20000, links := (Vector.replicate 5 {}).set 4 l }
theorem test_meets_LinkAndGroupEventResults_timers : (sL { unackedSince := some 19000 }).asleep = false ∧
    ((sL { unackedSince := some 19000 }).link 4).unackedSince = some 19000 ∧ 19000 + 1000 ≤ (sL { unackedSince := some 19000 }).gts ∧
    ((sL { ackWait := some 10000 }).link 4).ackWait = some 10000 ∧ ((sL { ackWait := some 10000 }).link 4).standby = false ∧
    10000 + 10000 ≤ (sL { ackWait := some 10000 }).gts ∧ ((sL { ackWait := some 10000 }).link 4).width ≠ .down ∧
    (∀ w ∈ [Width.x16, .x8low, .x8high, .down], ((sL { width := w }).link 4).width = w) ∧
    ((sL { width := .x8low, failed := [15] }).link 4).spare = none ∧ ((sL { width := .x8low, failed := [15] }).link 4).failed = [15] ∧
    ((sL { width := .x8low, failed := [15] }).link 4).width = .x8low ∧ (0, 3) ∉ (sL {}).mgmt.laneRepairs ∧ 0 ∉ (sL {}).mgmt.segDown := by
  decide +kernel
/-- A post of sequence `q` by members `m` of group 7. -/
def postFlit (q m : Nat) : Flit := flit 3 9 (bytesOf 4 7 ++ bytesOf 4 q ++ bytesOf 8 1 ++ bytesOf 8 2 ++ bytesOf 216 m)
/-- Group 7 after sequence 5, with member 0's post of sequence 6. -/
def sBell (f : Flit) : State := { sRx f with mgmt := { groups := [{ num := 7, members := [(0, c0), (9, ⟨1, 1, 1⟩)], root := 0, last := 5, any := true
                                                                    posts := [(6, 1, 0, 0)] }] } }
theorem test_meets_LinkAndGroupEventResults_posts : ∀ p ∈ [(5, 1), (4, 1), (6, 2), (7, 2)], ∃ s1 g, (sBell (postFlit p.1 p.2)).takeFlit
      (postFlit p.1 p.2) = some s1 ∧ s1.group (flitNum (postFlit p.1 p.2) 0 4) = some g ∧ s1.nodes.contains g.root = true ∧ g.any = true ∧
    flitNum (postFlit p.1 p.2) 4 4 = p.1 ∧ flitNum (postFlit p.1 p.2) 24 216 = p.2 ∧ g.fullMask = 3 ∧ g.posted 6 = 1 := by
  have h : ∀ p ∈ [(5, 1), (4, 1), (6, 2), (7, 2)], ((sBell (postFlit p.1 p.2)).takeFlit (postFlit p.1 p.2)).any (fun s1 =>
      (s1.group (flitNum (postFlit p.1 p.2) 0 4)).any (fun g => s1.nodes.contains g.root && g.any && flitNum (postFlit p.1 p.2) 4 4 == p.1 &&
        flitNum (postFlit p.1 p.2) 24 216 == p.2 && g.fullMask == 3 && g.posted 6 == 1)) = true := by decide +kernel
  intro p hp
  obtain ⟨s1, h1, h2⟩ := any_of (h p hp)
  obtain ⟨g, h3, h4⟩ := any_of h2
  simp only [Bool.and_eq_true, beq_iff_eq] at h4
  exact ⟨s1, g, h1, h3, h4.1.1.1.1.1, h4.1.1.1.1.2, h4.1.1.1.2, h4.1.1.2, h4.1.2, h4.2⟩
/-- A lease grant of 5 ms at 1000 W. -/
def leaseFlit : Flit := flit 5 0 (bytesOf 4 1 ++ bytesOf 2 1000 ++ bytesOf 4 5000)
theorem test_meets_LinkAndGroupEventResults_others : (∃ s1 g, (sBell (flit 4 9 (bytesOf 4 7))).takeFlit (flit 4 9 (bytesOf 4 7)) = some s1 ∧
      s1.group (flitNum (flit 4 9 (bytesOf 4 7)) 0 4) = some g) ∧
    (∃ s1, (sRx leaseFlit).takeFlit leaseFlit = some s1 ∧ leaseFlit.snode = (sRx leaseFlit).power.src ∧ flitNum leaseFlit 6 4 ≠ 0 ∧
      (sRx leaseFlit).power.leaseSeen = false ∧ s1.power = (sRx leaseFlit).power) ∧ ∃ g, (sBell leaseFlit).group 7 = some g :=
  ⟨⟨_, _, rfl, rfl⟩, ⟨_, rfl, rfl, by decide +kernel, rfl, rfl⟩, _, rfl⟩

/-! ## The hypotheses of the statements are met: the Drover -/

/-- A context that maps its first GiB to the same physical addresses, with a save pool of 4 GiB, and its tables. -/
def ctx0 (failed poisoned : Bool) (regs : Word) : Context :=
  { num := 0, desc := [0x200000, 0, regs, 0x1000_0000, 0x1_0000_0000], failed := failed, poisoned := poisoned }
def tables : List Host.Cell := memWrite (memWrite [] 0x200000 (bytesOf 8 0x300001)) 0x300000 (bytesOf 8 0xDF)
/-- Queue 0 with one record, a nest record at 0x20000, and version 2 of the word at 0x10000. -/
def sQ (x : Context) (rec nest : List Word) : State :=
  { ctxs := [x], regions := [region0]
    mem := memWrite (memWrite tables 0x11040 (rec.flatMap (fun w => bytesOf 8 w.toNat))) 0x20000 (nest.flatMap (fun w => bytesOf 8 w.toNat))
    queues := (Vector.replicate 64 {}).set 0 { en := true, tail := 1, base := 0x11000 } }
/-- That state once the stores of queue 0 that are due have been made. -/
def sS (x : Context) (rec nest : List Word) : State := (sQ x rec nest).settleQueue 0
/-- Queue `q` gives a record to the service order, and the state after it satisfies a test. -/
def consumes (s : State) (q : Nat) (r : List Word) (f : State → Bool) : Bool :=
  match s.peek q with
  | .record r0 _ => r0 == r && (match s.select with
    | some (.start q', s1) => q' == q && (match s1.peek q with
      | .record r2 s2 => r2 == r && f { s2.advanceHead q with orders := s.orders + 1 }
      | _ => false)
    | _ => false)
  | _ => false
theorem consumes_of {s : State} {q : Nat} {r : List Word} {f : State → Bool} (h : consumes s q r f = true) :
    ∃ t, Consumes s q r t ∧ f t = true := by
  unfold consumes at h
  split at h
  · rename_i r0 s0 h0
    split at h
    · rename_i q' s1 h1
      split at h
      · rename_i r2 s2 h2
        simp only [Bool.and_eq_true, beq_iff_eq] at h
        obtain ⟨rfl, rfl, rfl, h⟩ := h
        exact ⟨_, ⟨s0, s1, s2, h0, h1, h2, rfl⟩, h⟩
      · simp at h
    · simp at h
  · simp at h
def launchRec : List Word := [1, 0, 0x20000, 0, 0, 0, 0, 0]
def nest1 : List Word := [0, 1, 0, 4, 0, 1] ++ List.replicate 26 0

theorem test_meets_DroverEventResults_invalid : recordOk [9, 0, 0, 0, 0, 0, 0, 0] = false ∧ (sQ (ctx0 false false 0) [9] []).asleep = false ∧
    ∃ t, Consumes (sS (ctx0 false false 0) [9] []) 0 [9, 0, 0, 0, 0, 0, 0, 0] t ∧ decide (t.markStatus 0 = none) = true :=
  ⟨by decide +kernel, by decide +kernel, consumes_of (by decide +kernel)⟩
theorem test_meets_DroverEventResults_marked : ∀ op ∈ [1, 2, 3, 4, 5], isCmd op ([word op] ++ List.replicate 7 0) = true ∧
    (∃ t, Consumes (sS (ctx0 true true 0) [word op] []) 0 ([word op] ++ List.replicate 7 0) t ∧ decide (t.markStatus 0 = some 5) = true) ∧
    ∃ t, Consumes (sS (ctx0 false true 0) [word op] []) 0 ([word op] ++ List.replicate 7 0) t ∧ decide (t.markStatus 0 = some 8) = true := by
  simp only [List.forall_mem_cons]
  refine ⟨?_, ?_, ?_, ?_, ?_, List.forall_mem_nil _⟩ <;> exact ⟨by decide +kernel, consumes_of (by decide +kernel), consumes_of (by decide +kernel)⟩
theorem test_meets_DroverEventResults_launch : isCmd 1 launchRec = true ∧
    (∃ t, Consumes (sS (ctx0 false false 65) launchRec nest1) 0 launchRec t ∧ (t.context 0).any (fun x => (t.declare x).isNone) = true) ∧
    ∀ n ∈ [(nest1, true), ([], false)], ∃ t, Consumes (sS (ctx0 false false 0) launchRec n.1) 0 launchRec t ∧
      ((t.context 0).any (fun x => (t.declare x).any (fun t1 => match drvRead 0 (cut16 (addr57 (dw launchRec 2)) 256) [] t1 with
        | .ok bs t2 => nestOk t2 0 (wordsOf bs 32) == n.2
        | _ => false))) = true :=
  ⟨by decide +kernel, consumes_of (by decide +kernel), List.forall_mem_cons.2 ⟨consumes_of (by decide +kernel),
    List.forall_mem_cons.2 ⟨consumes_of (by decide +kernel), List.forall_mem_nil _⟩⟩⟩
/-- Records of the other commands, a version word inside or outside a region. -/
def verRec (op : Nat) (a : Word) : List Word := [word op, 0, a, 2, 0, 0, 0, 0]
theorem test_meets_DroverEventResults_commands : (∀ r ∈ [([2, 0, 0, 0, 0, 0, 0, 0] : List Word), verRec 3 0x10000, verRec 3 0x18000, verRec 4 0x10000,
      verRec 4 0x10004, [5, 0, 0, 0, 0, 0, 0, 0], [6, 0, 0, 0, 0, 0, 0, 0]], ∃ t, Consumes (sS (ctx0 false false 0) r []) 0 r t ∧
        (recordOk r && t.markStatus 0 == none && (sS (ctx0 false false 0) r []).cmds.isEmpty) = true) := by
  repeat (first | exact List.forall_mem_nil _ | refine List.forall_mem_cons.2 ⟨consumes_of (by decide +kernel), ?_⟩)
theorem test_meets_DroverEventResults_words : (region0.ctx = 0 ∧ (sQ (ctx0 false false 0) [] []).regionOf 0 (verAddr (verRec 3 0x10000)) = some region0) ∧
    (sQ (ctx0 false false 0) [] []).regionOf 0 (verAddr (verRec 3 0x18000)) = none := ⟨⟨rfl, by decide +kernel⟩, by decide +kernel⟩

/-- A command under way on queue 0, whose due stores have been made. -/
def sCmd (r : List Word) : State :=
  State.settleQueue { sQ (ctx0 false false 0) [] [] with cmds := [{ order := 4, q := 0, ctx := 0, record := r }] } 0
theorem test_meets_DroverEventResults_performs : ((sCmd [2, 0, 0x1000, 0x2000, 24, 0, 0, 0]).startsNext 0 2 = false ∧
      ∃ c, (sCmd [2, 0, 0x1000, 0x2000, 24, 0, 0, 0]).pendingCmd 0 2 = some c ∧ (drvCopy (some c.stamp) c.ctx (addr57 (dw c.record 2)) (addr57 (dw c.record 3))
        (field (dw c.record 4) 0 40)
        (copyCuts (addr57 (dw c.record 2)).toNat (addr57 (dw c.record 3)).toNat (field (dw c.record 4) 0 40) 0 (field (dw c.record 4) 0 40))
        (sCmd [2, 0, 0x1000, 0x2000, 24, 0, 0, 0])).isSome = true) ∧
    (∃ c, (sCmd (verRec 3 0x10000)).pendingCmd 0 3 = some c ∧
      decide ((sCmd (verRec 3 0x10000)).regionOf c.ctx (verAddr c.record) = some region0) = true) ∧
    (∃ c, (sCmd [5]).pendingCmd 0 5 = some c) ∧
    ∃ c, (sCmd [6]).cmds.find? (fun c => c.pends 0 6 && (sCmd [6]).cancelled c) = some c :=
  ⟨⟨by decide +kernel, any_of (by decide +kernel)⟩, any_of (by decide +kernel), some_of (by decide +kernel), some_of (by decide +kernel)⟩
theorem test_meets_DroverEventResults_create : (∃ c, (sCmd (verRec 4 0x10000)).cmds.find?
      (fun c => c.pends 0 4 && (sCmd (verRec 4 0x10000)).earlierDone c) = some c) ∧
    ∀ p ∈ [((3 : BitVec 32), 0), (2, 1), (0, 2)],
      (match createVersion (sCmd (verRec 4 0x10000)) region0 0x10000 p.1 7 with
        | .done _ => 0 | .dup => 1 | .gone => 2 | .full => 3) = p.2 :=
  ⟨some_of (by decide +kernel), by decide +kernel⟩

/-- Launch 1 of one-hart teams on queue 0, in some condition; cluster 0 of each die is visible. -/
def sLa (f : Launch → Launch) (x : Context) : State := { sQ x [] [] with
  queues := Vector.replicate 64 {}, gts := 50000
  dies := Vector.replicate 8 { clusters := (Vector.replicate 66 { role := .retired }).set 0 {} }
  launches := [(1, f { order := 4, q := 0, ctx := 0, record := launchRec, nest := nest1 })] }
def preNest (n v : Nat) : List Word := nest1.set n 0x10000 |>.set (n + 1) (word (2 ^ 63 + v))
theorem test_meets_DroverEventResults_live : (∃ l, assocFind (sLa id (ctx0 false false 0)).launches 1 = some l ∧ l.state = .waiting ∧
      l.cancelled = false ∧ (sLa id (ctx0 false false 0)).preState l.ctx (tVers l.nest 21) = some true ∧
      (sLa id (ctx0 false false 0)).preState l.ctx (tVers l.nest 23) = some true ∧
      (sLa id (ctx0 false false 0)).producerOpen l = false ∧ l.total ≠ 0) ∧
    (sLa id (ctx0 false false 0)).preState 0 (tVers (preNest 21 0) 21) = some false ∧
    (sLa id (ctx0 false false 0)).preState 0 (tVers (preNest 23 2) 23) = some true :=
  ⟨⟨_, rfl, rfl, rfl, by decide +kernel, by decide +kernel, by decide +kernel, by decide +kernel⟩, by decide +kernel, by decide +kernel⟩
theorem test_meets_DroverEventResults_complete : ∀ x ∈ [ctx0 false false 0, ctx0 false true 0], ∃ l,
    assocFind (sLa (fun l => { l with state := .live, next := 1 }) x).launches 1 = some l ∧ l.state = .live ∧ l.more = false ∧
    (sLa (fun l => { l with state := .live, next := 1 }) x).teamsLeft 1 = false ∧
    (sLa (fun l => { l with state := .live, next := 1 }) x).postsLeft 1 = false ∧ l.failed = false ∧ l.cancelled = false ∧
    (tVers l.nest 25).1 = false ∧ (sLa (fun l => { l with state := .live, next := 1 }) x).context 0 = some x := by
  refine List.forall_mem_cons.2 ⟨⟨_, rfl, rfl, ?_⟩, List.forall_mem_cons.2 ⟨⟨_, rfl, rfl, ?_⟩, List.forall_mem_nil _⟩⟩ <;> decide +kernel
theorem test_meets_DroverEventResults_version : ∀ p ∈ [(3, 0), (2, 1), (0, 2)], (tVers (preNest 25 p.1) 25).1 = true ∧
    (sLa id (ctx0 false false 0)).regionOf 0 (tVers (preNest 25 p.1) 25).2.1 = some region0 ∧
    (match createVersion (sLa id (ctx0 false false 0)) region0 (tVers (preNest 25 p.1) 25).2.1 (tVers (preNest 25 p.1) 25).2.2 0 with
      | .done _ => 0 | .dup => 1 | .gone => 2 | .full => 3) = p.2 :=
  List.forall_mem_cons.2 ⟨by decide +kernel, List.forall_mem_cons.2 ⟨by decide +kernel, List.forall_mem_cons.2
    ⟨by decide +kernel, List.forall_mem_nil _⟩⟩⟩

/-- Team 9 of launch 1 in some condition on core 0 of cluster 0. -/
def sTeam (st : TeamState) (h : Hart) : State := { sLa (fun l => { l with state := .live, next := 1 }) (ctx0 false false 0) with
  core := { resident := st != .saved, hart := { h with team := 9 } }
  teams := [(9, { launch := 1, ctx := 0, teamid := 0, prio := 0, q := 0, die := 0, cluster := 0, cores := [0], state := st
                  saved := if st = .saved then [h] else [], areas := [(0x1000_0000, 0x10000)] })] }
/-- The choice of the service order. -/
def picks (s : State) (f : Dispatch → State → Bool) : Bool :=
  match s.select with
  | some (d, s1) => f d s1
  | none => false
theorem picks_of {s : State} {f : Dispatch → State → Bool} (h : picks s f = true) : ∃ d s1, s.select = some (d, s1) ∧ f d s1 = true := by
  unfold picks at h; split at h
  · rename_i d s1 hs; exact ⟨d, s1, hs, h⟩
  · simp at h
theorem test_meets_DroverEventResults_place : ∃ d s1, (sLa (fun l => { l with state := .live }) (ctx0 false false 0)).select = some (d, s1) ∧
    (decide (d = .place 1) && (assocFind s1.launches 1).any (fun l => (s1.placeFor l).isSome && (s1.areasFor l.ctx l.teamSize).isSome)) = true :=
  picks_of (by decide +kernel)
/-- A hart whose threads have stopped for its park. -/
def parkedHart : Hart := { hart [] {} with a := { thread [] with run := .halted }, e := { thread [] with run := .parked } }
theorem test_meets_DroverEventResults_save : ∃ x, assocFind (sTeam .parking parkedHart).teams 9 = some x ∧
    x.state = .parking ∧ x.ids = [c0] ∧ ((sTeam .parking parkedHart).getCore c0).savable = true :=
  ⟨_, rfl, rfl, by decide +kernel, by decide +kernel⟩
theorem test_meets_DroverEventResults_restore : ∃ d s1, (sTeam .saved (hart [] {})).select = some (d, s1) ∧
    (decide (d = .restore 9) && (assocFind s1.teams 9).any (fun x => (s1.resumeOn x).contains (0, 0))) = true :=
  picks_of (by decide +kernel)
theorem test_meets_DroverEventResults_victims : let s := { sLa (fun l => { l with state := .live, readySince := some 0 }) (ctx0 false false 0) with
      dies := Vector.replicate 8 { clusters := Vector.replicate 66 { role := .retired } } }
    ∃ l, assocFind s.launches 1 = some l ∧ l.readySince = some 0 ∧ s.power.state = 0 ∧ s.wants 1 l = true ∧ s.placeFor l = none ∧
      0 + 50000 ≤ s.gts ∧ s.timers[(0 : Fin 8)] + 10000000 ≤ 10000000 :=
  ⟨_, rfl, rfl, rfl, by decide +kernel, by decide +kernel, by decide +kernel, by decide +kernel⟩

/-! ## The hypotheses of the statements are met: host, power, dies -/

/-- Queue 63 of 16 records, enabled, with one record consumed; its context's tables. -/
def sHost : State := { sQ (ctx0 false false 0) [] [] with
  queues := (Vector.replicate 64 {}).set 63 { en := true, tail := 3, head := 1, headerDue := true, base := 0x11000 } }
theorem test_meets_HostRegisterEventResults_queues : (sHost.queue 63).en = true ∧ 0 < ((17 : BitVec 32) - (sHost.queue 63).tail).toInt ∧
    ((17 : BitVec 32) - (sHost.queue 63).head).toInt ≤ 2 ^ ((sHost.queue 63).lsize.toNat + 4) ∧
    2 ^ ((sHost.queue 63).lsize.toNat + 4) < ((18 : BitVec 32) - (sHost.queue 63).head).toInt ∧
    ((3 : BitVec 32) - (sHost.queue 63).tail).toInt ≤ 0 ∧ (sHost.queue 0).en = false ∧ (sHost.queue 63).headerDue = true ∧
    (sHost.queue 63).flt = false := by decide +kernel
/-- A write of the Drover succeeded. -/
def DrvWrite.kind : DrvWrite → Nat
  | .ok _ => 0
  | .fail _ => 1
  | .stall => 2
theorem kind_of {x : DrvWrite} : (DrvWrite.kind x = 0 → ∃ t, x = .ok t) ∧ (DrvWrite.kind x = 1 → ∃ t, x = .fail t) := by
  cases x <;> simp [DrvWrite.kind]
theorem test_meets_HostRegisterEventResults_header : (∃ t, drvWrite (sHost.queue 63).ctx.toNat (cut16 (sext57 ((sHost.queue 63).base.setWidth 64)) 8)
      (bytesOf 8 (sHost.queue 63).head.toNat) sHost = .ok t) ∧
    ∃ t, drvWrite (sHost.queue 63).ctx.toNat (cut16 (sext57 ((sHost.queue 63).base.setWidth 64)) 8)
      (bytesOf 8 (sHost.queue 63).head.toNat) { sHost with ctxs := [] } = .fail t :=
  ⟨kind_of.1 (by decide +kernel), kind_of.2 (by decide +kernel)⟩
/-- An event ring with 16 entries of which `n` are used. -/
def sRing (en : Bool) (n : BitVec 32) (b : Nat) : State := { ring := { en := en, tail := n, buf := List.replicate b item.record } }
theorem test_meets_HostRegisterEventResults_ring : (sRing false 0 0).ring.en = false ∧ (sRing true 4 0).ring.en = true ∧
    ((sRing true 4 0).ring.tail - (sRing true 4 0).ring.head).toNat ≠ 2 ^ ((sRing true 4 0).ring.lsize.toNat + 4) ∧
    (sRing true 4 0).ring.buf = [] ∧ ((sRing true 16 0).ring.tail - (sRing true 16 0).ring.head).toNat = 2 ^ ((sRing true 16 0).ring.lsize.toNat + 4) ∧
    (sRing true 16 255).ring.buf.length < 256 ∧ 256 ≤ (sRing true 16 256).ring.buf.length ∧
    0 ≤ ((4 : BitVec 32) - (sRing true 4 0).ring.head).toInt ∧ 0 ≤ ((sRing true 4 0).ring.tail - 4).toInt ∧
    ((sRing true 4 0).ring.tail - 5).toInt < 0 := by decide +kernel
theorem test_meets_HostRegisterEventResults_contexts : (sQ (ctx0 false false 0) [] []).context 0 = some (ctx0 false false 0) ∧
    (sQ (ctx0 false false 0) [] []).ctxBusy 0 = false ∧ State.reset.context (ctxNum [0]) = none ∧ State.reset.mgmt.bootFailed = false ∧
    hostMapped 0x4_FFFF_FFFF 8 = true ∧ State.reset.asleep = false ∧ poisoned State.reset 0x100 8 = false ∧
    (linesOf 0x100 8).any (fun l => State.reset.owned none (.phys (64 * l))) = false ∧ poisoned { State.reset with poison := [0x10] } 0x100 8 = true ∧
    (3, true) ∈ ({ hostLines := [(3, true)] } : State).hostLines ∧ (List.replicate 32 (0 : Byte)).length = 32 := by decide +kernel
theorem test_meets_HostRegisterEventResults_power : State.reset.power.state = 0 ∧ ({ power := { state := 1 } } : State).power.state ≠ 0 ∧
    State.reset.power.brn = false := by decide +kernel

theorem test_meets_PowerEventResults : ({ power := { state := 1 }, gts := 1500000 } : State).power.state = 1 ∧
    0 + 1500000 ≤ ({ power := { state := 1 }, gts := 1500000 } : State).gts ∧ ({ power := { state := 1 } } : State).stilled = true ∧
    ({ power := { state := 1 } } : State).drained = true ∧ ({ power := { state := 2 } } : State).power.brn = false ∧
    ({ power := { state := 2 } } : State).power.hold = false ∧ ({ power := { state := 3 } } : State).power.state = 3 ∧
    ({ power := { crookOn := true } } : State).power.crookOn = true ∧
    ({ power := { crookEnd := some 0 }, gts := 100000 } : State).power.crookEnd = some 0 ∧
    State.reset.power.crookCount = 16 ∧ ({ power := { crookCount := 15 }, gts := 10000 } : State).power.crookCount < 16 ∧
    ({ gts := 10000 } : State).timers[(1 : Fin 8)] + 10000 ≤ ({ gts := 10000 } : State).gts ∧ State.reset.power.sampleCount < 100 ∧
    ({ power := { leaseValid := true, leaseEnd := 5 }, gts := 5 } : State).power.leaseValid = true := by decide +kernel
/-- The power loop after 100 samples of a mean power. -/
def sLoop (mean cc gvl : Nat) : State :=
  { power := { sampleCount := 100, sampleSum := 100 * mean, capCount := cc }, dies := Vector.replicate 8 { gvl := gvl } }
theorem test_meets_PowerEventResults_loop : (sLoop 1201 16 16384).power.sampleCount = 100 ∧
    100 * 1200 < (sLoop 1201 16 16384).power.sampleSum ∧ 4096 < ((sLoop 1201 16 16384).die 0).gvl ∧
    ((sLoop 1201 4 4096).die 0).gvl ≤ 4096 ∧ (sLoop 1139 15 4096).power.sampleSum < 95 * 1200 ∧ (sLoop 1139 15 4096).power.capCount < 16 ∧
    16 ≤ (sLoop 1139 16 4096).power.capCount ∧ 95 * 1200 ≤ (sLoop 1140 16 4096).power.sampleSum ∧
    (sLoop 1200 16 4096).power.sampleSum ≤ 100 * 1200 := by decide +kernel

/-- Scores, roles and rotation of die 7. -/
def sDie (f : Die → Die) (scores : List (ScoreUnit × Nat)) : State :=
  { dies := (Vector.replicate 8 {}).set 7 (f {}), mgmt := { scores := scores }, gts := 60000000000 }
theorem test_meets_DieEventResults_units : State.reset.timers[(5 : Fin 8)] / 3600000000000 + 1 = 3600000000000 / 3600000000000 ∧
    (State.reset.getCore ⟨7, 65, 7⟩).resident = false ∧ (sDie id [(.bank 7 3, 64)]).suspect (.bank 7 3) = true ∧
    2 ≤ ((sDie (fun d => { d with bankSpares := 2 }) [(.bank 7 3, 64)]).die 7).bankSpares ∧ ((sDie id [(.bank 7 3, 64)]).die 7).bankSpares < 2 ∧
    (List.range 32).find? (fun l => assocGet l ((sDie id []).die 7).bankMap l == 3) = some 3 ∧
    2 ^ 20 ≤ ((sDie (fun d => { d with hotCount := 2 ^ 20 }) []).die 7).hotCount ∧ State.reset.timers[(4 : Fin 8)] + 1000000 ≤ (sDie id []).gts ∧
    ((sDie (fun d => { d with bankBusy := true, newRoles := [(31, 1)] }) []).die 7).bankBusy = true ∧
    ((sDie (fun d => { d with bankBusy := true, newRoles := [(31, 1)] }) []).die 7).newRoles = [(31, 1)] ∧
    ((sDie (fun d => { d with bankBusy := true, newRoles := [(31, 1)] }) []).die 7).opPins = [] := by decide +kernel
/-- A core that is not placed, with suspect lane group 5, some spare groups taken and some spare rows of the group. -/
def sSpare (groups rows : Nat) : State := { mgmt := { scores := [(.laneGroup c0 5, 64)] }
                                            core := { spareGroups := groups, failedRows := [(5, 7)]
                                                      spareRows := (List.range rows).map (fun n => (5, n, 1008 + n)) } }
theorem test_meets_DieEventResults_remap : (∀ g ∈ [0, 1, 2], ((sSpare g 0).getCore c0).resident = false ∧
      (sSpare g 0).suspect (.laneGroup c0 (((sSpare g 0).getCore c0).physGroup 5)) = true ∧
      ((sSpare g 0).getCore c0).spareGroups = g ∧ (List.range 256).find? (fun k => ((sSpare g 0).getCore c0).physGroup k ==
        ((sSpare g 0).getCore c0).physGroup 5) = some 5) ∧
    (((sSpare 0 15).getCore c0).spareRows.filter (fun y => decide (y.1 = 5))).length = 15 ∧
    (((sSpare 0 16).getCore c0).spareRows.filter (fun y => decide (y.1 = 5))).length = 16 := by decide +kernel
theorem test_meets_DieEventResults_rotation : ((sDie (fun d => { d with paddockReady := true }) []).die 7).paddockReady = true ∧
    ((sDie (fun d => { d with paddockReady := true }) []).die 7).swap = none ∧ (sDie (fun d => { d with paddockReady := true }) []).power.state = 0 ∧
    (sDie (fun d => { d with paddockReady := true }) []).paddock 7 = some 64 ∧
    ((sDie (fun d => { d with paddockReady := true, lastSwapEnd := some 0 }) []).die 7).lastSwapEnd = some 0 ∧
    0 + 60000000000 ≤ (sDie id []).gts ∧ (sDie id []).suspectCluster 7 = none ∧ (sDie id []).nextVisible 7 65 = some 0 ∧
    (sDie id [(.cluster 7 63, 64)]).suspectCluster 7 = some 63 ∧
    ((sDie (fun d => { d with swap := some { out := 3, inn := some 64 } }) []).die 7).swap = some { out := 3, inn := some 64 } ∧
    (sDie (fun d => { d with swap := some { out := 3, inn := some 64 } }) []).teamsOn 7 3 = [] ∧
    (sDie id []).clusterIdle 7 3 = true ∧ ((sDie id []).die 7).paddockReady = false := by
  decide +kernel
/-- The test of die 7's paddock has found a row, or more groups than there are spares. -/
theorem test_meets_DieEventResults_test : (sDie id []).paddock 7 = some 64 ∧ ((sDie id []).die 7).paddockReady = false ∧
    ((sDie id []).remapFaults [(⟨7, 64, 0⟩, 5, some 7)]).2 = true ∧
    ((sDie id []).remapFaults [(⟨7, 64, 0⟩, 5, none), (⟨7, 64, 0⟩, 6, none), (⟨7, 64, 0⟩, 7, none)]).2 = false := by decide +kernel
/-- Two recorded pages of 2 MiB, one on each tier, of a context that maps them; free frames on tier 0 or none. -/
def sMig (free : List Nat) : State :=
  { ctxs := [ctx0 false false 0], gts := 1000000
    mem := memWrite (memWrite (memWrite (memWrite [] 0x200000 (bytesOf 8 0x300001)) 0x300000 (bytesOf 8 0x400001)) 0x400000 (bytesOf 8 0x6000DF))
      0x400008 (bytesOf 8 0x100_0060_00DF)
    mig := { rmap := [(0x400000, 0x600000, 0x200000), (0x400008, 0x100_0060_0000, 0x200000)], counts := [(0x100_0060_0000 / bigPage, 4), (3, 1)], free := free } }
theorem test_meets_DieEventResults_scan : (sMig []).timers[(3 : Fin 8)] + 1000000 ≤ (sMig []).gts ∧ (sMig []).power.state = 0 ∧
    (sMig []).mig.reqs = [] ∧ (sMig []).mig.run = none ∧
    (bestOf (fun a b => decide ((sMig []).frameCount b < (sMig []).frameCount a)) ((sMig []).autoFrames 1)).isSome = true ∧
    (bestOf (fun a b => decide ((sMig []).frameCount a < (sMig []).frameCount b)) ((sMig []).autoFrames 0)).isSome = true := by decide +kernel
/-- A request for the page at 0 or at 0x4000_0000, which nothing maps. -/
def migReq (va : Word) (tier : BitVec 2) : MigReq :=
  { va := va, ctx := 0, tier := tier, notify := true, core := c0, team := 0, hart := 0, user := false }
theorem test_meets_DieEventResults_migration : (sMig []).pageOf (migReq 0x4000_0000 1) = none ∧
    (∃ p, (sMig []).pageOf (migReq 0 0) = some p ∧ (p.2.2 == 0x200000 && tierOf (leafFrame p.2.1) == 0) = true) ∧ (sMig []).freeFrames 1 0x200000 = [] ∧
    (sMig ((List.range 32).map (· + 0x100_0080_0000 / 0x10000))).freeFrames 1 0x200000 ≠ [] :=
  ⟨by decide +kernel, any_of (by decide +kernel), by decide +kernel, by decide +kernel⟩
theorem test_meets_DieEventResults_done : ({ mig := { run := some ⟨0x400000, 0x200000, 0x600000, 0x800000, migReq 0 0⟩ } } : State).asleep = false ∧
    ({ mig := { run := some ⟨0x400000, 0x200000, 0x600000, 0x800000, migReq 0 0⟩ } } : State).power.engPark = false := by decide +kernel

/-! ## The hypotheses of the statements are met: the machine -/

/-- A thread whose handler comes from a table at 0x100 in a mapped page, or that is in a handler. -/
def sTrap (tvec : Word) (busy : Bool) (h : Nat) : State := { (sM .e 0x100 0 0).setHart { hart [] {} with
  e := { thread [] with tvec := tvec, busy := busy } } with mem := memWrite [] 0x20808 (bytesOf 8 h) }
theorem test_meets_TrapEntryResults : (sTrap 0 true 0).thr.busy = true ∧ (sTrap 0x4000 false 0).thr.busy = false ∧
    ((sTrap 0x4000 false 0).hart.tvecOf .e).getLsbD 63 = false ∧
    ((sTrap 0x8000_0000_0000_0800 false 0x2000).hart.tvecOf .e).getLsbD 63 = true ∧
    (∃ p s2, resolve (trapNoted (sTrap 0x8000_0000_0000_0800 false 0x2000) .ill 5 0x1000) c0 false .read 0x808 8 = .ok p s2 ∧
      s2.poisonedAt p 8 = false) ∧ (word (ofBytes ((sTrap 0x8000_0000_0000_0800 false 0x2000).loadAt (.phys 0x20808) 8))).toNat % 4 = 0 ∧
    (word (ofBytes ((sTrap 0x8000_0000_0000_0800 false 0x2001).loadAt (.phys 0x20808) 8))).toNat % 4 ≠ 0 ∧
    ∃ s2, resolve (trapNoted (on .e { hart [] {} with e := { thread [] with tvec := 0x8000_0000_0000_0800 } }) .ill 5 0x1000) c0 false .read 0x808 8
      = .fail .xlate s2 :=
  ⟨rfl, rfl, by decide +kernel, by decide +kernel, ⟨_, _, rfl, by decide +kernel⟩, by decide +kernel, by decide +kernel, _, rfl⟩

theorem test_meets_ChecksTrapBeforeAnyEffect : (sE 0 0).core.resident = true ∧ Instr.encoded (.bopush 1) = true ∧
    gate (encode (.bopush 1)) (sE 0 0) = some .ill ∧ (∀ i ∈ privTable 1 2 0 0x100, i.encoded = true) ∧
    (on .e { hart [] {} with e := { thread [] with super := false } }).thr.super = false := by decide +kernel

theorem test_meets_LexitPopsTheInnermostLoop : Ready .lexit [] sC ∧ (∃ x, sC.thr.loops = [x] ∧ x.lvl = sC.thr.clvl) ∧
    Ready .lexit [] (sE 0 0) ∧ ∀ x ∈ (sE 0 0).thr.loops, x.lvl ≠ (sE 0 0).thr.clvl :=
  ⟨by unfold Ready; decide +kernel, ⟨_, rfl, rfl⟩, by unfold Ready; decide +kernel, nofun⟩

theorem test_meets_ThermalCountsAdjust : ({ gts := 10000000 } : State).timers[(2 : Fin 8)] + 10000000 ≤ ({ gts := 10000000 } : State).gts ∧
    State.reset.gts < State.reset.timers[(2 : Fin 8)] + 10000000 := by decide +kernel

/-- E's turn, at PC 0x1000 of a mapped page. -/
def sStep (f : Thread → Thread) : State := { (sM .e 0x100 0 0).setHart { hart [] {} with e := f (thread []) } with
  agenda := [.thread c0 .e], mem := memWrite [] 0x21000 (bytesOf 4 0x3C000007) }
theorem test_meets_StepRunsTheDecodedInstruction : (sStep id).agenda = [.thread c0 .e] ∧
    ((sStep id).focus c0 .e).core.canRun ((sStep id).focus c0 .e).who = true ∧ ((sStep id).focus c0 .e).thr.deferred = [] ∧
    (∃ t, fetch ((sStep id).focus c0 .e) = .ok 0x3C000007 t) ∧
    (∃ t, fetch ((sStep (fun t => { t with pc := 0x20000 })).focus c0 .e) = .fail .xlate t) ∧
    ((sStep (fun t => { t with run := .halted })).focus c0 .e).core.canRun .e = false ∧
    ((sStep id).focus c0 .e).applyDs c0 = (sStep id).focus c0 .e ∧ ((sStep id).focus c0 .e).thr.cut = none ∧ laneWord (sStep id) 0x3C000007 = false ∧
    ((sStep (fun t => { t with deferred := [(.deferXlate, 8)] })).focus c0 .e).thr.deferred ≠ [] ∧ canonical (sStep id).thr.pc = true ∧
    (sStep id).thr.pc.toNat < windowBase ∧ (∃ pa tlb t, (sStep id).xlate none (sStep id).core.tlb 256 (sStep id).hart.ctx
      (!(sStep id).thr.super) .fetch (sStep id).thr.pc = .ok pa tlb t ∧ pa % 4 = 0 ∧ assocFind t.core.icache (pa / 64) = none) ∧
    State.reset.agenda = [] :=
  ⟨rfl, by decide +kernel, rfl, ⟨_, rfl⟩, ⟨_, rfl⟩, by decide +kernel, rfl, rfl, by decide +kernel, by decide +kernel, by decide +kernel, by decide +kernel,
    ⟨_, _, _, rfl, by decide +kernel, by decide +kernel⟩, rfl⟩

theorem test_meets_WordsDecodeAsWritten : (5 : BitVec 5) ∉ ([1, 2, 4, 8, 16] : List (BitVec 5)) ∧ (2 : BitVec 11).toNat < 3 ∧
    (sM .a 0 0 0).core.resident = true ∧ (sM .a 0 0 0).who = .a := by decide +kernel

theorem test_meets_DecodeEncodeAgree : Instr.encoded (.add 3 1 2 0 0) = true ∧ Instr.wellFormed (.add 3 1 2 0 0) = true := by decide

theorem test_meets_EveryStepKeepsMemoryCanonical : (sStep id).memOk ∧ ∃ t, step (sStep id) = .next t ∧ t.mem = (sStep id).mem :=
  ⟨by decide +kernel, _, rfl, rfl⟩

/-! ## The hypotheses of the statements are met: what fails, stops and goes on -/

/-- What resolving an address came to. -/
def failOf : Resolved → Option Cause
  | .fail c _ => some c
  | _ => none
theorem fails_of {r : Resolved} {c : Cause} (h : failOf r = some c) : ∃ s, r = .fail c s := by
  cases r <;> simp_all [failOf]

/-- `sM` with its page's permissions changed. -/
def sPerm (r w : Bool) : State := { sM .e 0x100 5 0 with core := { (sM .e 0x100 5 0).core with
  tlb := (sM .e 0x100 5 0).core.tlb.map (fun e => { e with r := r, w := w }) } }
/-- A thread whose context has one leaf of its own in a table. -/
def sLeaf (e : Nat) : State := { on .e (hart [0, 0x100, 5] {}) with
  ctxs := [{ num := 0, desc := [0x200000] }], mem := memWrite (memWrite [] 0x200000 (bytesOf 8 0x300001)) 0x300000 (bytesOf 8 e) }
theorem test_meets_LoadResults_faults : (∀ x ∈ [((0x8000_0000_0000_0000 : Word), Cause.xlate), (0x101, .misalign), (0x20000, .xlate),
      (pad + 0x18000, .spadRange), (pad + 0xFFFF8, .spadRange), (pad + 0x118000, .spadRange), (pad + 0x200000, .spadRange)],
      (∀ row ∈ loadTable, Ready (row.op 3 1 0 0) [1] (sM .e x.1 0 0)) ∧ (sM .e x.1 0 0).held false = false ∧ Free [3] (sM .e x.1 0 0) ∧
      failOf (resolveThr (sM .e x.1 0 0) .read x.1 8) = some x.2) ∧
    failOf (resolveThr (sPerm false true) .read 0x100 8) = some .perm ∧ failOf (resolveThr (sPerm true false) .rmw 0x100 8) = some .perm ∧
    (∃ p s', resolveThr { sM .e 0x100 0 0 with poison := [0x2010] } .read 0x100 8 = .ok p s' ∧ s'.poisonedAt p 8 = true) := by
  refine ⟨?_, by decide +kernel, by decide +kernel, _, _, rfl, by decide +kernel⟩
  simp only [List.forall_mem_cons]
  unfold Ready Free
  refine ⟨?_, ?_, ?_, ?_, ?_, ?_, ?_, List.forall_mem_nil _⟩ <;> decide +kernel
/-- The leaf that a walk has found. -/
def leafOf : Walk → Option Word
  | .leaf _ e _ => some e
  | .none => none
theorem leaf_of {w : Walk} {v : Word} (h : leafOf w = some v) : ∃ a n, w = .leaf a v n := by cases w <;> simp_all [leafOf]
theorem test_meets_LoadResults_walks : (sE 0 0).rootOf 0 = none ∧ (∃ e, tlbHit (sPerm false true).core.tlb 0 false .read 0x100 = some e ∧
      allowed false .read e = false) ∧
    (∃ root, (sLeaf 0).rootOf 0 = some root ∧ walkFrom (sLeaf 0).mem 0x100 walkLevels root = .none) ∧
    (∀ e ∈ [(0xD9 : Nat), 0xCF], ∃ root, (sLeaf e).rootOf 0 = some root ∧ leafOf (walkFrom (sLeaf e).mem 0x100 walkLevels root) = some (word e) ∧
      ((word e).getLsbD 56 = false ∧ ((word e).getLsbD 1 = false ∨ (word e).getLsbD 4 = false))) ∧
    ∀ root, (sLeaf 0xD9).rootOf 0 = some root →
      ∀ l ∈ walkLines (sLeaf 0xD9).mem 0x100 walkLevels root, (sLeaf 0xD9).owned none (.phys (64 * l)) = false := by
  refine ⟨by decide +kernel, ⟨_, rfl, by decide +kernel⟩, ⟨_, rfl, by decide +kernel⟩,
    List.forall_mem_cons.2 ⟨⟨_, rfl, by decide +kernel, by decide +kernel⟩, List.forall_mem_cons.2 ⟨⟨_, rfl, by decide +kernel, by decide +kernel⟩,
      List.forall_mem_nil _⟩⟩, ?_⟩
  rintro root ⟨⟩; decide +kernel
theorem test_meets_StoreResults_faults : (∀ row ∈ storeTable, Ready (row.1 2 1 0 0) [1, 2] (sPerm true false)) ∧
    Ready (.stq 1 1 0 0) [1, 2, 3] (sPerm true false) ∧ (sPerm true false).held false = false ∧
    failOf (resolveThr (sPerm true false) .write 0x100 8) = some .perm := by unfold Ready; decide +kernel
theorem test_meets_AtomicResults_faults : (∀ row ∈ atomTable, Ready (row.1 3 1 2 0 0 3 4) [1, 2] (sPerm true false)) ∧
    (sPerm true false).held true = false ∧ Free [3] (sPerm true false) ∧ (sPerm true false).thr.fillRoom = true ∧
    failOf (resolveThr (sPerm true false) .rmw 0x100 8) = some .perm ∧
    (∀ row ∈ redTable, Ready (row.op 1 2 0 0 1 0) [1, 2] (sM .e 0x8000_0000_0000_0000 5 0) ∧
      Ready (row.op 1 2 0 0 1 0) [1, 2] (sM .e 0x101 5 0)) ∧
    canonical 0x8000_0000_0000_0000 = false ∧ canonical 0x101 = true ∧ (0x101 : Word).toNat % 8 ≠ 0 := by
  unfold Ready Free
  refine ⟨by decide +kernel, by decide +kernel, by decide +kernel, by decide +kernel, by decide +kernel, ?_, by decide, by decide, by decide⟩
  simp only [redTable, List.forall_mem_cons]
  refine ⟨?_, ?_, ?_, List.forall_mem_nil _⟩ <;> decide +kernel

/-- A thread with `n` return addresses and `k` loops, whose g1 is a misaligned target. -/
def sFull (n k : Nat) : State := on .e { hart [0, 0x2002] {} with e := { thread [0, 0x2002] with
  rets := List.replicate n 0x1004, loops := List.replicate k { start := 0x1000, fin := 0x2000, count := 3, index := 1, lvl := 0 } } }
theorem test_meets_BranchAndJumpResults_traps : (∀ i ∈ [Instr.jmpr 1, .callr 1], Ready i [1] (sFull 0 0)) ∧
    ((sFull 0 0).thr.reg 1).toNat % 4 ≠ 0 ∧ Ready (.call 5) [] (sFull 1040 0) ∧ retLimit (sFull 1040 0) ≤ (sFull 1040 0).thr.rets.length ∧
    Ready .ret [] (sFull 0 0) ∧ (sFull 0 0).thr.rets = [] ∧ Ready (.boq 5) [] (sFull 0 0) ∧ (sFull 0 0).hart.bo = [] ∧
    (sFull 0 0).thr.wait = none ∧ (sFull 0 0).hart.waittimeout ≠ 0 ∧ (sMt false).who = .mt 1 := by unfold Ready; decide +kernel
theorem test_meets_LoopResults_depth : Ready (.loop 1 4) [1] (sFull 0 6) ∧ (sFull 0 6).thr.reg 1 ≠ 0 ∧ 6 ≤ (sFull 0 6).thr.loops.length ∧
    Ready (.loopi 99 4) [] (sFull 0 6) := by unfold Ready; decide +kernel
theorem test_meets_CsrResults_fields : (∀ n ∈ csrNums, csrFits (sE 2 0) n) ∧ (∀ i ∈ [Instr.csrwr 0 0x030, .csrset 0 0x030], Ready i [0] (sMt false) ∧
      csrFails i (sMt false) = false) ∧ (sMt false).hart.split ≠ 0 ∧
    Ready (.csrwr 1 0x108) [1] ({ sE 0 0 with dies := Vector.replicate 8 { bankBusy := true } }) ∧
    csrFails (.csrwr 1 0x108) { sE 0 0 with dies := Vector.replicate 8 { bankBusy := true } } = false := by
  unfold csrFits Ready; decide +kernel

/-- A scratchpad word that a load waits for, full or empty. -/
def sServe (empty : Bool) : State := on .e { hart [0, pad] {} with
  spadEmpty := if empty then [0] else []
  spadWait := [{ id := 4, core := ⟨0, 0, 0⟩, who := .e, fill := 0, op := .ldfe, word := 0, ea := pad, since := 0, bound := 1 }] }
theorem test_meets_TaggedWordResults_serve : ((sServe false).core.hart.spadWait.find?
      (fun x => decide (x.word = 0) && x.op.ready ((sServe false).core.hart.wordFull 0))).isSome = true ∧
    (sServe true).core.hart.spadWait.find? (fun x => decide (x.word = 0) && x.op.ready ((sServe true).core.hart.wordFull 0)) = none := by
  decide +kernel
theorem test_meets_VersionResults_wait : let s := (sR 3 1).setThr { (sR 3 1).thr with wait := some { kind := .floor, num := 1, since := 0, bound := 0 } }
    s.thr.floorWait = some 1 ∧ (∀ die : Fin 8, (1 : BitVec 32) ∉ region0.raised[die]) ∧ (sR 3 1).thr.floorWait = none ∧
    (sR 3 1).held true = false ∧ 0 < relTo region0.floor 5 := by decide +kernel

theorem test_meets_ExactFloatArithmetic_corners : (∃ f, ffmt 1 = some f) ∧ IntDest 0 8 true 8 0 (-128) 127 ∧ IntDest 9 2 true 2 0 (-1) 1 ∧
    IntDest 10 8 true 8 (-6) (-128) 127 ∧ IntDest 0 32 false 32 0 0 (2 ^ 32 - 1) ∧ ((-3 : Int) % 2 ^ 1 ≠ 0) ∧ (4 : Int) % 2 ^ 2 = 0 ∧
    (63 : Int) % 2 = 1 ∧ ffmt 0 = none := by
  unfold IntDest
  exact ⟨⟨_, rfl⟩, by decide, by decide, by decide, by decide, by decide, by decide, by decide, rfl⟩
theorem test_meets_MxBlockResults_corners : ∀ k ∈ mxKinds, (k.1 = 10 ∨ ∃ f, ffmt k.1 = some f) ∧ (0, (0 : Int)) ∉ mxKinds := by
  simp only [mxKinds, List.forall_mem_cons]
  exact ⟨⟨.inr ⟨_, rfl⟩, by decide⟩, ⟨.inr ⟨_, rfl⟩, by decide⟩, ⟨.inr ⟨_, rfl⟩, by decide⟩, ⟨.inr ⟨_, rfl⟩, by decide⟩,
    ⟨.inr ⟨_, rfl⟩, by decide⟩, ⟨.inl trivial, by decide⟩, List.forall_mem_nil _⟩
theorem test_meets_MxBlockResults_dot : numMul (.inf false) (.fin false 0 0) = (.nan, flagNV) ∧ magLe 1 3 9 0 ∧ ¬magLe 1 4 9 0 ∧ magLe 100 (-6) 127 (-6) ∧
    ¬magLe 128 (-6) 127 (-6) := by decide

/-- A vector memory instruction stopped at an element. -/
def MemEnd.stopsAt (n : Nat) : MemEnd → Bool
  | .stop _ vals j _ => decide (j = n) && decide (vals.length = n)
  | _ => false
theorem stop_of {m : MemEnd} {n : Nat} (h : MemEnd.stopsAt n m = true) : ∃ s vals j why, m = .stop s vals j why := by
  cases m <;> simp_all [MemEnd.stopsAt]
/-- `sVm` with g1 two bytes below the end of the mapped page and g2 a stride: element 1 lies beyond it. -/
def sEdge : State := (sM .e 0xFFFF 1 0).setHart (hart [0, 0xFFFF, 1]
  (lanes 2 (ewOf 4 4 8 false false false) 0 (column 4 [1, 15]) (column 4 [0, 1]) (column 8 [7, 9])))
theorem test_meets_VectorLoadResults_stops : (∀ row ∈ vloadTable 3 1 2 0, Ready row.1 row.2.1 sEdge) ∧
    (∀ w vb, vb = none ∨ vb = some 2 → ∃ i, MemReads w sEdge 0 none vb (some 3) (actives sEdge 0) sEdge i
      sEdge.est.vstart.toNat (live sEdge) ∧ i.dst = none ∧ i.base = laneBase sEdge.hart sEdge.who ∧ i.b = plainSrc sEdge vb) ∧
    ∀ row ∈ vloadTable 3 1 2 0, ∃ s2 vals j why, memLoop (readOne (row.2.2.2 sEdge { b := plainSrc sEdge row.2.2.1 })
      (memClass sEdge.est row.2.2.1) (ebOf sEdge.est.wd) sEdge.est.wd) (live sEdge) sEdge [] = .stop s2 vals j why := by
  refine ⟨by unfold Ready; decide +kernel, ?_, ?_⟩
  · rintro w vb (rfl | rfl) <;> exact memReads_plain (s := sEdge) (by decide +kernel) rfl
  · exact List.forall_mem_cons.2 ⟨stop_of (n := 1) (by decide +kernel), List.forall_mem_cons.2 ⟨stop_of (n := 1) (by decide +kernel),
      List.forall_mem_cons.2 ⟨stop_of (n := 1) (by decide +kernel), List.forall_mem_nil _⟩⟩⟩
theorem test_meets_VectorStoreResults_stops : (∀ row ∈ vstoreTable 3 1 2 0, Ready row.1 row.2.1 sEdge) ∧
    ∀ row ∈ vstoreTable 3 1 2 0, ∃ s2 vals j why, memLoop (checkOne (row.2.2.2 sEdge { b := plainSrc sEdge row.2.2.1 })
      (ebOf sEdge.est.wd)) (live sEdge) sEdge [] = .stop s2 vals j why := by
  refine ⟨by unfold Ready; decide +kernel, ?_⟩
  exact List.forall_mem_cons.2 ⟨stop_of (n := 1) (by decide +kernel), List.forall_mem_cons.2 ⟨stop_of (n := 1) (by decide +kernel),
      List.forall_mem_cons.2 ⟨stop_of (n := 1) (by decide +kernel), List.forall_mem_nil _⟩⟩⟩
/-- A pending destination of VSTART 1. -/
theorem test_meets_VectorLoadResults_resume : let s := sEdge.setEst { sEdge.est with
      vstart := 1, pending := some { vd := 3, planes := List.replicate 8 0, perRow := [], rows := [] } }
    ∃ q, s.est.pending = some q ∧ q.vd = 3 ∧ q.planes.length = 8 ∧ (0 : Nat) < 1 := ⟨_, rfl, rfl, by decide, by decide⟩
theorem test_meets_MxAndVersionedVectorResults_blocks : SpadBlocks (sD .e []) pad 0 4 0 [(0, [0, 31]), (15, [480])] := by
  unfold SpadBlocks
  exact ⟨.inl rfl, by decide, rfl, fun _ => rfl, by decide +kernel, by decide +kernel⟩
theorem test_meets_MxAndVersionedVectorResults_elements : (sVv 2).thr.wait = none ∧ canonical 0x8000_0000_0000_0000 = false ∧
    canonical 0x10004 = true ∧ (0x10004 : Word).toNat % 8 ≠ 0 ∧ (sVv 2).regionOf 0 0x18000 = none ∧
    (∃ r, VersionedAt (sVv 2) 0x10008 r ∧ verGone (r.floorAt 0x10008) (r.word 0x10008) 2 = false ∧ (r.word 0x10008).find 2 = some 5 ∧
      verGone (r.floorAt 0x10008) (r.word 0x10008) 0 = true ∧ (r.word 0x10008).find 3 = none ∧ (r.word 0x10008).live.length ≤ r.depth ∧
      (sVv 2).entryFree (versHome 0x10008) = true) ∧ 1 ∈ live (sVv 2) :=
  ⟨rfl, by decide, by decide, by decide, by decide +kernel, ⟨_, ⟨by decide, by decide, rfl⟩, by decide +kernel⟩, by decide +kernel⟩

/-- Two sub-strips of v1, the first of them done when `r`, or a forced stop due at element 1,024 when `c`. -/
def sLong (r c : Bool) : State := on .e { hart [0, 5, 1] { (lanes 2000 (ewOf 4 4 8 true true true) 0x111 (column 4 [1, 15]) {} {}) with
    vstart := if r then 1024 else 0, vrstate := if r then 5 else 0 } with
  e := { thread [0, 5, 1] with cut := if c then some 1024 else none } }
theorem startsAt_long (r c : Bool) : StartsAt (sLong r c) 1 { planes := ((sLong r c).est.vreg 1).planes } (if r then 1024 else 0) := by
  cases r <;> cases c
  all_goals refine ⟨by decide +kernel, ⟨rfl, rfl, rfl, rfl⟩, ?_⟩
  · exact .inl ⟨rfl, .inl ⟨by decide +kernel, rfl⟩⟩
  · exact .inl ⟨rfl, .inl ⟨by decide +kernel, rfl⟩⟩
  · exact .inr (.inl ⟨by decide, by decide +kernel, rfl⟩)
  · exact .inr (.inl ⟨by decide, by decide +kernel, rfl⟩)
theorem test_meets_ReductionResults_goesOn : (∀ r ∈ [false, true], ∀ c ∈ [false, true], ∀ i ∈ [Instr.vredsum 3 1 2 0, .vredand 3 1 2 0,
      .vredor 3 1 2 0, .vredmin 3 1 2 0, .vredmax 3 1 2 0, .fredsum 3 1 2 0, .fredmax 3 1 2 0], Ready i [2] (sLong r c) ∧ Free [3] (sLong r c)) ∧
    (sLong true true).thr.fillRoom = true ∧ laneBase (sLong true true).hart (sLong true true).who + (sLong true true).est.vl ≤ primaryLanes (sLong true true) ∧
    (sLong true true).est.vrstate = word 5 ∧ (5 : Nat) < 2 ^ (sLong true true).est.wd ∧ cutsAt (sLong false false) 0 = none ∧
    cutsAt (sLong false true) 0 = some 1 ∧ cutsAt (sLong true true) 1024 = some 1 ∧ cutsAt (sLong true false) 1024 = none := by
  unfold Ready Free; decide +kernel
theorem test_meets_ArgReductionResults_goesOn : (∀ i ∈ [Instr.vargmax 30 1 2 0, .vargmin 30 1 2 0, .fargmax 30 1 2 0], Ready i [2] (sLong true true)) ∧
    Free [30, 31] (sLong true true) ∧ bestEnc (false, 5) 0 = (sLong true true).est.vrstate := by unfold Ready Free; decide +kernel
theorem test_meets_ScanAndPackResults_goesOn : (∀ i ∈ [Instr.vscansum 3 1 0, .vscanmax 3 1 0, .vscanmin 3 1 0, .fscansum 3 1 0, .vcompress 3 1 0,
      .vexpand 3 1 0], ∀ r ∈ [false, true], ∀ c ∈ [false, true], Ready i [] (sLong r c)) ∧ Dest (sLong true true) 3 none ∧
    partEnc (some 5) = (sLong true true).est.vrstate ∧ ∀ cs, ∃ t, StripsFrom none 1024 cs (sLong true false) t ∧ CleanLanes t :=
  ⟨by unfold Ready; decide +kernel, ⟨by decide +kernel, nofun⟩, by decide +kernel,
    fun cs => ⟨sLong true false, by cases cs <;> rfl, rfl, rfl, rfl, rfl⟩⟩

/-! ## The hypotheses of the statements are met: sources, tasks and teams -/

/-- A thread whose g1 is empty, with a wait on it that began at GTS 0 when `w`. -/
def sEmpty (timeout : BitVec 32) (w : Bool) : State := on .e { hart [0, 0, 7] {} with
  waittimeout := timeout
  e := { thread [0, 0, 7] with full := 0xFFFF_FFFD, wait := if w then some { kind := .reg, num := 1, since := 0, bound := 0 } else none } }
theorem test_meets_ChecksTrapBeforeAnyEffect_empties : (∀ m ∈ [(0 : BitVec 1), 1], gate (encode (.add 3 2 1 0 m)) (sEmpty 5 false) = none) ∧
    (sEmpty 5 false).core.resident = true ∧ (∀ x ∈ [((2 : BitVec 5), (0 : BitVec 1))], (sEmpty 5 false).thr.isFull x.1 = true) ∧
    (sEmpty 5 false).thr.isFull 1 = false ∧ (sEmpty 5 false).thr.wait = none ∧ (sEmpty 5 false).hart.waittimeout ≠ 0 ∧
    (sEmpty 0 false).hart.waittimeout = 0 ∧ gate (encode (.add 3 1 2 0 0)) (sEmpty 5 true) = none ∧
    (sEmpty 5 true).thr.wait = some { kind := .reg, num := 1, since := 0, bound := 0 } := by decide +kernel
/-- E at the last instruction of a loop with a prefix pending, as user. -/
def sAtEnd : State := on .e { hart [] { pfx := { pend := true } } with e := { thread [] with
  super := false, loops := [{ start := 0x1000, fin := 0x1000, count := 3, index := 1, lvl := 0 }] } }
theorem test_meets_ChecksTrapBeforeAnyEffect_checks : executeOnly (encode (.vldl 0 1 0)) ∧ privWord (encode .rett) ∧ ¬privWord (encode (.csrrd 1 0x0FF)) ∧
    privWord (encode (.csrrd 1 0x100)) ∧ transferWord (encode .lexit) ∧
    ¬transferWord (encode (.add 1 2 3 0 0)) ∧ sAtEnd.thr.super = false ∧ sAtEnd.est.pfx.pend = true := by
  unfold executeOnly privWord transferWord; decide +kernel
theorem test_meets_ChecksTrapBeforeAnyEffect_loops : atEnd sAtEnd.thr ∧ endsBeyond sAtEnd.thr (encode (.loop 1 4)) ∧ ¬atEnd (sE 0 0).thr ∧
    ¬endsBeyond sAtEnd.thr (encode (.add 1 2 3 0 0)) :=
  ⟨⟨_, _, rfl, rfl, rfl⟩, ⟨by decide +kernel, _, _, rfl, rfl, by decide +kernel⟩, (by rintro ⟨x, r, h, -⟩; cases h),
    by rintro ⟨h, -⟩; revert h; decide +kernel⟩

/-- A task whose parts have all been released, to create version `v` of the word at 0x10000, and a fill that its part still owes. -/
def sDrain (v : Nat) (owed : Bool) : State :=
  let s := (sTile .drain 0 .running tileRecord).setSlot 0 0 63 (fun t => { t with
      record := (tileRecord.set 12 0x10000).set 13 (if v = 0 then 0 else word (2 ^ 63 + v))
      parts := [{ core := 0, hart := 0, released := 1, owed := [(.e, .fill 0)] }] })
  { s with core := { s.core with hart := { s.core.hart with e := { s.core.hart.e with
      fills := if owed then [{ id := 0, dests := [3], src := .tagged }] else [] } } } }
theorem test_meets_TileEventResults_drains : (∀ v ∈ [0, 1, 2, 3], ((sDrain v false).slot 0 0 63).state = .drain ∧
      (∀ p ∈ ((sDrain v false).slot 0 0 63).parts, p.released = tWindows ((sDrain v false).slot 0 0 63).record) ∧
      (tVers ((sDrain v false).slot 0 0 63).record 12).1 = decide (v ≠ 0)) ∧
    ((sDrain 3 false).getCore c0).stillOwes (.e, .fill 0) = false ∧ ((sDrain 3 true).getCore c0).stillOwes (.e, .fill 0) = true ∧
    (sDrain 3 false).regionOf 0 0x10000 = some region0 ∧ (sDrain 3 false).madeBy (.tile 0 0 63) = none ∧ (sDrain 3 false).making = [] ∧
    verGone (region0.floorAt 0x10000) (region0.word 0x10000) 0 = true ∧ verGone (region0.floorAt 0x10000) (region0.word 0x10000) 3 = false ∧
    (region0.word 0x10000).find 2 = some 77 ∧ (region0.word 0x10000).find 3 = none ∧ (region0.word 0x10000).live.length ≤ region0.depth ∧
    (sDrain 3 false).entryFree (versHome 0x10000) = true := by decide +kernel
theorem test_meets_TileEventResults_ends : (∀ p ∈ ((sDrain 3 false).slot 0 0 63).parts, 0 ≤ p.committed) ∧
    (∃ p ∈ ((sDrain 3 false).slot 0 0 63).parts, p.committed = 0) ∧ (∃ x, assocFind (sDrain 3 false).teams 9 = some x ∧ x.state = .running ∧
      x.cores[0]? = some 0) ∧ ((sDrain 3 false).getCore c0).hart.evq.length < 256 :=
  ⟨by decide +kernel, by decide +kernel, ⟨_, rfl, rfl, rfl⟩, by decide +kernel⟩
theorem test_meets_TileEventResults_commits : let s := sTile .running 0 .running (tileRecord.set 0 0x401_0000_0000)
    ∃ p, (s.slot 0 0 63).parts[0]? = some p ∧ p.committed = (s.slot 0 0 63).window ∧ p.released = (s.slot 0 0 63).window ∧
      (s.getCore c0).resident = true ∧ (s.getCore c0).hart.split = 0 ∧ (s.getCore c0).hart.ds = false ∧ tPreg (s.slot 0 0 63).record ≠ tXreg (s.slot 0 0 63).record ∧
      ((s.getCore c0).hart.ex.freshRows 40).length = 40 :=
  ⟨_, rfl, rfl, rfl, rfl, rfl, rfl, by decide +kernel, by decide +kernel⟩

/-- A hart whose scale registers have their 512 bytes. -/
def imageHart : Hart := { parkedHart with scales := Vector.replicate 16 (List.replicate 512 0) }
theorem test_meets_DroverEventResults_saved : ∃ x, assocFind (sTeam .parking imageHart).teams 9 = some x ∧ x.ids = [c0] ∧
    (∀ k ∈ x.ids, Tame ((sTeam .parking imageHart).getCore k).hart) ∧
    Apart (x.ids.map (fun k => (((sTeam .parking imageHart).getCore k).hart.ctxbase, 0x21_C000)) ++
      ((sTeam .parking imageHart).teamSlots 9 x).map (fun y => ((x.areas.getLastD (0, 0)).1 + 2048 * y.1, 2048))) ∧
    ∀ k ∈ x.ids, let b := ((sTeam .parking imageHart).getCore k).hart.ctxbase; 0x21_C000 < b ∨ b + 0x21_C000 ≤ 0x21_C000 := by
  refine ⟨_, rfl, by decide +kernel, ?_, ?_, by decide +kernel⟩
  · unfold Tame; decide +kernel
  · unfold Apart; decide +kernel
theorem test_meets_DroverEventResults_restored : ∃ x, assocFind (sTeam .saved (hart [] {})).teams 9 = some x ∧
    (((sTeam .saved (hart [] {})).freeCores 0 0).take x.cores.length).length = x.saved.length ∧
    (((sTeam .saved (hart [] {})).freeCores 0 0).take x.cores.length).Nodup := ⟨_, rfl, by decide +kernel, by decide +kernel⟩
theorem test_meets_DroverEventResults_placed : let s := sLa (fun l => { l with state := .live }) (ctx0 false false 0)
    ∃ l, assocFind s.launches 1 = some l ∧ ((s.freeCores 0 0).take l.teamSize).length = l.teamSize ∧
      ((s.freeCores 0 0).take l.teamSize).Nodup ∧ assocFind s.teams (s.nextId + 1) = none := ⟨_, rfl, by decide +kernel, by decide +kernel, rfl⟩
/-- A translation for the Drover succeeded. -/
def Xlate.isOk : Xlate → Bool
  | .ok _ _ _ => true
  | _ => false
theorem addr_of {x : Xlate} (h : Xlate.isOk x = true) : ∃ p t s, x = .ok p t s := by cases x <;> simp_all [Xlate.isOk]
theorem test_meets_DroverEventResults_completes : cCw [0x10000, 0, 0, 0, 0, 0, 0, 0x30000] = true ∧ cCw [0, 0, 0, 0, 0, 0, 0, 0x30000] = false ∧
    ∃ p t s, drvXlate (sCmd []) none 0 .write 0x30000 = .ok p t s := ⟨by decide +kernel, by decide +kernel, addr_of (by decide +kernel)⟩

/-! ## The hypotheses of the statements are met: links, registers, waits -/

theorem test_meets_LinkAndGroupEventResults_retrain : ((sL { lastFlit := 10000 }).link 4).trainEnd = none ∧ ((sL { lastFlit := 10000 }).link 4).replay = [] ∧
    ((sL { lastFlit := 10000 }).link 4).lastFlit + 10000 ≤ (sL {}).gts ∧ (sL {}).gts < 10001 + 10000 ∧
    ((sL { failedAt := some 20000, replay := [flit 2 5 []] }).link 4).failedAt = some 20000 ∧
    20000 + 100000000 ≤ ({ sL {} with gts := 100020000 } : State).gts ∧ ((sL { failedAt := some 20000, replay := [flit 2 5 []] }).link 4).replay ≠ [] ∧
    (∀ t ∈ [20000, 20001], ((sL { width := .x8high, failed := [0], trainEnd := some t }).link 4).trainEnd = some t ∧
      ((sL { width := .x8high, failed := [0], trainEnd := some t }).link 4).standby = false) ∧ (sL {}).gts = 20000 := by decide +kernel
/-- Group 7 with its root elsewhere. -/
def sAway (f : Flit) : State := { sRx f with mgmt := { groups := [{ num := 7, members := [(0, c0), (9, ⟨1, 1, 1⟩)], root := 8, last := 5, any := true
                                                                    posts := [(6, 1, 0, 0)] }] } }
theorem test_meets_LinkAndGroupEventResults_forwards : ∃ g, (sAway (postFlit 6 1)).group 7 = some g ∧ (sAway (postFlit 6 1)).nodes.contains g.root = false ∧
    g.members.length < 1696 ∧ (∃ m ∈ g.members, (sAway (postFlit 6 1)).nodes.contains m.1 = false) ∧ localMask (sAway (postFlit 6 1)) g = 1 ∧
    g.posted 6 &&& 1 = 1 ∧ g.posted 7 &&& 1 ≠ 1 := ⟨_, rfl, by decide +kernel, by decide, ⟨_, .tail _ (.head _), by decide +kernel⟩,
      by decide +kernel, by decide +kernel, by decide +kernel⟩

/-- A ring whose first record has waited long enough, or one nanosecond less. -/
def sGoes (g : Nat) : State := { (sRing true 4 1) with gts := item.record.gts + g }
theorem test_meets_HostRegisterEventResults_goes : (sGoes 250).ring.en = true ∧ (sGoes 250).asleep = false ∧ (sGoes 250).ring.buf = [item.record] ∧
    item.record.gts + 250 ≤ (sGoes 250).gts ∧ ¬item.record.gts + 250 ≤ (sGoes 249).gts ∧
    ((sGoes 250).ring.tail - (sGoes 250).ring.head).toNat ≠ 2 ^ ((sGoes 250).ring.lsize.toNat + 4) ∧
    (sGoes 250).owned none (.phys ((sGoes 250).ring.base.toNat + 32 * 4)) = false ∧ (sGoes 250).mgmt.bootFailed = false := by decide +kernel

/-- A load of g3 from [g1] that a migration of its page stalls; `w` that it waits for an event. -/
def sStall (w : Bool) : State := { on .e { hart [0, 0x4000_0000] {} with
    e := { thread [0, 0x4000_0000] with wait := if w then some { kind := .event, num := 0, since := 0, bound := 1 } else none } } with
  ctxs := [ctx0 false false 0]
  mem := memWrite (memWrite tables 0x300008 (bytesOf 8 (2 ^ 56 + 0x4000_00DF))) 0x1000 (bytesOf 4 (encode (.ldd 3 1 0 0)).toNat) }
theorem test_meets_FillAndWaitEventResults_stalled : (sStall false).thr.wait = none ∧ (sStall false).thr.cut = none ∧
    ((sStall false).stalledAccess).isSome = true ∧ (sStall true).thr.wait.isSome = true ∧ (sE 0 0).stalledAccess = none := by decide +kernel
theorem test_meets_FillAndWaitEventResults_load : let s := (sM .e 0x100 5 0).setThr { (sM .e 0x100 5 0).thr with
      full := 0xFFFF_FFF7, fills := [{ id := 0, dests := [3], src := .load 3 0x100 }] }
    s.thr.fills.find? (fun f => decide (f.id = 0)) = some { id := 0, dests := [3], src := .load 3 0x100 } ∧
    ∃ p u1, resolveThr (s.focus c0 .e) .read 0x100 (loadForm 3).1 = .ok p u1 ∧ u1.poisonedAt p (loadForm 3).1 = false :=
  ⟨by decide +kernel, _, _, rfl, by decide +kernel⟩
/-- E in a wait. -/
def sIn (w : Wait) : State := (sR 0x10000 2).setThr { (sR 0x10000 2).thr with wait := some w }
theorem test_meets_FillAndWaitEventResults_close : (∀ v ∈ [(0 : Nat), 1], ∃ x, ((sIn { kind := .update, num := word v, since := 0, bound := 0 }).getCore c0).hart.e.wait
      = some x ∧ x.kind = .update ∧ (sIn { kind := .update, num := word v, since := 0, bound := 0 }).syncDone x.num.toNat = true) ∧
    (∃ x q, (sSettled .room (some 5) .made).thr.wait = some x ∧ x.op = .store ∧ x.asks = [q] ∧ q.ended = some .made) ∧
    (∃ x, (sIn { kind := .tagged, num := 4, since := 0, bound := 1, served := true }).thr.wait = some x ∧ x.kind = .tagged ∧ x.served = true) ∧
    { sIn { kind := .update, num := 1, since := 0, bound := 0 } with
      syncMsgs := (Vector.replicate 8 []).set 7 [{ reg := 3, upd := 1, val := 5 }] }.syncDone 1 = false :=
  ⟨List.forall_mem_cons.2 ⟨⟨_, rfl, rfl, by decide +kernel⟩, List.forall_mem_cons.2 ⟨⟨_, rfl, rfl, by decide +kernel⟩, List.forall_mem_nil _⟩⟩,
    ⟨_, _, rfl, rfl, rfl, rfl⟩, ⟨_, rfl, rfl, rfl⟩, by decide +kernel⟩

end Sys2Proof.Tests
end

section
/-! PROOFS. The memory stays canonical (O59), part 1: what it means of the answers of translations, instructions and
engines. In these parts a lemma `State.f_mem` says that `f` leaves memory alone, and a lemma `memOk_f` that `f` keeps it
canonical; a function that takes a continuation keeps it canonical if the continuation does. -/

namespace Sys2Proof.Machine

/-! ## What "the memory stays canonical" means of each kind of answer -/

/-- The states that a translation leaves are canonical. -/
@[simp] def Xlate.memOk : Xlate → Prop
  | .ok _ _ s => s.memOk
  | .fail _ s => s.memOk
  | .stall s => s.memOk

@[simp] def Resolved.memOk : Resolved → Prop
  | .ok _ s => s.memOk
  | .fail _ s => s.memOk
  | .stall s => s.memOk

@[simp] def Fetched.memOk : Fetched → Prop
  | .ok _ s => s.memOk
  | .fail _ s => s.memOk
  | .stall s => s.memOk

@[simp] def Res.memOk : Res → Prop
  | .adv s => s.memOk
  | .go s => s.memOk
  | .trap s _ _ => s.memOk
  | .advTrap s _ _ => s.memOk
  | .block s _ _ _ _ _ => s.memOk
  | .ask s _ _ _ _ _ _ => s.memOk
  | .stall s => s.memOk

@[simp] def Out.memOk : Out → Prop
  | .next s => s.memOk
  | .fault _ => True
  | .refused _ => True

@[simp] def ElemRead.memOk : ElemRead → Prop
  | .ok _ s => s.memOk
  | .stall => True

@[simp] def AddrRead.memOk : AddrRead → Prop
  | .ok _ s => s.memOk
  | .bad _ s => s.memOk
  | .stall => True

@[simp] def SlotRead.memOk : SlotRead → Prop
  | .ok _ s => s.memOk
  | .bad _ s => s.memOk
  | .stall => True

@[simp] def WriteCheck.memOk : WriteCheck → Prop
  | .ok s => s.memOk
  | .bad _ _ s => s.memOk
  | .stall _ s => s.memOk

@[simp] def Create.memOk : Create → Prop
  | .done s => s.memOk
  | .gone => True
  | .dup => True
  | .full => True

@[simp] def Made.memOk : Made → Prop
  | .done s => s.memOk
  | .gone => True
  | .dup => True
  | .wait s => s.memOk

@[simp] def TileRead.memOk : TileRead → Prop
  | .ok s _ => s.memOk
  | .fail s _ _ => s.memOk
  | .stall => True
  | .full => True

@[simp] def DrvRead.memOk : DrvRead → Prop
  | .ok _ s => s.memOk
  | .fail s => s.memOk
  | .stall => True

@[simp] def DrvWrite.memOk : DrvWrite → Prop
  | .ok s => s.memOk
  | .fail s => s.memOk
  | .stall => True

@[simp] def Slot.memOk : Slot → Prop
  | .record _ s => s.memOk
  | .fault s => s.memOk
  | .none => True

@[simp] def BobRes.memOk : BobRes → Prop
  | .ok s => s.memOk
  | .bad s _ _ => s.memOk
  | .stall => True

@[simp] def BobEnd.memOk : BobEnd → Prop
  | .ended s _ _ _ => s.memOk
  | .paused s _ => s.memOk

@[simp] def RecEnd.memOk : RecEnd → Prop
  | .done s _ => s.memOk
  | .bad s _ _ _ _ => s.memOk
  | .stall => True

@[simp] def MemOne.memOk : MemOne → Prop
  | .ok s _ => s.memOk
  | .stop s _ => s.memOk

@[simp] def MemEnd.memOk : MemEnd → Prop
  | .all s _ => s.memOk
  | .stop s _ _ _ => s.memOk

@[simp] def BlockRead.memOk : BlockRead → Prop
  | .ok s _ => s.memOk
  | .fail s _ _ => s.memOk
  | .stall s => s.memOk

/-! ## Folds and conditionals over states -/

@[simp] theorem State.ite_mem (c : Prop) [Decidable c] (a b : State) :
    (if c then a else b).mem = if c then a.mem else b.mem :=
  apply_ite State.mem c a b

@[simp] theorem State.dite_mem (c : Prop) [Decidable c] (a : c → State) (b : ¬c → State) :
    (if h : c then a h else b h).mem = if h : c then (a h).mem else (b h).mem :=
  apply_dite State.mem c a b

/-- A fold of steps that leave memory alone leaves memory alone. -/
theorem foldl_mem {α : Type} {f : State → α → State} (hf : ∀ s a, (f s a).mem = s.mem) (l : List α) (s : State) :
    (l.foldl f s).mem = s.mem := by
  induction l generalizing s with
  | nil => rfl
  | cons a l ih => rw [List.foldl_cons, ih, hf]

/-- A fold of steps that keep memory canonical keeps it canonical. -/
theorem foldl_memOk {α : Type} {f : State → α → State} (hf : ∀ s a, s.memOk → (f s a).memOk) {l : List α}
    {s : State} (h : s.memOk) : (l.foldl f s).memOk := by
  induction l generalizing s with
  | nil => exact h
  | cons a l ih => exact ih (hf s a h)

/-- A state that may be there, or else another one. -/
theorem memOk_getD {o : Option State} {s : State} (ho : ∀ t ∈ o, t.memOk) (h : s.memOk) : (o.getD s).memOk := by
  cases o with
  | none => exact h
  | some t => exact ho t rfl

end Sys2Proof.Machine
end

section
/-! PROOFS. The memory stays canonical, part 2: the state's operations, translation, access and ownership of lines. -/

namespace Sys2Proof.Machine

@[simp] theorem State.focus_mem (s : State) (c : CoreId) (w : Who) : (s.focus c w).mem = s.mem := by
  unfold State.focus
  split <;> simp

@[simp] theorem State.setDie_mem (s : State) (n : Nat) (f : Die → Die) : (s.setDie n f).mem = s.mem := by
  simp [State.setDie]

@[simp] theorem State.setCluster_mem (s : State) (d n : Nat) (f : Cluster → Cluster) :
    (s.setCluster d n f).mem = s.mem := by
  simp [State.setCluster]

@[simp] theorem State.touchL2_mem (s : State) (line : Nat) (keep : Bool) : (s.touchL2 line keep).mem = s.mem := by
  grind [State.touchL2, State.setDie_mem]

@[simp] theorem State.holdHost_mem (s : State) (line : Nat) (excl : Bool) : (s.holdHost line excl).mem = s.mem := by
  simp [State.holdHost]

@[simp] theorem State.ownHost_mem (s : State) (lines : List Nat) : (s.ownHost lines).mem = s.mem := by
  simp [State.ownHost, foldl_mem]

@[simp] theorem memOk_storeAt {s : State} (h : s.memOk) {c : Option CoreId} {p : Place} {bs : List Byte} :
    (s.storeAt c p bs).memOk := by
  cases p with
  | spad o off => simpa [State.storeAt, State.memOk] using h
  | phys pa => simpa [State.storeAt, State.memOk] using memOk_physStore h pa bs

@[simp] theorem State.poisonPart_mem (s : State) (part : Nat) : (s.poisonPart part).mem = s.mem := by
  simp [State.poisonPart]

@[simp] theorem State.moveMet_mem (s : State) (c : CoreId) (p : Place) (n : Nat) : (s.moveMet c p n).mem = s.mem := by
  unfold State.moveMet
  split <;> simp

@[simp] theorem State.movedTo_mem (s : State) (c : CoreId) (p : Place) (n : Nat) : (s.movedTo c p n).mem = s.mem := by
  unfold State.movedTo
  split
  · cases p <;> simp [foldl_mem]
  · rfl

@[simp] theorem State.shareLine_mem (s : State) (c : Option CoreId) (line : Nat) : (s.shareLine c line).mem = s.mem :=
  rfl

@[simp] theorem State.touch_mem (s : State) (c : CoreId) (pa : Nat) (write : Bool) :
    (s.touch c pa write).mem = s.mem := by
  simp [State.touch]

@[simp] theorem State.touchDirect_mem (s : State) (pa : Nat) (keep : Bool) : (s.touchDirect pa keep).mem = s.mem := by
  simp [State.touchDirect]

@[simp] theorem State.walked_mem (s : State) (v root : Nat) : (s.walked v root).mem = s.mem := by
  simp [State.walked, foldl_mem]

@[simp] theorem State.recordLeaf_mem (s : State) (leaf frame size : Nat) :
    (s.recordLeaf leaf frame size).mem = s.mem := by
  simp [State.recordLeaf]

@[simp] theorem memOk_setEntry {s : State} (h : s.memOk) {addr : Nat} {e : Word} : (s.setEntry addr e).memOk := by
  simpa [State.setEntry, State.memOk] using memWf_memWrite h _ _

@[simp] theorem memOk_translate {s : State} (h : s.memOk) {tlb : List TlbEntry} {cap ctx : Nat} {user : Bool}
    {acc : Access} {va : Word} : (translate s tlb cap ctx user acc va).memOk := by
  grind [translate, Xlate.memOk, State.recordLeaf_mem, State.walked_mem, memOk_setEntry]

@[simp] theorem memOk_xlate {s : State} (h : s.memOk) {before : Option Nat} {tlb : List TlbEntry} {cap ctx : Nat}
    {user : Bool} {acc : Access} {va : Word} : (s.xlate before tlb cap ctx user acc va).memOk := by
  grind [State.xlate, Xlate.memOk, memOk_translate]

@[simp] theorem memOk_behind {r : Resolved} (h : r.memOk) {before : Option Nat} {n : Nat} :
    (r.behind before n).memOk := by
  cases r with
  | ok p s => simp only [Resolved.behind]; split <;> exact h
  | fail c s => exact h
  | stall s => exact h

@[simp] theorem memOk_resolveWith {s : State} (h : s.memOk) {before : Option Nat} {c : CoreId} {ctx : Nat}
    {window : Nat → Option Place} {user : Bool} {acc : Access} {va : Word} {align : Nat} :
    (resolveWith s before c ctx window user acc va align).memOk := by
  grind [resolveWith, Resolved.memOk, Xlate.memOk, State.setCore_mem, memOk_xlate]

@[simp] theorem memOk_resolve {s : State} (h : s.memOk) {c : CoreId} {user : Bool} {acc : Access} {va : Word}
    {align : Nat} : (resolve s c user acc va align).memOk := memOk_behind (memOk_resolveWith h)

@[simp] theorem memOk_resolveThr {s : State} (h : s.memOk) {acc : Access} {va : Word} {size : Nat} :
    (resolveThr s acc va size).memOk := by
  grind [resolveThr, Resolved.memOk, memOk_resolve]

end Sys2Proof.Machine
end

section
/-! PROOFS. The memory stays canonical, part 3: issue, traps, lanes, spools and the engines' accesses. -/

namespace Sys2Proof.Machine

@[simp] theorem State.postCore_mem (s : State) (c : CoreId) (r : EvRec) : (s.postCore c r).mem = s.mem := by
  simp [State.postCore]

@[simp] theorem State.postHart_mem (s : State) (team hartid : Nat) (c : CoreId) (r : EvRec) :
    (s.postHart team hartid c r).mem = s.mem := by
  unfold State.postHart
  repeat' split
  all_goals simp

@[simp] theorem memOk_ringWrite {s : State} (h : s.memOk) {r : EvRec} : (s.ringWrite r).memOk := by
  grind [State.ringWrite, State.recall_mem, memOk_physStore]

@[simp] theorem State.postHost_mem (s : State) (r : EvRec) : (s.postHost r).mem = s.mem := by
  simp [State.postHost]

@[simp] theorem memOk_flushRing {s : State} (h : s.memOk) {n : Nat} : (s.flushRing n).memOk := by
  induction n generalizing s with
  | zero => exact h
  | succ n ih => grind [State.flushRing, memOk_ringWrite]

@[simp] theorem State.startFill_mem (s : State) (dests : List (BitVec 5)) (src : FillSrc) :
    (s.startFill dests src).mem = s.mem := rfl

@[simp] theorem State.askHarts_mem (s : State) (t : Team) (us : Option Nat) : (s.askHarts t us).mem = s.mem := by
  simp [State.askHarts, foldl_mem]

@[simp] theorem State.failContext_mem (s : State) (c : Cause) (pc : Word) : (s.failContext c pc).mem = s.mem := by
  grind [State.failContext, State.askHarts_mem, State.postHost_mem]

@[simp] theorem State.doubleTrap_mem (s : State) (c : Cause) (pc : Word) : (s.doubleTrap c pc).mem = s.mem := by
  simp [State.doubleTrap]

@[simp] theorem memOk_tryTrap {s : State} (h : s.memOk) {c : Cause} {val pc : Word} :
    ∀ t ∈ (s.tryTrap c val pc), t.memOk := by
  grind [State.tryTrap, Resolved.memOk, State.doubleTrap_mem, State.setEst_mem, State.setHart_mem, State.setThr_mem,
    memOk_resolve]

@[simp] theorem memOk_takeTrap {s : State} (h : s.memOk) {c : Cause} {val pc : Word} : (s.takeTrap c val pc).memOk :=
  memOk_getD (memOk_tryTrap h) h

@[simp] theorem State.returnTrap_mem (s : State) : (s.returnTrap).mem = s.mem := by
  unfold State.returnTrap
  split <;> simp

@[simp] theorem State.noWait_mem (s : State) : (s.noWait).mem = s.mem := rfl

@[simp] theorem memOk_waitStep {s : State} (h : s.memOk) {k : WaitKind} {n : Word} {bound : Nat} {c : Cause}
    {v : Word} : (waitStep s k n bound c v).memOk := by
  grind [waitStep, State.setThr_mem, memOk_takeTrap]

@[simp] theorem memOk_askStep {s : State} (h : s.memOk) {k : WaitKind} {n : Word} {qs : List VersAsk} {op : VersOp}
    {c : Cause} {v : Word} : (askStep s k n qs op c v).memOk := by
  grind [askStep, State.setThr_mem, memOk_takeTrap]

@[simp] theorem memOk_waitOn {s : State} (h : s.memOk) {k : WaitKind} {kind num : Nat} :
    (waitOn s k kind num).memOk := by
  simp [waitOn, State.memOk, h]

/-- Whatever an instruction's body answers, the state after it is canonical if the answer's is. -/
theorem memOk_finish {r : Res} (h : r.memOk) : (finish r).memOk := by
  cases r with
  | adv s => exact h
  | go s => exact h
  | trap s c v => exact memOk_takeTrap h
  | advTrap s c v =>
    exact memOk_getD (memOk_tryTrap (s := s.setThr _) h) h
  | block s k n b c v => exact memOk_waitStep h
  | ask s k n qs op c v => exact memOk_askStep h
  | stall s => simp only [finish]; split <;> exact h

theorem memOk_issue {s : State} (h : s.memOk) {w : BitVec 32} {srcs : List (BitVec 5 × BitVec 1)} {body : State → Res}
    (hb : (body s).memOk) : (issue w srcs s body).memOk := by
  unfold issue
  split
  · trivial
  · refine memOk_finish ?_
    grind [Res.memOk, memOk_waitOn]

@[simp] theorem memOk_writeReg {s : State} (h : s.memOk) {d : BitVec 5} {v : Word} : (writeReg s d v).memOk := by
  grind [writeReg, Res.memOk, State.setThr_mem]

theorem memOk_notSplit {s : State} (h : s.memOk) {w : BitVec 32} {k : State → Res} (hk : (k s).memOk) :
    (notSplit w s k).memOk := by
  grind [notSplit, Res.memOk]

@[simp] theorem memOk_jumpTo {s : State} (h : s.memOk) {target : Word} : (jumpTo s target).memOk := by
  grind [jumpTo, Res.memOk, State.setThr_mem]

@[simp] theorem memOk_fetch {s : State} (h : s.memOk) : (fetch s).memOk := by
  grind [fetch, Fetched.memOk, Xlate.memOk, State.touchDirect_mem, memOk_xlate]

@[simp] theorem State.tick_mem (s : State) (ns : Nat) : (s.tick ns).mem = s.mem := rfl

@[simp] theorem State.withdrawTag_mem (s : State) (id : Nat) : (s.withdrawTag id).mem = s.mem := rfl

@[simp] theorem memOk_putRows {s : State} (h : s.memOk) {lanes : Plane} {l : List Plane} {n : Nat} :
    (s.putRows lanes l n).memOk := by
  induction l generalizing s n with
  | nil => exact h
  | cons p ps ih => exact ih (memWf_memWrite h _ _)

@[simp] theorem State.halved_mem (s : State) : (s.halved).mem = s.mem := by
  simp [State.halved]

@[simp] theorem State.markReplaced_mem (s : State) (u : ScoreUnit) : (s.markReplaced u).mem = s.mem := rfl

@[simp] theorem State.repairLane_mem (s : State) (segment lane : Nat) : (s.repairLane segment lane).mem = s.mem := by
  simp [State.repairLane]

@[simp] theorem State.moveChannel_mem (s : State) (stack channel : Nat) :
    (s.moveChannel stack channel).mem = s.mem := by
  simp [State.moveChannel]

@[simp] theorem State.scoreActs_mem (s : State) (u : ScoreUnit) : (s.scoreActs u).mem = s.mem := by
  unfold State.scoreActs
  repeat' split
  all_goals simp

@[simp] theorem State.score_mem (s : State) (u : ScoreUnit) (n : Nat) : (s.score u n).mem = s.mem := by
  simp [State.score]

@[simp] theorem State.scoreLane_mem (s : State) (c : CoreId) (lane n : Nat) : (s.scoreLane c lane n).mem = s.mem := by
  simp [State.scoreLane]

@[simp] theorem State.retireRow_mem (s : State) (c : CoreId) (x : Nat × Nat) : (s.retireRow c x).mem = s.mem := by
  simp [State.retireRow]

@[simp] theorem State.retireGroup_mem (s : State) (c : CoreId) (g : Nat) : (s.retireGroup c g).mem = s.mem := by
  grind [State.retireGroup, State.score_mem, State.setCore_mem]

@[simp] theorem State.retireSuspect_mem (s : State) (c : CoreId) (l : Nat) : (s.retireSuspect c l).mem = s.mem := by
  simp [State.retireSuspect]

@[simp] theorem State.remapCore_mem (s : State) (c : CoreId) : (s.remapCore c).mem = s.mem := by
  simp [State.remapCore, foldl_mem]

@[simp] theorem State.parityFailed_mem (s : State) (marks : List (Nat × Nat × Nat)) :
    (s.parityFailed marks).mem = s.mem := by
  simp [State.parityFailed, foldl_mem]

/-- Whether or not a comparison fails, the state that goes with the answer is the same. -/
theorem elim_pair_snd (o : Option Nat) (c : Cause) (t : State) :
    (o.elim (none, t) (fun j => (some (c, j), t))).2 = t := by
  cases o <;> rfl

@[simp] theorem laneCheck_mem (s : State) (checked : Bool) (u : LaneUse) : (laneCheck s checked u).2.mem = s.mem := by
  simp only [laneCheck]
  repeat' split
  all_goals simp [foldl_mem, elim_pair_snd]

theorem memOk_lanesThen {s : State} (h : s.memOk) {checked : Bool} {u : LaneUse} {k : State → Res}
    (hk : ∀ t, t.memOk → (k t).memOk) : (lanesThen s checked u k).memOk := by
  grind [lanesThen, Res.memOk, laneCheck_mem]

@[simp] theorem memOk_resolveEng {s : State} (h : s.memOk) {c : CoreId} {phys user : Bool} {acc : Access} {a : Word}
    {align : Nat} : (resolveEng s c phys user acc a align).memOk := by
  grind [resolveEng, Resolved.memOk, memOk_resolve, memOk_behind]

@[simp] theorem State.touchClass_mem (s : State) (cls : BitVec 2) (p : Place) : (s.touchClass cls p).mem = s.mem := by
  unfold State.touchClass
  split <;> simp

@[simp] theorem State.touchVec_mem (s : State) (p : Place) : (s.touchVec p).mem = s.mem := by
  simp [State.touchVec]

@[simp] theorem State.hotTouch_mem (s : State) (cls : BitVec 2) (p : Place) : (s.hotTouch cls p).mem = s.mem := by
  unfold State.hotTouch
  split <;> simp

@[simp] theorem memOk_readField {s : State} (h : s.memOk) {c : CoreId} {phys user : Bool} {cls : BitVec 2} {a : Word}
    {eb width : Nat} : (readField s c phys user cls a eb width).memOk := by
  grind [readField, ElemRead.memOk, Resolved.memOk, State.hotTouch_mem, State.moveMet_mem, State.touchClass_mem,
    memOk_resolveEng]

@[simp] theorem memOk_readPlanesBit {s : State} (h : s.memOk) {c : CoreId} {phys user : Bool} {a : Word} {i n : Nat} :
    (readPlanesBit s c phys user a i n).memOk := by
  induction n generalizing s a with
  | zero => exact h
  | succ n ih =>
    have h1 : (readField s c phys user 1 a 8 64).memOk := memOk_readField h
    simp only [readPlanesBit]
    split
    · next v t ht =>
      rw [ht] at h1
      have h2 : (readPlanesBit t c phys user (a + 8) i n).memOk := ih h1
      split
      · next ht' => rwa [ht'] at h2
      · exact h2
    · exact h1

@[simp] theorem memOk_readAffine {s : State} (h : s.memOk) {c : CoreId} {p : Spool} {n : Nat} :
    (readAffine s c p n).memOk := by
  grind [readAffine, ElemRead.memOk, memOk_readField, memOk_readPlanesBit]

@[simp] theorem State.setSpool_mem (s : State) (c : CoreId) (n : Nat) (p : Spool) :
    (s.setSpool c n p).mem = s.mem := by
  simp [State.setSpool]

@[simp] theorem memOk_elemAddr {s : State} (h : s.memOk) {c : CoreId} {p : Spool} {n : Nat} :
    (elemAddr s c p n).memOk := by
  grind [elemAddr, AddrRead.memOk, ElemRead.memOk, State.setSpool_mem, memOk_readAffine]

@[simp] theorem memOk_readElem {s : State} (h : s.memOk) {c : CoreId} {p : Spool} {n : Nat} :
    (readElem s c p n).memOk := by
  grind [readElem, AddrRead.memOk, ElemRead.memOk, memOk_elemAddr, memOk_readAffine, memOk_readField]

@[simp] theorem memOk_fetchSpool {s : State} (h : s.memOk) {c : CoreId} {n n' : Nat} :
    (fetchSpool s c n n').memOk := by
  induction n' generalizing s with
  | zero => exact h
  | succ n ih => grind [fetchSpool, ElemRead.memOk, State.setSpool_mem, memOk_readElem]

@[simp] theorem State.consume_mem (s : State) (ns : List Nat) (n : Nat) : (s.consume ns n).mem = s.mem := by
  refine foldl_mem (fun t i => ?_) ns s
  rfl

@[simp] theorem State.passed_mem (s : State) (ns : List Nat) (start n : Nat) : (s.passed ns start n).mem = s.mem := by
  refine foldl_mem (fun t i => ?_) ns s
  rfl

@[simp] theorem memOk_spoolTrap {s : State} (h : s.memOk) {n vstart : Nat} {e : SpEl} :
    (spoolTrap s n vstart e).memOk := by
  unfold spoolTrap
  split <;> simp [State.memOk, h]

@[simp] theorem memOk_wrongKind {s : State} (h : s.memOk) {n : Nat} : (wrongKind s n).memOk := by
  simp [wrongKind, State.memOk, h]

@[simp] theorem State.resumeFetch_mem (s : State) (r : BitVec 5) : (s.resumeFetch r).mem = s.mem := by
  unfold State.resumeFetch
  split <;> simp

theorem memOk_withSrc {s : State} (h : s.memOk) {start : Nat} {r : Option (BitVec 5)} {k : VSrc → Res}
    (hk : ∀ v, (k v).memOk) : (withSrc s start r k).memOk := by
  unfold withSrc
  split
  · exact hk _
  · split
    · exact memOk_wrongKind h
    · simpa [State.memOk] using h
    · exact hk _

@[simp] theorem memOk_slotPlaces {s : State} (h : s.memOk) {c : CoreId} {p : Spool} {size : Nat} {l : List Word}
    {l' : List Place} : (slotPlaces c p size l l' s).memOk := by
  induction l generalizing l' s with
  | nil => exact h
  | cons x xs ih => grind [slotPlaces, Resolved.memOk, SlotRead.memOk, memOk_resolveEng]

@[simp] theorem memOk_writeSlot {s : State} (h : s.memOk) {c : CoreId} {p : Spool} {n : Nat} :
    (writeSlot s c p n).memOk := by
  grind [writeSlot, AddrRead.memOk, SlotRead.memOk, memOk_elemAddr, memOk_slotPlaces]

@[simp] theorem memOk_storeElem {s : State} (h : s.memOk) {c : CoreId} {p : Spool} {n : Nat} {qs : List Place}
    {v : Nat} : (storeElem s c p n qs v).memOk := by
  unfold storeElem
  split
  · exact foldl_memOk (fun t x ht => by simp [State.memOk, ht]) h
  · exact foldl_memOk (fun t x ht => by simp [State.memOk, ht]) h

@[simp] theorem memOk_checkWrites {s : State} (h : s.memOk) {c : CoreId} {n start : Nat} {l : List Nat} :
    (checkWrites s c n start l).memOk := by
  induction l generalizing s with
  | nil => exact h
  | cons x xs ih => grind [checkWrites, SlotRead.memOk, WriteCheck.memOk, memOk_writeSlot]

@[simp] theorem memOk_appendRun {s : State} (h : s.memOk) {c : CoreId} {n start : Nat} {l : List (Nat × Nat)} :
    (appendRun s c n start l).memOk := by
  induction l generalizing s with
  | nil => exact h
  | cons x xs ih => grind [appendRun, SlotRead.memOk, memOk_storeElem, memOk_writeSlot]

@[simp] theorem memOk_appendWrites {s : State} (h : s.memOk) {c : CoreId} {n start : Nat} {es : List (Nat × Nat)} :
    (appendWrites s c n start es).memOk := by
  simp [appendWrites, State.memOk, h]

theorem memOk_readDesc {s : State} (h : s.memOk) {ea : Word} {size : Nat} {k : State → List Word → Res}
    (hk : ∀ t ws, t.memOk → (k t ws).memOk) : (readDesc s ea size k).memOk := by
  grind [readDesc, Res.memOk, Resolved.memOk, memOk_resolveThr]

end Sys2Proof.Machine
end

section
/-! PROOFS. The memory stays canonical, part 4: loads and stores, atomics, tagged accesses, links and groups. -/

namespace Sys2Proof.Machine

@[simp] theorem State.touchPlace_mem (s : State) (write : Bool) (p : Place) : (s.touchPlace write p).mem = s.mem := by
  unfold State.touchPlace
  split <;> simp

theorem memOk_deliverLoad {s : State} (h : s.memOk) {s' : State} {near : Bool} {dests : List (BitVec 5)}
    {ws : List Word} (h' : s'.memOk) : (deliverLoad s s' near dests ws).memOk := by
  grind [deliverLoad, Res.memOk, State.setThr_mem, State.startFill_mem]

@[simp] theorem memOk_loadFrom {s : State} (h : s.memOk) {ea : Word} {size : Nat} {dests : List (BitVec 5)}
    {conv : List Byte → List Word} : (loadFrom s ea size dests conv).memOk := by
  grind [loadFrom, Res.memOk, Resolved.memOk, State.touchPlace_mem, memOk_deliverLoad, memOk_resolveThr]

@[simp] theorem memOk_storeTo {s : State} (h : s.memOk) {ea : Word} {bs : List Byte} : (storeTo s ea bs).memOk := by
  grind [storeTo, Res.memOk, Resolved.memOk, State.touchPlace_mem, memOk_resolveThr, memOk_storeAt]

@[simp] theorem memOk_load {s : State} (h : s.memOk) {w : BitVec 32} {dests : List (BitVec 5)} {a : BitVec 5}
    {f : BitVec 1} {o : BitVec 12} {size : Nat} {conv : List Byte → List Word} :
    (load w dests a f o size conv s).memOk := by
  grind [load, Out.memOk, Res.memOk, memOk_issue, memOk_loadFrom]

@[simp] theorem memOk_store {s : State} (h : s.memOk) {w : BitVec 32} {srcs : List (BitVec 5)} {a : BitVec 5}
    {f : BitVec 1} {o : BitVec 12} {size : Nat} : (store w srcs a f o size s).memOk := by
  grind [store, Out.memOk, Res.memOk, memOk_issue, memOk_storeTo]

@[simp] theorem State.contend_mem (s : State) (pa : Nat) : (s.contend pa).mem = s.mem := by
  simp [State.contend]

@[simp] theorem State.contendAt_mem (s : State) (p : Place) : (s.contendAt p).mem = s.mem := by
  unfold State.contendAt
  split <;> simp

@[simp] theorem memOk_atomAt {s : State} (h : s.memOk) {p : Place} {op : Nat} {b : Word} {cas : Option Word} :
    (atomAt s p op b cas).2.memOk := by
  have hc : (s.contendAt p).memOk := by simpa [State.memOk] using h
  exact iteInduction (motive := fun r : Word × State => r.2.memOk) (fun _ => hc) (fun _ => memOk_storeAt hc)

@[simp] theorem memOk_atomRet {s : State} (h : s.memOk) {w : BitVec 32} {srcs : List (BitVec 5 × BitVec 1)}
    {d a b : BitVec 5} {ord : BitVec 2} {op : Nat} {cas : Bool} : (atomRet w srcs d a b ord op cas s).memOk := by
  refine memOk_issue h ?_
  grind [Res.memOk, Resolved.memOk, memOk_atomAt, State.startFill_mem, memOk_resolveThr]

@[simp] theorem memOk_atomRed {s : State} (h : s.memOk) {w : BitVec 32} {a b : BitVec 5} {f g o : BitVec 1} {op : Nat} :
    (atomRed w a b f g o op s).memOk := by
  refine memOk_issue h ?_
  grind [Res.memOk, Resolved.memOk, memOk_atomAt, State.setHart_mem, memOk_resolveThr]

theorem memOk_execLda {s : State} (h : s.memOk) {d a : BitVec 5} {f : BitVec 1} {sf : BitVec 3} :
    (execLda d a f sf s).memOk := by
  refine memOk_issue h ?_
  have hr : (resolveThr s .read (s.thr.reg a) 8).memOk := memOk_resolveThr h
  grind [Res.memOk, Resolved.memOk, State.startFill_mem, State.touchPlace_mem]

theorem memOk_execStl {s : State} (h : s.memOk) {a b : BitVec 5} {f g : BitVec 1} {sf : BitVec 3} :
    (execStl a b f g sf s).memOk := by
  grind [execStl, Out.memOk, Res.memOk, memOk_issue, memOk_storeTo]

@[simp] theorem State.setLink_mem (s : State) (p : Nat) (f : Link → Link) : (s.setLink p f).mem = s.mem := by
  simp [State.setLink]

@[simp] theorem State.report_mem (s : State) (u : ScoreUnit) : (s.report u).mem = s.mem := rfl

@[simp] theorem State.sendOn_mem (s : State) (p : Nat) (n : BitVec 12) (kind : BitVec 4) (payload : List Byte) :
    (s.sendOn p n kind payload).mem = s.mem := by
  simp [State.sendOn]

@[simp] theorem State.sendTo_mem (s : State) (n : BitVec 12) (kind : BitVec 4) (payload : List Byte) :
    (s.sendTo n kind payload).mem = s.mem := by
  unfold State.sendTo
  split <;> simp

@[simp] theorem State.takeFlit_mem (s : State) (f : Flit) : ∀ t ∈ (s.takeFlit f), t.mem = s.mem := by
  unfold State.takeFlit
  split <;> simp

/-- A layer that takes a flit leaves memory as it is. -/
theorem memOk_takeFlit {s : State} (h : s.memOk) {f : Flit} : ∀ t ∈ s.takeFlit f, t.memOk := by
  intro t ht
  rwa [State.memOk, State.takeFlit_mem s f t ht]

theorem memOk_execFlitReceived {s : State} (h : s.memOk) {port : Nat} {f : Flit} :
    (execFlitReceived port f s).memOk := by
  simp [execFlitReceived, State.memOk, h]

theorem memOk_execNak {s : State} (h : s.memOk) {port : Nat} {ack : BitVec 16} :
    (execNak port ack s).memOk := by
  simp [execNak, State.memOk, h]

theorem memOk_execAckTimer {s : State} (h : s.memOk) {port : Nat} : (execAckTimer port s).memOk := by
  simp [execAckTimer, State.memOk, h]

theorem memOk_execReplayTimeout {s : State} (h : s.memOk) {port : Nat} :
    (execReplayTimeout port s).memOk := by
  simp [execReplayTimeout, State.memOk, h]

theorem memOk_execLaneFailure {s : State} (h : s.memOk) {port lane : Nat} :
    (execLaneFailure port lane s).memOk := by
  simp [execLaneFailure, State.memOk, h]

theorem memOk_execRetrain {s : State} (h : s.memOk) {port : Nat} : (execRetrain port s).memOk := by
  simp [execRetrain, State.memOk, h]

@[simp] theorem State.onThr_mem (s : State) (c : CoreId) (w : Who) (f : Thread → Thread) :
    (s.onThr c w f).mem = s.mem := by
  simp [State.onThr]

@[simp] theorem State.onHart_mem (s : State) (c : CoreId) (f : Hart → Hart) : (s.onHart c f).mem = s.mem := by
  simp [State.onHart]

@[simp] theorem memOk_serveOne {s : State} (h : s.memOk) {o : CoreId} {r : TagReq} : (serveOne s o r).memOk := by
  unfold serveOne
  split <;> simp [State.memOk, h]

@[simp] theorem memOk_serveWord {s : State} (h : s.memOk) {o : CoreId} {n n' : Nat} : (serveWord s o n n').memOk := by
  induction n' generalizing s with
  | zero => exact h
  | succ n ih => grind [serveWord, memOk_serveOne]

@[simp] theorem memOk_serve {s : State} (h : s.memOk) {o : CoreId} {n : Nat} : (serve s o n).memOk := by
  simp [serve, State.memOk, h]

theorem memOk_tagAccess {s : State} (h : s.memOk) {acc : Access} {ea : Word} {release : Bool} {k : CoreId → Nat → Res}
    (hk : ∀ o n, (k o n).memOk) : (tagAccess s acc ea release k).memOk := by
  grind [tagAccess, Res.memOk, Resolved.memOk, memOk_resolveThr]

@[simp] theorem memOk_tagRequest {s : State} (h : s.memOk) {o : CoreId} {r : TagReq} : (tagRequest s o r).memOk := by
  simp [tagRequest, State.memOk, h]

@[simp] theorem memOk_tagLoad {s : State} (h : s.memOk) {d : BitVec 5} {ea : Word} {op : TagOp} :
    (tagLoad s d ea op).memOk := by
  refine memOk_tagAccess h fun o n => ?_
  grind [Res.memOk, State.startFill_mem, memOk_tagRequest, State.withdrawTag_mem, State.setThr_mem]

@[simp] theorem memOk_newStore {s : State} (h : s.memOk) {v ea : Word} : (tagStore.newStore s v ea).memOk := by
  grind [tagStore.newStore, Res.memOk, State.setThr_mem, State.withdrawTag_mem, memOk_tagAccess, memOk_tagRequest]

@[simp] theorem memOk_tagStore {s : State} (h : s.memOk) {v ea : Word} : (tagStore s v ea).memOk := by
  grind [tagStore, Res.memOk, memOk_newStore, State.withdrawTag_mem]

theorem memOk_execLdff {s : State} (h : s.memOk) {d a : BitVec 5} {f : BitVec 1} {o : BitVec 12} :
    (execLdff d a f o s).memOk := by
  grind [execLdff, Out.memOk, Res.memOk, memOk_issue, memOk_tagLoad]

theorem memOk_execLdfe {s : State} (h : s.memOk) {d a : BitVec 5} {f : BitVec 1} {o : BitVec 12} :
    (execLdfe d a f o s).memOk := by
  grind [execLdfe, Out.memOk, Res.memOk, memOk_issue, memOk_tagLoad]

theorem memOk_execStef {s : State} (h : s.memOk) {sf a : BitVec 5} {f : BitVec 1} {o : BitVec 12} :
    (execStef sf a f o s).memOk := by
  grind [execStef, Out.memOk, Res.memOk, memOk_issue, memOk_tagStore]

theorem memOk_execStff {s : State} (h : s.memOk) {sf a : BitVec 5} {f : BitVec 1} {o : BitVec 12} :
    (execStff sf a f o s).memOk := by
  grind [execStff, Out.memOk, Res.memOk, State.onHart_mem, memOk_issue, memOk_serve, memOk_tagAccess]

theorem memOk_execFeclr {s : State} (h : s.memOk) {a : BitVec 5} {f : BitVec 1} {o : BitVec 12} :
    (execFeclr a f o s).memOk := by
  grind [execFeclr, Out.memOk, Res.memOk, State.onHart_mem, memOk_issue, memOk_serve, memOk_tagAccess]

theorem memOk_execFeq {s : State} (h : s.memOk) {d a : BitVec 5} {f : BitVec 1} {o : BitVec 12} :
    (execFeq d a f o s).memOk := by
  grind [execFeq, Out.memOk, Res.memOk, memOk_deliverLoad, memOk_issue, memOk_tagAccess]

@[simp] theorem State.setGroup_mem (s : State) (g : Group) : (s.setGroup g).mem = s.mem := rfl

@[simp] theorem State.bwForward_mem (s : State) (g : Group) (q : BitVec 32) (mask : Nat) (v : Word × Word) :
    (s.bwForward g q mask v).mem = s.mem := by
  simp [State.bwForward, foldl_mem]

@[simp] theorem State.bwFill_mem (s : State) (n : Nat) (q : BitVec 32) (v : Word × Word) (c : CoreId) :
    (s.bwFill n q v c).mem = s.mem := by
  simp [State.bwFill, foldl_mem]

@[simp] theorem State.bwResult_mem (s : State) (g : Group) (q : BitVec 32) (mask : Nat) (v : Word × Word) :
    (s.bwResult g q mask v).mem = s.mem := by
  simp [State.bwResult, foldl_mem]

@[simp] theorem State.bwPost_mem (s : State) (n : Nat) (q : BitVec 32) (mask : Nat) (v : Word × Word) :
    (s.bwPost n q mask v).mem = s.mem := by
  unfold State.bwPost
  split <;> simp

@[simp] theorem State.bwRepost_mem (s : State) (g : Group) (before : Nat) : (s.bwRepost g before).mem = s.mem := by
  simp [State.bwRepost, foldl_mem]

theorem memOk_execBwred {s : State} (h : s.memOk) {d a : BitVec 5} {b : BitVec 4} :
    (execBwred d a b s).memOk := by
  grind [execBwred, Out.memOk, Res.memOk, State.bwPost_mem, State.startFill_mem, memOk_issue, memOk_notSplit]

theorem memOk_execBellwetherPost {s : State} (h : s.memOk) {f : Flit} : (execBellwetherPost f s).memOk := by
  grind [execBellwetherPost, Out.memOk, State.bwPost_mem, State.takeFlit_mem]

theorem memOk_execBellwetherResult {s : State} (h : s.memOk) {f : Flit} :
    (execBellwetherResult f s).memOk := by
  simp only [execBellwetherResult, Out.memOk]
  repeat' split
  · exact h
  · next ht _ _ _ _ => exact foldl_memOk (fun u m hu => by simpa [State.memOk] using hu) (memOk_takeFlit h _ ht)
  · next ht _ _ _ => exact memOk_takeFlit h _ ht
  · next ht _ _ => exact memOk_takeFlit h _ ht
  all_goals exact h

theorem memOk_execBwredRepost {s : State} (h : s.memOk) {group : Nat} : (execBwredRepost group s).memOk := by
  grind [execBwredRepost, Out.memOk, State.bwRepost_mem]

end Sys2Proof.Machine
end

section
/-! PROOFS. The memory stays canonical, part 5: control, floating point, predicates, splits, sync registers and
versions. -/

namespace Sys2Proof.Machine

@[simp] theorem memOk_branch {s : State} (h : s.memOk) {w : BitVec 32} {a b : BitVec 5} {f g : BitVec 1}
    {o : BitVec 11} {cond : Word → Word → Bool} : (branch w a b f g o s cond).memOk := by
  grind [branch, Out.memOk, Res.memOk, memOk_issue, memOk_jumpTo]

@[simp] theorem memOk_callTo {s : State} (h : s.memOk) {target : Word} : (callTo s target).memOk := by
  grind [callTo, Res.memOk, State.setThr_mem]

theorem memOk_aligned4 {s : State} (h : s.memOk) {target : Word} {k : Res} (hk : k.memOk) :
    (aligned4 s target k).memOk := by
  grind [aligned4, Res.memOk]

@[simp] theorem memOk_leaveLoop {s : State} (h : s.memOk) : (leaveLoop s).memOk := by
  grind [leaveLoop, Res.memOk, State.setThr_mem]

@[simp] theorem memOk_enterLoop {s : State} (h : s.memOk) {n : Word} {e : BitVec 16} : (enterLoop s n e).memOk := by
  grind [enterLoop, Res.memOk, State.setThr_mem]

@[simp] theorem memOk_waitBranch {s : State} (h : s.memOk) : (waitBranch s).memOk := by
  grind [waitBranch, Res.memOk, memOk_waitOn]

theorem memOk_execBmz {s : State} (h : s.memOk) {o : BitVec 11} : (execBmz o s).memOk := by
  grind [execBmz, Out.memOk, Res.memOk, memOk_issue, memOk_jumpTo]

theorem memOk_execBoq {s : State} (h : s.memOk) {o : BitVec 11} : (execBoq o s).memOk := by
  grind [execBoq, Out.memOk, Res.memOk, State.setHart_mem, memOk_issue, memOk_jumpTo, memOk_notSplit,
    memOk_waitBranch]

theorem memOk_execCall {s : State} (h : s.memOk) {o : BitVec 26} : (execCall o s).memOk := by
  grind [execCall, Out.memOk, Res.memOk, memOk_callTo, memOk_issue]

theorem memOk_execRet {s : State} (h : s.memOk) : (execRet s).memOk := by
  refine memOk_issue h ?_
  dsimp only
  split
  · exact h
  · simpa [State.memOk] using h

theorem memOk_execCallr {s : State} (h : s.memOk) {a : BitVec 5} : (execCallr a s).memOk := by
  grind [execCallr, Out.memOk, Res.memOk, memOk_aligned4, memOk_callTo, memOk_issue]

theorem memOk_execJmpr {s : State} (h : s.memOk) {a : BitVec 5} : (execJmpr a s).memOk := by
  grind [execJmpr, Out.memOk, Res.memOk, memOk_aligned4, memOk_issue, memOk_jumpTo]

theorem memOk_execLexit {s : State} (h : s.memOk) : (execLexit s).memOk := by
  grind [execLexit, Out.memOk, Res.memOk, memOk_issue, memOk_leaveLoop]

theorem memOk_execLidx {s : State} (h : s.memOk) {d : BitVec 5} {l : BitVec 3} : (execLidx d l s).memOk := by
  grind [execLidx, Out.memOk, Res.memOk, memOk_issue, memOk_writeReg]

theorem memOk_execLcnt {s : State} (h : s.memOk) {d : BitVec 5} {l : BitVec 3} : (execLcnt d l s).memOk := by
  grind [execLcnt, Out.memOk, Res.memOk, memOk_issue, memOk_writeReg]

theorem memOk_execBopush {s : State} (h : s.memOk) {a : BitVec 5} : (execBopush a s).memOk := by
  grind [execBopush, Out.memOk, Res.memOk, State.setHart_mem, memOk_issue, memOk_notSplit, memOk_waitBranch]

theorem memOk_execLoop {s : State} (h : s.memOk) {a : BitVec 5} {e : BitVec 16} : (execLoop a e s).memOk := by
  grind [execLoop, Out.memOk, Res.memOk, memOk_enterLoop, memOk_issue]

theorem memOk_execLoopi {s : State} (h : s.memOk) {c : BitVec 10} {e : BitVec 16} :
    (execLoopi c e s).memOk := by
  grind [execLoopi, Out.memOk, Res.memOk, memOk_enterLoop, memOk_issue]

@[simp] theorem State.nextIter_mem (s : State) (l : Launch) (c : CoreId) : (s.nextIter l c).mem = s.mem := by
  grind [State.nextIter, State.setCore_mem]

@[simp] theorem State.handOut_mem (s : State) (id : Nat) (l : List CoreId) : (s.handOut id l).mem = s.mem := by
  induction l generalizing s with
  | nil => rfl
  | cons x xs ih => grind [State.handOut, State.nextIter_mem, State.setCore_mem]

@[simp] theorem State.dropSlots_mem (s : State) (die cluster tid : Nat) :
    (s.dropSlots die cluster tid).mem = s.mem := by
  simp [State.dropSlots]

@[simp] theorem State.releaseTeam_mem (s : State) (tid : Nat) : (s.releaseTeam tid).mem = s.mem := by
  unfold State.releaseTeam
  split
  · refine iteInduction (motive := fun t : State => t.mem = s.mem) (fun _ => ?_) (fun _ => rfl)
    rw [foldl_mem (fun _ _ => by simp), State.dropSlots_mem]
  · rfl

@[simp] theorem State.endIter_mem (s : State) (c : CoreId) : (s.endIter c).mem = s.mem := by
  grind [State.endIter, State.handOut_mem, State.nextIter_mem, State.releaseTeam_mem, State.setCore_mem]

@[simp] theorem memOk_mirrorSpilled {s : State} (h : s.memOk) {c : CoreId} : (s.mirrorSpilled c).memOk := by
  refine foldl_memOk (fun t r ht => ?_) h
  dsimp only
  split
  · exact ht
  · simp [State.memOk, ht]

@[simp] theorem memOk_setDs {s : State} (h : s.memOk) {c : CoreId} {v : Bool} : (s.setDs c v).memOk := by
  unfold State.setDs
  split <;> simp [State.memOk, h]

@[simp] theorem memOk_applyDs {s : State} (h : s.memOk) {c : CoreId} : (s.applyDs c).memOk := by
  grind [State.applyDs, memOk_setDs]

@[simp] theorem memOk_csrPut {s : State} (h : s.memOk) {n : Nat} {v : Word} : (csrPut s n v).memOk := by
  unfold csrPut
  repeat' split
  all_goals simp [State.memOk, h]

theorem memOk_issueIll {s : State} (h : s.memOk) {w : BitVec 32} {ill : State → Bool}
    {srcs : List (BitVec 5 × BitVec 1)} {body : State → Res} (hb : (body s).memOk) :
    (issueIll w ill srcs s body).memOk := by
  unfold issueIll
  split
  · exact memOk_finish (r := .trap s _ _) h
  · exact memOk_issue h hb

@[simp] theorem memOk_csrWrite {s : State} (h : s.memOk) {w : BitVec 32} {form : Nat} {c : BitVec 12} {a : BitVec 5} :
    (csrWrite w form c a s).memOk := by
  unfold csrWrite
  refine memOk_issueIll h ?_
  grind [Res.memOk, memOk_csrPut]

@[simp] theorem memOk_issueCommand {s : State} (h : s.memOk) {d : BitVec 5} {desc : List Word} {link : Bool} :
    (issueCommand s d desc link).memOk := by
  unfold issueCommand
  repeat' split
  all_goals simp [State.memOk, h]

@[simp] theorem State.migDone_mem (s : State) (r : MigReq) (status tier : Nat) :
    (s.migDone r status tier).mem = s.mem := by
  simp [State.migDone]

@[simp] theorem State.migPost_mem (s : State) (r : MigReq) : (s.migPost r).mem = s.mem := by
  unfold State.migPost
  split <;> simp

theorem memOk_execQpush {s : State} (h : s.memOk) {q : BitVec 2} {sf : BitVec 5} :
    (execQpush q sf s).memOk := by
  grind [execQpush, Out.memOk, Res.memOk, State.setHart_mem, memOk_issueIll, memOk_notSplit, memOk_waitOn]

theorem memOk_execQpop {s : State} (h : s.memOk) {d : BitVec 5} {q : BitVec 2} : (execQpop d q s).memOk := by
  grind [execQpop, Out.memOk, Res.memOk, State.startFill_mem, memOk_issueIll, memOk_notSplit]

theorem memOk_execSpbind {s : State} (h : s.memOk) {n : BitVec 4} {a : BitVec 5} :
    (execSpbind n a s).memOk := by
  grind [execSpbind, Out.memOk, Res.memOk, State.setHart_mem, memOk_issue, memOk_readDesc]

theorem memOk_execSpunb {s : State} (h : s.memOk) {n : BitVec 4} : (execSpunb n s).memOk := by
  refine memOk_issue h ?_
  split
  · simpa [State.memOk] using h
  · exact h

theorem memOk_execSpstat {s : State} (h : s.memOk) {d : BitVec 5} {n : BitVec 4} :
    (execSpstat d n s).memOk := by
  grind [execSpstat, Out.memOk, Res.memOk, memOk_issue, memOk_writeReg]

theorem memOk_execBcopy {s : State} (h : s.memOk) {d a : BitVec 5} : (execBcopy d a s).memOk := by
  grind [execBcopy, Out.memOk, Res.memOk, memOk_issue, memOk_issueCommand, memOk_readDesc]

theorem memOk_execXcopy {s : State} (h : s.memOk) {d a : BitVec 5} : (execXcopy d a s).memOk := by
  grind [execXcopy, Out.memOk, Res.memOk, memOk_issue, memOk_issueCommand, memOk_notSplit, memOk_readDesc]

theorem memOk_execPgmig {s : State} (h : s.memOk) {a b : BitVec 5} : (execPgmig a b s).memOk := by
  refine memOk_issue h ?_
  dsimp only
  repeat' split
  all_goals simpa [State.memOk] using h

theorem memOk_withDst {s : State} (h : s.memOk) {vd : Option (BitVec 5)} {k : Option Nat → Res}
    (hk : ∀ v, (k v).memOk) : (withDst s vd k).memOk := by
  unfold withDst
  split
  · exact hk _
  · split
    · exact hk _
    · split
      · exact hk _
      · exact memOk_wrongKind h

theorem memOk_withWrites {s : State} (h : s.memOk) {dst : Option Nat} {js : List Nat} {k : State → Res}
    (hk : ∀ t, t.memOk → (k t).memOk) : (withWrites s dst js k).memOk := by
  unfold withWrites
  split
  · exact hk s h
  · next n =>
    have hc : (checkWrites s s.loc n 0 js).memOk := memOk_checkWrites h
    split
    · exact h
    · next ht => rw [ht] at hc; exact memOk_spoolTrap hc
    · next ht => rw [ht] at hc; exact hk _ hc

theorem memOk_vreadAll {s : State} (h : s.memOk) {kind : LaneKind} {va vb vd : Option (BitVec 5)} {acc : Bool}
    {act : List Nat} {k : State → VIn → Res} (hk : ∀ t i, t.memOk → (k t i).memOk) :
    (vreadAll s kind va vb vd acc act k).memOk := by
  grind [vreadAll, Res.memOk, memOk_lanesThen, memOk_spoolTrap, memOk_withDst, memOk_withSrc, memOk_withWrites]

@[simp] theorem vdone_mem (s : State) (i : VIn) (flags : BitVec 4) : (vdone s i flags).mem = s.mem := by
  simp [vdone]

@[simp] theorem State.commitReg_mem (s : State) (r : BitVec 5) (ps : List Plane) (sd : Bool) (rows : List Nat) :
    (s.commitReg r ps sd rows).mem = s.mem := rfl

@[simp] theorem copyDst_mem (s : State) (i : VIn) (vd : BitVec 5) (ps : List Plane) (wd : Nat) (sd : Bool)
    (rows : List Nat) : (copyDst s i vd ps wd sd rows).mem = s.mem := by
  simp [copyDst]

@[simp] theorem memOk_vwrite {s : State} (h : s.memOk) {i : VIn} {va vb : Option (BitVec 5)} {vd : BitVec 5}
    {wd : Nat} {sd : Bool} {res : List (Nat × Nat)} {flags : BitVec 4} :
    (vwrite s i va vb vd wd sd res flags).memOk := by
  unfold vwrite
  split <;> simp [State.memOk, h]

@[simp] theorem memOk_vmap {s : State} (h : s.memOk) {w : BitVec 32} {srcs : List (BitVec 5)}
    {va vb : Option (BitVec 5)} {vd : BitVec 5} {acc : Bool} {kind : LaneKind} {mask : State → List Nat}
    {width : EState → Nat} {sd : EState → Bool} {f : State → VIn → Nat → Nat × BitVec 4} :
    (vmap w srcs va vb vd acc kind mask width sd f s).memOk := by
  grind [vmap, Out.memOk, Res.memOk, memOk_issue, memOk_vreadAll, memOk_vwrite]

@[simp] theorem memOk_vcmp {s : State} (h : s.memOk) {w : BitVec 32} {srcs : List (BitVec 5)}
    {va vb : Option (BitVec 5)} {pd pm : BitVec 6} {f : State → VIn → Nat → Bool × BitVec 4} :
    (vcmp w srcs va vb pd pm f s).memOk := by
  grind [vcmp, Out.memOk, Res.memOk, State.setEst_mem, State.setHart_mem, memOk_issue, memOk_vreadAll, vdone_mem]

@[simp] theorem memOk_pgWrite {s : State} (h : s.memOk) {w : BitVec 32} {d : BitVec 5} {vt : Option (BitVec 5)}
    {js : List Nat} {f : State → VIn → Nat → Nat} : (pgWrite w s d vt js f).memOk := by
  grind [pgWrite, Res.memOk, memOk_vreadAll, memOk_vwrite]

theorem memOk_execPgclr {s : State} (h : s.memOk) {t : BitVec 2} : (execPgclr t s).memOk := by
  grind [execPgclr, Out.memOk, Res.memOk, State.setHart_mem, memOk_issue, memOk_notSplit]

theorem memOk_execPgadd {s : State} (h : s.memOk) {d a b : BitVec 5} {t : BitVec 2} :
    (execPgadd d a b t s).memOk := by
  grind [execPgadd, Out.memOk, Res.memOk, State.setHart_mem, State.setThr_mem, memOk_issue, memOk_notSplit]

theorem memOk_execPganc {s : State} (h : s.memOk) {d : BitVec 6} {a b : BitVec 5} {t : BitVec 2} :
    (execPganc d a b t s).memOk := by
  grind [execPganc, Out.memOk, Res.memOk, State.setHart_mem, memOk_issue, memOk_lanesThen]

theorem memOk_execPgpos {s : State} (h : s.memOk) {d a : BitVec 5} {t : BitVec 2} :
    (execPgpos d a t s).memOk := by
  grind [execPgpos, Out.memOk, Res.memOk, memOk_issue, memOk_pgWrite]

theorem memOk_execPgpath {s : State} (h : s.memOk) {d a : BitVec 5} {t : BitVec 2} :
    (execPgpath d a t s).memOk := by
  grind [execPgpath, Out.memOk, Res.memOk, State.setEst_mem, memOk_issue, memOk_pgWrite]

theorem memOk_execPgprune {s : State} (h : s.memOk) {d a b : BitVec 5} {t : BitVec 2} :
    (execPgprune d a b t s).memOk := by
  grind [execPgprune, Out.memOk, Res.memOk, State.setHart_mem, State.setThr_mem, memOk_issue, memOk_notSplit,
    memOk_pgWrite]

theorem memOk_execPgrd {s : State} (h : s.memOk) {d a c : BitVec 5} {t : BitVec 2} :
    (execPgrd d a c t s).memOk := by
  grind [execPgrd, Out.memOk, Res.memOk, memOk_issue, memOk_writeReg]

theorem memOk_execPgcnt {s : State} (h : s.memOk) {d a b : BitVec 5} {t : BitVec 2} :
    (execPgcnt d a b t s).memOk := by
  grind [execPgcnt, Out.memOk, Res.memOk, memOk_issue, memOk_pgWrite]

theorem memOk_execPgsize {s : State} (h : s.memOk) {d : BitVec 5} {t : BitVec 2} :
    (execPgsize d t s).memOk := by
  grind [execPgsize, Out.memOk, Res.memOk, memOk_issue, memOk_writeReg]

@[simp] theorem memOk_vfloat {s : State} (h : s.memOk) {w : BitVec 32} {d a : BitVec 5} {b : Option (BitVec 5)}
    {p : BitVec 6} {acc : Bool} {f : State → VIn → Nat → Nat × BitVec 4} : (vfloat w d a b p acc s f).memOk := by
  grind [vfloat, Out.memOk, memOk_vmap]

@[simp] theorem memOk_vfloat2 {s : State} (h : s.memOk) {w : BitVec 32} {d a b : BitVec 5} {p : BitVec 6}
    {op : Num → Num → Num × BitVec 4} : (vfloat2 w d a b p s op).memOk := by
  grind [vfloat2, Out.memOk, memOk_vfloat]

@[simp] theorem memOk_fcmp {s : State} (h : s.memOk) {w : BitVec 32} {d : BitVec 6} {a b : BitVec 5} {p : BitVec 6}
    {cond : Num → Num → Bool} : (fcmp w d a b p s cond).memOk := by
  grind [fcmp, Out.memOk, memOk_vcmp]

theorem memOk_execMxqnt {s : State} (h : s.memOk) {d a : BitVec 5} {p : BitVec 6} :
    (execMxqnt d a p s).memOk := by
  grind [execMxqnt, Out.memOk, Res.memOk, State.setHart_mem, memOk_issue, memOk_vreadAll, memOk_vwrite]

theorem memOk_execMxbdot {s : State} (h : s.memOk) {d a b : BitVec 5} {p : BitVec 6} :
    (execMxbdot d a b p s).memOk := by
  grind [execMxbdot, Out.memOk, Res.memOk, memOk_issue, memOk_vreadAll, memOk_vwrite]

theorem memOk_rowCheck {s : State} (h : s.memOk) {checked : Bool} {ps : List (BitVec 6)} {levels : List Nat} {n : Nat}
    {k : State → Res} (hk : ∀ t, t.memOk → (k t).memOk) : (rowCheck s checked ps levels n k).memOk := by
  grind [rowCheck, Res.memOk, memOk_lanesThen]

theorem memOk_predCheck {s : State} (h : s.memOk) {checked : Bool} {ps : List (BitVec 6)} {levels : List Nat}
    {k : State → Res} (hk : ∀ t, t.memOk → (k t).memOk) : (predCheck s checked ps levels k).memOk := by
  grind [predCheck, Res.memOk, memOk_rowCheck]

theorem memOk_levelCheck {s : State} (h : s.memOk) {ps : List (BitVec 6)} {levels : List Nat} {k : State → Res}
    (hk : ∀ t, t.memOk → (k t).memOk) : (levelCheck s ps levels k).memOk := by
  grind [levelCheck, Res.memOk, memOk_rowCheck]

@[simp] theorem memOk_predWrite {s : State} (h : s.memOk) {w : BitVec 32} {d : BitVec 6} {ps : List (BitVec 6)}
    {f : (BitVec 6 → Nat → Bool) → Nat → Bool} : (predWrite w d ps s f).memOk := by
  grind [predWrite, Out.memOk, Res.memOk, State.setHart_mem, memOk_issue, memOk_predCheck]

theorem memOk_fillScalars {s : State} (h : s.memOk) {dests : List (BitVec 5)} {k : Res} (hk : k.memOk) :
    (fillScalars s dests k).memOk := by
  grind [fillScalars, Res.memOk]

theorem memOk_execPcnt {s : State} (h : s.memOk) {d : BitVec 5} {a : BitVec 6} : (execPcnt d a s).memOk := by
  grind [execPcnt, Out.memOk, Res.memOk, State.startFill_mem, memOk_fillScalars, memOk_issue, memOk_predCheck]

theorem memOk_execPffs {s : State} (h : s.memOk) {d : BitVec 5} {a : BitVec 6} : (execPffs d a s).memOk := by
  grind [execPffs, Out.memOk, Res.memOk, State.startFill_mem, memOk_fillScalars, memOk_issue, memOk_predCheck]

theorem memOk_execPfilt {s : State} (h : s.memOk) {d a b : BitVec 6} : (execPfilt d a b s).memOk := by
  grind [execPfilt, Out.memOk, Res.memOk, State.setEst_mem, State.setHart_mem, memOk_issue, memOk_predCheck]

theorem memOk_execMpush {s : State} (h : s.memOk) {a : BitVec 6} : (execMpush a s).memOk := by
  grind [execMpush, Out.memOk, Res.memOk, State.setEst_mem, State.setHart_mem, memOk_issue, memOk_levelCheck]

theorem memOk_execMinv {s : State} (h : s.memOk) : (execMinv s).memOk := by
  grind [execMinv, Out.memOk, Res.memOk, State.setHart_mem, memOk_issue, memOk_levelCheck]

theorem memOk_execMpop {s : State} (h : s.memOk) : (execMpop s).memOk := by
  refine memOk_issue h ?_
  dsimp only
  split
  · exact h
  · simpa [State.memOk] using h

theorem memOk_execMtop {s : State} (h : s.memOk) {d : BitVec 6} : (execMtop d s).memOk := by
  grind [execMtop, Out.memOk, Res.memOk, State.setHart_mem, memOk_issue, memOk_predCheck]

theorem memOk_execSeamrd {s : State} (h : s.memOk) {d : BitVec 6} : (execSeamrd d s).memOk := by
  grind [execSeamrd, Out.memOk, Res.memOk, State.setHart_mem, memOk_issue, memOk_predCheck]

theorem memOk_execSeamwr {s : State} (h : s.memOk) {a : BitVec 6} : (execSeamwr a s).memOk := by
  grind [execSeamwr, Out.memOk, Res.memOk, State.setHart_mem, memOk_issue, memOk_predCheck]

theorem memOk_setVl {s : State} (h : s.memOk) {d a : BitVec 5} {k : State → Nat → Res}
    (hk : ∀ t n, t.memOk → (k t n).memOk) : (setVl s d a k).memOk := by
  grind [setVl, Res.memOk, State.setEst_mem, State.setThr_mem]

theorem memOk_execSetvl {s : State} (h : s.memOk) {d a : BitVec 5} : (execSetvl d a s).memOk := by
  grind [execSetvl, Out.memOk, Res.memOk, memOk_issue, memOk_setVl]

theorem memOk_execSetvlx {s : State} (h : s.memOk) {d a : BitVec 5} {o : BitVec 16} :
    (execSetvlx d a o s).memOk := by
  grind [execSetvlx, Out.memOk, Res.memOk, memOk_issue, memOk_jumpTo, memOk_setVl]

theorem memOk_execSetvlf {s : State} (h : s.memOk) {d a : BitVec 5} : (execSetvlf d a s).memOk := by
  grind [execSetvlf, Out.memOk, Res.memOk, State.consume_mem, State.setEst_mem, State.setHart_mem, State.setThr_mem,
    memOk_issue, memOk_lanesThen, memOk_spoolTrap, memOk_withSrc]

@[simp] theorem memOk_saveSplit {s : State} (h : s.memOk) : (s.saveSplit).memOk := by
  have h1 : (((List.range s.hart.ex.msdepth).foldl (fun t k =>
      t.putRows (BitVec.allOnes 16384) [s.hart.levels.toList.getD k 0] (s.hart.levelSlot (k + 1))) s).putRows
      (BitVec.allOnes 16384) [s.hart.seam] s.hart.seamSlot).memOk :=
    memOk_putRows (foldl_memOk (fun t k ht => memOk_putRows ht) h)
  simp only [State.saveSplit]
  split
  · exact h1
  · exact memOk_physStore h1 _ _

@[simp] theorem memOk_placeMerged {s : State} (h : s.memOk) {l : List Nat} {n : Nat} : (s.placeMerged l n).memOk := by
  induction l generalizing n s with
  | nil => exact h
  | cons x xs ih => grind [State.placeMerged, State.setHart_mem, memOk_putRows]

@[simp] theorem memOk_joinAll {s : State} (h : s.memOk) : (s.joinAll).memOk := by
  grind [State.joinAll, State.setHart_mem, memOk_placeMerged]

theorem memOk_execSplit {s : State} (h : s.memOk) {n : BitVec 5} : (execSplit n s).memOk := by
  grind [execSplit, Out.memOk, Res.memOk, State.noWait_mem, State.setHart_mem, memOk_issue, memOk_notSplit,
    memOk_saveSplit]

theorem memOk_execJoin {s : State} (h : s.memOk) : (execJoin s).memOk := by
  refine memOk_issue h ?_
  dsimp only
  split
  · split
    · exact h
    · split
      · exact memOk_joinAll (by simpa [State.memOk] using h)
      · simpa [State.memOk] using h
  · exact h

theorem memOk_execMtid {s : State} (h : s.memOk) {d : BitVec 5} : (execMtid d s).memOk := by
  grind [execMtid, Out.memOk, Res.memOk, memOk_issue, memOk_writeReg]

@[simp] theorem memOk_spill {s : State} (h : s.memOk) {w : Who} {r : BitVec 5} : (s.spill w r).memOk := by
  simp [State.spill, State.memOk, h]

@[simp] theorem memOk_spillPending {s : State} (h : s.memOk) {w : Who} {p : Pending} :
    (s.spillPending w p).memOk := by
  simp [State.spillPending, State.memOk, h]

@[simp] theorem memOk_makeRoom {s : State} (h : s.memOk) {ws : List Who} {keep : List (BitVec 5)} {keepPend : Bool}
    {n n' : Nat} : (s.makeRoom ws keep keepPend n n').memOk := by
  induction n' generalizing s with
  | zero => exact h
  | succ n ih => grind [State.makeRoom, memOk_spill, memOk_spillPending]

@[simp] theorem memOk_fillBack {s : State} (h : s.memOk) {keep : List (BitVec 5)} {keepPend : Bool} {r : BitVec 5} :
    (s.fillBack keep keepPend r).memOk := by
  grind [State.fillBack, State.setHart_mem, memOk_makeRoom]

@[simp] theorem memOk_fillPending {s : State} (h : s.memOk) {keep : List (BitVec 5)} :
    (s.fillPending keep).memOk := by
  unfold State.fillPending
  repeat' split
  all_goals simp [State.memOk, h]

@[simp] theorem State.bufferOperands_mem (s : State) (w : BitVec 32) : (s.bufferOperands w).mem = s.mem := rfl

@[simp] theorem memOk_takenUp {s : State} (h : s.memOk) {w : BitVec 32} : (s.takenUp w).memOk := by
  have hp : ∀ (b : Bool) (rs : List (BitVec 5)), (if b then s.fillPending rs else s).memOk := by
    intro b rs
    cases b
    · exact h
    · exact memOk_fillPending h
  simp only [State.takenUp]
  split
  · exact h
  · rw [State.memOk, State.bufferOperands_mem]
    exact memOk_makeRoom (foldl_memOk (fun t r ht => memOk_fillBack ht) (hp _ _))

@[simp] theorem memOk_takeTileRows {s : State} (h : s.memOk) {c : CoreId} : (s.takeTileRows c).memOk := by
  simp [State.takeTileRows, State.memOk, h]

@[simp] theorem memOk_commitAt {s : State} (h : s.memOk) {c : CoreId} {r : BitVec 5} {ps : List Plane} :
    (s.commitAt c r ps).memOk := by
  simp [State.commitAt, State.memOk, h]

@[simp] theorem memOk_int2 {s : State} (h : s.memOk) {w : BitVec 32} {d a b : BitVec 5} {f g : BitVec 1}
    {op : Word → Word → Word} : (int2 w d a b f g s op).memOk := by
  grind [int2, Out.memOk, Res.memOk, memOk_issue, memOk_writeReg]

@[simp] theorem memOk_int1 {s : State} (h : s.memOk) {w : BitVec 32} {d a : BitVec 5} {f : BitVec 1}
    {op : Word → Word} : (int1 w d a f s op).memOk := by
  grind [int1, Out.memOk, Res.memOk, memOk_issue, memOk_writeReg]

theorem memOk_execGfull {s : State} (h : s.memOk) {d a : BitVec 5} : (execGfull d a s).memOk := by
  grind [execGfull, Out.memOk, Res.memOk, State.setThr_mem, memOk_issue, memOk_writeReg]

theorem memOk_execGempty {s : State} (h : s.memOk) {d : BitVec 5} : (execGempty d s).memOk := by
  refine memOk_issue h ?_
  split
  · exact h
  · simpa [State.memOk] using h

theorem memOk_execIns16 {s : State} (h : s.memOk) {d : BitVec 5} {sf : BitVec 2} {i : BitVec 16} :
    (execIns16 d sf i s).memOk := by
  grind [execIns16, Out.memOk, Res.memOk, memOk_issue, memOk_writeReg]

theorem memOk_execLdi {s : State} (h : s.memOk) {d : BitVec 5} {i : BitVec 21} : (execLdi d i s).memOk := by
  grind [execLdi, Out.memOk, Res.memOk, memOk_issue, memOk_writeReg]

@[simp] theorem haltNow_mem (s : State) : (haltNow s).mem = s.mem := by
  unfold haltNow
  split <;> simp

@[simp] theorem memOk_orderWait {s : State} (h : s.memOk) {owed : List (Who × Owed)} : (orderWait s owed).memOk := by
  grind [orderWait, Res.memOk, State.setThr_mem]

@[simp] theorem tlbInv_mem (s : State) (all : BitVec 1) (keep : TlbEntry → Bool) :
    (tlbInv s all keep).mem = s.mem := by
  simp [tlbInv]

theorem memOk_execCsrrd {s : State} (h : s.memOk) {d : BitVec 5} {c : BitVec 12} :
    (execCsrrd d c s).memOk := by
  grind [execCsrrd, Out.memOk, Res.memOk, memOk_issueIll, memOk_writeReg]

theorem memOk_execRett {s : State} (h : s.memOk) : (execRett s).memOk := by
  refine memOk_issue h ?_
  simpa [State.memOk] using h

theorem memOk_execHalt {s : State} (h : s.memOk) : (execHalt s).memOk := by
  grind [execHalt, Out.memOk, Res.memOk, haltNow_mem, memOk_issue, memOk_notSplit]

theorem memOk_execGtsrd {s : State} (h : s.memOk) {d : BitVec 5} : (execGtsrd d s).memOk := by
  grind [execGtsrd, Out.memOk, Res.memOk, memOk_issue, memOk_writeReg]

theorem memOk_execEvrd {s : State} (h : s.memOk) {d : BitVec 3} : (execEvrd d s).memOk := by
  refine memOk_issue h ?_
  dsimp only
  split
  · exact h
  · simpa [State.memOk] using h

theorem memOk_execEvwait {s : State} (h : s.memOk) : (execEvwait s).memOk := by
  grind [execEvwait, Out.memOk, Res.memOk, memOk_issue, memOk_waitOn]

theorem memOk_execWaita {s : State} (h : s.memOk) {d a : BitVec 5} : (execWaita d a s).memOk := by
  grind [execWaita, Out.memOk, Res.memOk, Resolved.memOk, State.setThr_mem, memOk_issue, memOk_resolveThr,
    memOk_waitOn]

theorem memOk_execFence {s : State} (h : s.memOk) {o : BitVec 4} {sf : BitVec 3} :
    (execFence o sf s).memOk := by
  refine memOk_issue h ?_
  split <;> exact h

theorem memOk_execSbar {s : State} (h : s.memOk) {a : BitVec 5} : (execSbar a s).memOk := by
  grind [execSbar, Out.memOk, Res.memOk, memOk_issue, memOk_orderWait]

theorem memOk_execIfence {s : State} (h : s.memOk) : (execIfence s).memOk := by
  grind [execIfence, Out.memOk, Res.memOk, memOk_issue, memOk_orderWait]

theorem memOk_execTlbinvAll {s : State} (h : s.memOk) {a : BitVec 5} {r : BitVec 1} :
    (execTlbinvAll a r s).memOk := by
  refine memOk_issue h ?_
  simpa [State.memOk] using h

theorem memOk_execTlbinvPage {s : State} (h : s.memOk) {a : BitVec 5} {r : BitVec 1} :
    (execTlbinvPage a r s).memOk := by
  refine memOk_issue h ?_
  simpa [State.memOk] using h

theorem memOk_execTlbinvContext {s : State} (h : s.memOk) {a : BitVec 5} {r : BitVec 1} :
    (execTlbinvContext a r s).memOk := by
  refine memOk_issue h ?_
  simpa [State.memOk] using h

@[simp] theorem State.syncPut_mem (s : State) (p : Nat) (v : Word) : (s.syncPut p v).1.mem = s.mem := rfl

theorem memOk_syncCheck {s : State} (h : s.memOk) {a : BitVec 5} {k : Nat → Nat → Res} (hk : ∀ n p, (k n p).memOk) :
    (syncCheck s a k).memOk := by
  grind [syncCheck, Res.memOk]

@[simp] theorem memOk_syncUpdate {s : State} (h : s.memOk) {d a : BitVec 5} {new : Word → Option Word} :
    (syncUpdate s d a new).memOk := by
  grind [syncUpdate, Res.memOk, State.startFill_mem, State.syncPut_mem, memOk_syncCheck]

theorem memOk_execSytas {s : State} (h : s.memOk) {d a : BitVec 5} {f : BitVec 1} :
    (execSytas d a f s).memOk := by
  grind [execSytas, Out.memOk, Res.memOk, memOk_issue, memOk_syncUpdate]

theorem memOk_execSyfadd {s : State} (h : s.memOk) {d a b : BitVec 5} {f g : BitVec 1} :
    (execSyfadd d a b f g s).memOk := by
  grind [execSyfadd, Out.memOk, Res.memOk, memOk_issue, memOk_syncUpdate]

theorem memOk_execSyrd {s : State} (h : s.memOk) {d a : BitVec 5} {f : BitVec 1} :
    (execSyrd d a f s).memOk := by
  grind [execSyrd, Out.memOk, Res.memOk, State.startFill_mem, memOk_issue, memOk_syncCheck]

theorem memOk_execSywr {s : State} (h : s.memOk) {a b : BitVec 5} {f g : BitVec 1} :
    (execSywr a b f g s).memOk := by
  grind [execSywr, Out.memOk, Res.memOk, State.setThr_mem, State.syncPut_mem, memOk_issue, memOk_syncCheck]

theorem memOk_execSywait {s : State} (h : s.memOk) {a b : BitVec 5} {f g : BitVec 1} :
    (execSywait a b f g s).memOk := by
  grind [execSywait, Out.memOk, Res.memOk, memOk_issue, memOk_syncCheck, memOk_waitOn]

@[simp] theorem State.setRegion_mem (s : State) (r : Region) : (s.setRegion r).mem = s.mem := rfl

@[simp] theorem State.versEnd_mem (s : State) (x : Asker) (a : Word) (e : VersEnd) :
    (s.versEnd x a e).mem = s.mem := by
  unfold State.versEnd
  split <;> simp

@[simp] theorem State.reexamine_mem (s : State) (x : VersWait) : (s.reexamine x).mem = s.mem := by
  grind [State.reexamine, State.setRegion_mem, State.versEnd_mem]

@[simp] theorem State.wakeVers_mem (s : State) : (s.wakeVers).mem = s.mem := by
  simp [State.wakeVers, foldl_mem]

@[simp] theorem memOk_createVersion {s : State} (h : s.memOk) {r : Region} {a : Word} {v : BitVec 32} {val : Word} :
    (createVersion s r a v val).memOk := by
  grind [createVersion, Create.memOk, State.setRegion_mem, State.wakeVers_mem]

@[simp] theorem State.stopMaking_mem (s : State) (m : Maker) : (s.stopMaking m).mem = s.mem := rfl

@[simp] theorem memOk_makeVersion {s : State} (h : s.memOk) {m : Maker} {ctx : Nat} {r : Region} {a : Word}
    {v : BitVec 32} {val : Word} : (makeVersion s m ctx r a v val).memOk := by
  grind [makeVersion, Create.memOk, Made.memOk, memOk_createVersion]

theorem memOk_versAddr {s : State} (h : s.memOk) {a : Word} {k : Region → Res} (hk : ∀ v, (k v).memOk) :
    (versAddr s a k).memOk := by
  grind [versAddr, Res.memOk]

@[simp] theorem memOk_versRead {s : State} (h : s.memOk) {dests : List (BitVec 5)} {a : Word}
    {k : Region → VersWord → List Word} : (versRead s dests a k).memOk := by
  grind [versRead, Res.memOk, State.startFill_mem, memOk_versAddr]

theorem memOk_execVrld {s : State} (h : s.memOk) {d a b : BitVec 5} {f g : BitVec 1} :
    (execVrld d a b f g s).memOk := by
  grind [execVrld, Out.memOk, Res.memOk, State.setThr_mem, State.startFill_mem, memOk_issue, memOk_versAddr]

theorem memOk_execVrldle {s : State} (h : s.memOk) {d : BitVec 4} {a b : BitVec 5} {f g : BitVec 1} :
    (execVrldle d a b f g s).memOk := by
  grind [execVrldle, Out.memOk, Res.memOk, memOk_issue, memOk_versRead]

theorem memOk_execVrst {s : State} (h : s.memOk) {d a b : BitVec 5} {f g : BitVec 1} :
    (execVrst d a b f g s).memOk := by
  grind [execVrst, Create.memOk, Out.memOk, Res.memOk, memOk_createVersion, memOk_issue, memOk_versAddr]

theorem memOk_execVrfloor {s : State} (h : s.memOk) {a b : BitVec 5} {f g : BitVec 1} :
    (execVrfloor a b f g s).memOk := by
  refine memOk_issue h ?_
  dsimp only
  repeat' split
  all_goals simpa [State.memOk] using h

theorem memOk_execVrtop {s : State} (h : s.memOk) {d a : BitVec 5} {f : BitVec 1} :
    (execVrtop d a f s).memOk := by
  grind [execVrtop, Out.memOk, Res.memOk, memOk_issue, memOk_versRead]

theorem memOk_execVrpoll {s : State} (h : s.memOk) {d a b : BitVec 5} {f g : BitVec 1} :
    (execVrpoll d a b f g s).memOk := by
  grind [execVrpoll, Out.memOk, Res.memOk, memOk_issue, memOk_versRead]

end Sys2Proof.Machine
end

section
/-! PROOFS. The memory stays canonical, part 6: tiles, the ends of waits and the event rings. -/

namespace Sys2Proof.Machine

@[simp] theorem State.setSlot_mem (s : State) (d c n : Nat) (f : TileSlot → TileSlot) :
    (s.setSlot d c n f).mem = s.mem := by
  simp [State.setSlot]

@[simp] theorem State.pin_mem (s : State) (d c n line : Nat) : ∀ t ∈ (s.pin d c n line), t.mem = s.mem := by
  simp only [State.pin]
  repeat' split
  all_goals simp

@[simp] theorem State.unpin_mem (s : State) (d c n : Nat) (keep : List Nat) : (s.unpin d c n keep).mem = s.mem := rfl

@[simp] theorem State.freeTileRows_mem (s : State) (d c n : Nat) (t : TileSlot) :
    (s.freeTileRows d c n t).mem = s.mem := by
  simp [State.freeTileRows, foldl_mem]

@[simp] theorem State.endTask_mem (s : State) (d c n status : Nat) (addr : Word) :
    (s.endTask d c n status addr).mem = s.mem := by
  simp [State.endTask]

@[simp] theorem memOk_drainTask {s : State} (h : s.memOk) {d c n : Nat} : (s.drainTask d c n).memOk := by
  grind [State.drainTask, Made.memOk, State.endTask_mem, memOk_makeVersion]

@[simp] theorem memOk_fetchPart {s : State} (h : s.memOk) {d c n : Nat} {now : Bool} {a : Word} {t : TileSlot} :
    (fetchPart d c n now a s t).memOk := by
  grind [fetchPart, TileRead.memOk, Xlate.memOk, memOk_xlate, State.setCluster_mem, State.touchDirect_mem,
    State.pin_mem]

@[simp] theorem memOk_fetchParts {s : State} (h : s.memOk) {d c n : Nat} {now : Bool} {l : List Word} {t : TileSlot} :
    (fetchParts d c n now l s t).memOk := by
  induction l generalizing s t with
  | nil => exact h
  | cons x xs ih => grind [fetchParts, TileRead.memOk, memOk_fetchPart]

@[simp] theorem State.broadcast_mem (s : State) (d c n k : Nat) (t : TileSlot) :
    (s.broadcast d c n k t).1.mem = s.mem := rfl

@[simp] theorem memOk_fetchAhead {s : State} (h : s.memOk) {d c n : Nat} {l : List Word} {t : TileSlot} :
    (fetchAhead d c n l s t).1.memOk := by
  induction l generalizing s t with
  | nil => exact h
  | cons x xs ih => grind [fetchAhead, TileRead.memOk, memOk_fetchPart]

@[simp] theorem memOk_readAhead {s : State} (h : s.memOk) {d c n : Nat} {t : TileSlot} :
    (s.readAhead d c n t).1.memOk := by
  unfold State.readAhead
  split <;> simp [State.memOk, h]

@[simp] theorem State.checkPart_mem (s : State) (c : CoreId) : (s.checkPart c).1.mem = s.mem := by
  simp only [State.checkPart]
  split
  · rfl
  · simp [foldl_mem]

@[simp] theorem State.checkParts_mem (s : State) (d c : Nat) (l : List TilePart) :
    (s.checkParts d c l).1.mem = s.mem := by
  induction l generalizing s with
  | nil => rfl
  | cons x xs ih => grind [State.checkParts, State.checkPart_mem]

@[simp] theorem memOk_commitPart {s : State} (h : s.memOk) {d c n q : Nat} : (s.commitPart d c n q).memOk := by
  grind [State.commitPart, State.postCore_mem, State.setSlot_mem, memOk_commitAt]

theorem memOk_execTenq {s : State} (h : s.memOk) {d a : BitVec 5} : (execTenq d a s).memOk := by
  grind [execTenq, Out.memOk, Res.memOk, State.setSlot_mem, State.setThr_mem, memOk_issue, memOk_notSplit,
    memOk_readDesc]

theorem memOk_execTwin {s : State} (h : s.memOk) {d a : BitVec 5} : (execTwin d a s).memOk := by
  grind [execTwin, Out.memOk, Res.memOk, State.setThr_mem, memOk_issue, memOk_notSplit, memOk_waitOn]

theorem memOk_execTrel {s : State} (h : s.memOk) {a : BitVec 5} : (execTrel a s).memOk := by
  grind [execTrel, Out.memOk, Res.memOk, State.setSlot_mem, memOk_drainTask, memOk_issue, memOk_notSplit]

theorem memOk_execTcancel {s : State} (h : s.memOk) {a : BitVec 5} : (execTcancel a s).memOk := by
  grind [execTcancel, Out.memOk, Res.memOk, State.endTask_mem, memOk_issue, memOk_notSplit]

theorem memOk_execTileReady {s : State} (h : s.memOk) {die cluster slot : Nat} :
    (execTileReady die cluster slot s).memOk := by
  grind [execTileReady, Out.memOk, State.endTask_mem, State.setSlot_mem]

theorem memOk_execTilePlace {s : State} (h : s.memOk) {die cluster slot : Nat} :
    (execTilePlace die cluster slot s).memOk := by
  have put : ∀ (l : List TilePart) (t : State), t.memOk →
      (l.foldl (fun s p => s.takeTileRows ⟨die, cluster, p.core⟩) t).memOk :=
    fun l t ht => foldl_memOk (fun u p hu => memOk_takeTileRows hu) ht
  grind [execTilePlace, Out.memOk, State.setSlot_mem, memOk_drainTask, memOk_readAhead]

theorem memOk_execKStep {s : State} (h : s.memOk) {die cluster slot : Nat} :
    (execKStep die cluster slot s).memOk := by
  grind [execKStep, Out.memOk, TileRead.memOk, State.broadcast_mem, State.checkParts_mem, State.setSlot_mem,
    memOk_fetchParts, memOk_readAhead]

theorem memOk_commitAll {s : State} (h : s.memOk) {die cluster slot n : Nat} :
    (execTileWindowCommit.commitAll die cluster slot s n).memOk := by
  unfold execTileWindowCommit.commitAll
  rw [State.memOk, State.setSlot_mem]
  exact foldl_memOk (fun t q ht => memOk_commitPart ht) h

theorem memOk_execTileWindowCommit {s : State} (h : s.memOk) {die cluster slot : Nat} :
    (execTileWindowCommit die cluster slot s).memOk := by
  simp only [execTileWindowCommit]
  repeat' split
  · exact h
  · exact memOk_commitAll h
  · exact h
  · exact memOk_commitAll h
  · exact memOk_drainTask h
  · exact h

theorem memOk_execTileFetchFailure {s : State} (h : s.memOk) {die cluster slot : Nat} :
    (execTileFetchFailure die cluster slot s).memOk := by
  grind [execTileFetchFailure, Out.memOk, TileRead.memOk, State.endTask_mem, memOk_fetchParts]

theorem memOk_execTilePark {s : State} (h : s.memOk) {die cluster slot : Nat} :
    (execTilePark die cluster slot s).memOk := by
  grind [execTilePark, Out.memOk, State.freeTileRows_mem, State.setSlot_mem]

theorem memOk_reissue {s : State} (h : s.memOk) {acc : Access} {f : Fill} {ea : Word} {size : Nat}
    {act : Place → State → List Word × State} (ha : ∀ p t, t.memOk → (act p t).2.memOk) :
    (s.reissue acc f ea size act).memOk := by
  grind [State.reissue, Resolved.memOk, State.setThr_mem, memOk_resolveThr]

@[simp] theorem memOk_fillOne {s : State} (h : s.memOk) {c : CoreId} {w : Who} {f : Fill} :
    (s.fillOne c w f).memOk := by
  grind [State.fillOne, State.focus_mem, State.onHart_mem, State.onThr_mem, State.touchPlace_mem, memOk_atomAt,
    memOk_reissue]

theorem memOk_execFillComplete {s : State} (h : s.memOk) {c : CoreId} {w : Who} {n : Nat} :
    (execFillComplete c w n s).memOk := by
  grind [execFillComplete, Out.memOk, memOk_fillOne]

@[simp] theorem memOk_waitEnd {s : State} (h : s.memOk) {c : CoreId} {w : Who} {cause : Wait → Option (Cause × Word)} :
    (waitEnd s c w cause).memOk := by
  grind [waitEnd, State.focus_mem, memOk_takeTrap]

theorem memOk_execWaitTimeout {s : State} (h : s.memOk) {c : CoreId} {w : Who} :
    (execWaitTimeout c w s).memOk := by
  grind [execWaitTimeout, Out.memOk, memOk_waitEnd]

@[simp] theorem memOk_versWaitEnd {s0 : State} (h : s0.memOk) {c : CoreId} {w : Who} {kind : WaitKind} {cause : Cause} :
    (versWaitEnd s0 c w kind cause).memOk := by
  grind [versWaitEnd, State.focus_mem, State.wakeVers_mem, memOk_takeTrap]

theorem memOk_execVerTimeout {s : State} (h : s.memOk) {c : CoreId} {w : Who} :
    (execVerTimeout c w s).memOk := by
  grind [execVerTimeout, Out.memOk, memOk_versWaitEnd]

theorem memOk_execVerFull {s : State} (h : s.memOk) {c : CoreId} {w : Who} : (execVerFull c w s).memOk := by
  grind [execVerFull, Out.memOk, memOk_versWaitEnd]

theorem memOk_execFeTimeout {s : State} (h : s.memOk) {c : CoreId} {n : Nat} :
    (execFeTimeout c n s).memOk := by
  have trap : ∀ t : State, t.memOk → ∀ ea pc, ((t.focus c t.who).tryTrap .feTimeout ea pc).getD s |>.memOk :=
    fun t ht ea pc => memOk_getD (memOk_tryTrap (by simpa [State.memOk] using ht)) h
  grind [execFeTimeout, Out.memOk, State.focus_mem, State.onThr_mem, State.withdrawTag_mem, memOk_tryTrap, memOk_getD]

@[simp] theorem State.passMade_mem (s : State) (ns : List Nat) : (s.passMade ns).mem = s.mem := by
  simp [State.passMade]

@[simp] theorem State.closeWait_mem (s : State) (c : CoreId) (w : Who) (park : Bool) :
    ∀ t ∈ (s.closeWait c w park), t.mem = s.mem := by
  grind [State.closeWait, State.focus_mem, State.onThr_mem, State.passMade_mem, State.withdrawTag_mem]

@[simp] theorem memOk_deliver {s : State} (h : s.memOk) : (s.deliver).memOk := by
  unfold State.deliver
  split
  · exact h
  · split
    · exact h
    · next t ht =>
      have hm : t.memOk := by rw [State.memOk, State.closeWait_mem s _ _ _ t ht]; exact h
      exact memOk_getD (memOk_tryTrap (s := t.setThr _) hm) h

theorem memOk_execTrapDelivery {s : State} (h : s.memOk) {c : CoreId} {w : Who} :
    (execTrapDelivery c w s).memOk := by
  grind [execTrapDelivery, Out.memOk, State.focus_mem, memOk_deliver]

@[simp] theorem State.forcePark_mem (s : State) (c : CoreId) (w : Who) : (s.forcePark c w).mem = s.mem := by
  grind [State.forcePark, State.closeWait_mem, State.onThr_mem]

@[simp] theorem memOk_withdrawStalled {s : State} (h : s.memOk) {c : CoreId} {w : Who} :
    (s.withdrawStalled c w).memOk := by
  grind [State.withdrawStalled, State.focus_mem, State.setThr_mem, State.startFill_mem]

theorem memOk_execPredeadlineExpiry {s : State} (h : s.memOk) {c : CoreId} {w : Who} :
    (execPredeadlineExpiry c w s).memOk := by
  grind [execPredeadlineExpiry, Out.memOk, State.forcePark_mem, State.onThr_mem, memOk_withdrawStalled]

@[simp] theorem State.endCut_mem (t s : State) : (t.endCut s).mem = t.mem := by
  unfold State.endCut
  split <;> simp

theorem memOk_execEventSettle {s : State} (h : s.memOk) {c : CoreId} : (execEventSettle c s).memOk := by
  simp [execEventSettle, State.memOk, h]

theorem memOk_execSpoolFetch {s : State} (h : s.memOk) {c : CoreId} {n cnt : Nat} :
    (execSpoolFetch c n cnt s).memOk := by
  grind [execSpoolFetch, Out.memOk, memOk_fetchSpool]

@[simp] theorem postedFail_mem (s : State) (c : CoreId) (w : Who) (r : Posted) (cause : Cause) (num : Nat) :
    (postedFail s c w r cause num).mem = s.mem := by
  simp [postedFail]

@[simp] theorem memOk_postedEnd {s : State} (h : s.memOk) {c : CoreId} {w : Who} {r : Posted} :
    (postedEnd s c w r).memOk := by
  grind [postedEnd, Resolved.memOk, State.focus_mem, State.onThr_mem, memOk_atomAt, memOk_resolve, postedFail_mem]

theorem memOk_execPostedReductionWalkEnd {s : State} (h : s.memOk) {c : CoreId} {w : Who} :
    (execPostedReductionWalkEnd c w s).memOk := by
  grind [execPostedReductionWalkEnd, Out.memOk, memOk_postedEnd]

theorem memOk_execFloorApply {s : State} (h : s.memOk) {region die : Nat} :
    (execFloorApply region die s).memOk := by
  simp [execFloorApply, State.memOk, h]

@[simp] theorem State.applyMsg_mem (s : State) (die home : Nat) : (s.applyMsg die home).mem = s.mem := by
  unfold State.applyMsg
  repeat' split
  all_goals simp

theorem memOk_execSyncBroadcast {s : State} (h : s.memOk) {die : Nat} : (execSyncBroadcast die s).memOk := by
  grind [execSyncBroadcast, Out.memOk, State.applyMsg_mem]

theorem memOk_execDsModeChange {s : State} (h : s.memOk) {c : CoreId} : (execDsModeChange c s).memOk := by
  simp [execDsModeChange, State.memOk, h]

theorem memOk_execIll {s : State} (h : s.memOk) {w : BitVec 32} : (execIll w s).memOk := by
  unfold execIll
  split
  · trivial
  · exact memOk_finish h

@[simp] theorem memOk_drvXlate {s : State} (h : s.memOk) {before : Option Nat} {ctx : Nat} {acc : Access} {a : Word} :
    (drvXlate s before ctx acc a).memOk := by
  grind [drvXlate, Xlate.memOk, memOk_xlate]

@[simp] theorem memOk_drvReadBy {s : State} (h : s.memOk) {before : Option Nat} {ctx : Nat} {l : List (Word × Nat)}
    {l' : List Byte} : (drvReadBy before ctx l l' s).memOk := by
  induction l generalizing l' s with
  | nil => exact h
  | cons x xs ih => grind [drvReadBy, DrvRead.memOk, Xlate.memOk, State.touchDirect_mem, memOk_drvXlate]

@[simp] theorem memOk_drvRead {s : State} (h : s.memOk) {ctx : Nat} {ps : List (Word × Nat)} {acc : List Byte} :
    (drvRead ctx ps acc s).memOk := by
  grind [drvRead, DrvRead.memOk, memOk_drvReadBy]

@[simp] theorem memOk_drvWriteBy {s : State} (h : s.memOk) {before : Option Nat} {ctx : Nat} {l : List (Word × Nat)}
    {l' : List Byte} : (drvWriteBy before ctx l l' s).memOk := by
  induction l generalizing l' s with
  | nil => exact h
  | cons x xs ih => grind [drvWriteBy, DrvWrite.memOk, Xlate.memOk, State.touchDirect_mem, memOk_drvXlate,
    memOk_storeAt]

@[simp] theorem memOk_drvWrite {s : State} (h : s.memOk) {ctx : Nat} {ps : List (Word × Nat)} {bs : List Byte} :
    (drvWrite ctx ps bs s).memOk := by
  grind [drvWrite, DrvWrite.memOk, memOk_drvWriteBy]

@[simp] theorem State.setQueue_mem (s : State) (q : Nat) (f : Queue → Queue) : (s.setQueue q f).mem = s.mem := by
  simp [State.setQueue]

@[simp] theorem memOk_writeHevCfg {s : State} (h : s.memOk) {v : Word} : (s.writeHevCfg v).memOk := by
  grind [State.writeHevCfg, memOk_flushRing]

@[simp] theorem State.writeHevBase_mem (s : State) (v : Word) : (s.writeHevBase v).mem = s.mem := by
  simp [State.writeHevBase]

@[simp] theorem memOk_writeHevHead {s : State} (h : s.memOk) {v : Word} : (s.writeHevHead v).memOk := by
  grind [State.writeHevHead, memOk_flushRing]

@[simp] theorem State.askTeam_mem (s : State) (tid : Nat) (us : Option Nat) (hot : Bool) :
    (s.askTeam tid us hot).mem = s.mem := by
  unfold State.askTeam
  split <;> simp

@[simp] theorem State.enterBrownout_mem (s : State) : (s.enterBrownout).mem = s.mem := by
  simp [State.enterBrownout, foldl_mem]

@[simp] theorem State.checkHold_mem (s : State) : (s.checkHold).mem = s.mem := by
  simp [State.checkHold]

@[simp] theorem State.writePwrctl_mem (s : State) (v : Word) : (s.writePwrctl v).mem = s.mem := by
  simp [State.writePwrctl]

@[simp] theorem memOk_storeHeader {s : State} (h : s.memOk) {q : Nat} : (s.storeHeader q).memOk := by
  grind [State.storeHeader, DrvWrite.memOk, State.setQueue_mem, memOk_drvWrite]

@[simp] theorem memOk_settleHeader {s : State} (h : s.memOk) {q : Nat} : (s.settleHeader q).memOk := by
  grind [State.settleHeader, DrvWrite.memOk, State.setQueue_mem, memOk_storeHeader]

@[simp] theorem memOk_peek {s : State} (h : s.memOk) {q : Nat} : (s.peek q).memOk := by
  grind [State.peek, DrvRead.memOk, DrvWrite.memOk, Slot.memOk, memOk_drvRead, memOk_storeHeader]

theorem memOk_execQtailWrite {s : State} (h : s.memOk) {q : Nat} {v : Word} :
    (execQtailWrite q v s).memOk := by
  simp [execQtailWrite, State.memOk, h]

theorem memOk_execQueueEnable {s : State} (h : s.memOk) {q : Nat} : (execQueueEnable q s).memOk := by
  simp [execQueueEnable, State.memOk, h]

theorem memOk_execQueueDisable {s : State} (h : s.memOk) {q : Nat} : (execQueueDisable q s).memOk := by
  simp [execQueueDisable, State.memOk, h]

theorem memOk_execFltClear {s : State} (h : s.memOk) {q : Nat} : (execFltClear q s).memOk := by
  simp [execFltClear, State.memOk, h]

theorem memOk_execHostEventRingEnable {s : State} (h : s.memOk) : (execHostEventRingEnable s).memOk := by
  grind [execHostEventRingEnable, Out.memOk, memOk_flushRing]

theorem memOk_execHevheadWrite {s : State} (h : s.memOk) {v : Word} : (execHevheadWrite v s).memOk := by
  simp [execHevheadWrite, State.memOk, h]

theorem memOk_execHostEventRecord {s : State} (h : s.memOk) {r : EvRec} :
    (execHostEventRecord r s).memOk := by
  simp [execHostEventRecord, State.memOk, h]

theorem memOk_execRegisterWrite {s : State} (h : s.memOk) {r : RegName} {v : Word} :
    (execRegisterWrite r v s).memOk := by
  simp only [execRegisterWrite, Out.memOk]
  split
  · exact h
  · cases r with
    | qcfg q => exact memOk_settleHeader (by simpa [State.memOk] using h)
    | hevcfg => exact memOk_writeHevCfg h
    | hevhead => exact memOk_writeHevHead h
    | _ => simpa [State.memOk] using h

theorem memOk_execPwrctlEnter {s : State} (h : s.memOk) : (execPwrctlEnter s).memOk := by
  simp [execPwrctlEnter, State.memOk, h]

theorem memOk_execPwrctlExit {s : State} (h : s.memOk) : (execPwrctlExit s).memOk := by
  simp [execPwrctlExit, State.memOk, h]

theorem memOk_execBrnNAssert {s : State} (h : s.memOk) : (execBrnNAssert s).memOk := by
  simp [execBrnNAssert, State.memOk, h]

theorem memOk_execBrnNDeassert {s : State} (h : s.memOk) : (execBrnNDeassert s).memOk := by
  simp [execBrnNDeassert, State.memOk, h]

end Sys2Proof.Machine
end

section
/-! PROOFS. The memory stays canonical, part 7: Bobbin and the copies between modules. -/

namespace Sys2Proof.Machine

@[simp] theorem State.setBobbin_mem (s : State) (c : CoreId) (k : EngCmd) : (s.setBobbin c k).mem = s.mem := by
  simp [State.setBobbin]

@[simp] theorem memOk_cmdResolve {s : State} (h : s.memOk) {c : CoreId} {k : EngCmd} {phys : Bool} {acc : Access}
    {a : Word} {align : Nat} : (s.cmdResolve c k phys acc a align).memOk := by
  unfold State.cmdResolve
  split
  · split
    · exact h
    · split
      · exact memOk_behind (r := .ok _ s) h
      · exact h
  · exact memOk_behind (memOk_resolveWith h)

theorem memOk_bobRead {s : State} (h : s.memOk) {c : CoreId} {k : EngCmd} {phys : Bool} {a : Word} {n align : Nat}
    {f : State → List Byte → BobRes} (hf : ∀ t l, t.memOk → (f t l).memOk) :
    (bobRead s c k phys a n align f).memOk := by
  grind [bobRead, BobRes.memOk, Resolved.memOk, State.touchVec_mem, memOk_cmdResolve]

@[simp] theorem memOk_bobWrite {s : State} (h : s.memOk) {c : CoreId} {k : EngCmd} {phys : Bool} {a : Word}
    {bs : List Byte} {align : Nat} : (bobWrite s c k phys a bs align).memOk := by
  grind [bobWrite, BobRes.memOk, Resolved.memOk, State.touchVec_mem, memOk_cmdResolve, memOk_storeAt]

@[simp] theorem State.takeLines_mem (s : State) (c : CoreId) (k : EngCmd) (phys : Bool) (r : Word × Nat) :
    (s.takeLines c k phys r).mem = s.mem := by
  refine foldl_mem (fun t x => ?_) _ s
  split <;> rfl

theorem memOk_bobLoop {s : State} (h : s.memOk) {f : Nat → State → BobRes} {next : Nat} {l : List (Nat × Nat)}
    (hf : ∀ u t, t.memOk → (f u t).memOk) : (bobLoop f next l s).memOk := by
  induction l generalizing s with
  | nil => exact h
  | cons u us ih =>
    have hu := hf u.1 s h
    simp only [bobLoop]
    split
    · next ht => rw [ht] at hu; exact ih hu
    · next ht => rwa [ht] at hu
    · exact h

@[simp] theorem State.clearWritten_mem (s : State) (c : CoreId) (k : EngCmd) (n : Nat) :
    (s.clearWritten c k n).mem = s.mem := by
  simp [State.clearWritten]

theorem memOk_bobTurn {s : State} (h : s.memOk) {c : CoreId} {ticket op : Nat}
    {aligns : List Word → List (Word × Nat)} {units : List Word → List (Nat × Nat)}
    {f : EngCmd → Nat → State → BobRes} (hf : ∀ k u t, t.memOk → (f k u t).memOk) :
    (s.bobTurn c ticket op aligns units f).memOk := by
  unfold State.bobTurn
  split
  · exact h
  · next k _ =>
    have hl : ∀ (u : List (Nat × Nat)) (n : Nat), (bobLoop (f k) n u { s with free := s.free + 1 }).memOk :=
        fun u n => memOk_bobLoop (s := { s with free := s.free + 1 }) h (hf k)
    split
    · dsimp only
      split
      · exact h
      · split <;> simpa [State.memOk] using h
    · dsimp only
      split
      · next ht => simpa [State.memOk] using (congrArg BobEnd.memOk ht).mp (hl _ _)
      · next ht => simpa [State.memOk] using (congrArg BobEnd.memOk ht).mp (hl _ _)

@[simp] theorem memOk_sliceWrite {s : State} (h : s.memOk) {c : CoreId} {k : EngCmd} {row w lane v : Nat} :
    (s.sliceWrite c k row w lane v).memOk := by
  unfold State.sliceWrite
  split
  · simpa [State.memOk] using h
  · split
    · exact foldl_memOk (fun t b ht => memOk_putRows ht) h
    · exact h
  · exact h

@[simp] theorem State.sliceRead_mem (s : State) (c : CoreId) (k : EngCmd) (row w lane : Nat) :
    (s.sliceRead c k row w lane).1.mem = s.mem := by
  grind [State.sliceRead, State.scoreLane_mem]

@[simp] theorem State.compareSlice_mem (s : State) (c : CoreId) (k : EngCmd) (lane : Nat) :
    (s.compareSlice c k lane).1.mem = s.mem := by
  grind [State.compareSlice, State.scoreLane_mem, State.setCore_mem]

theorem memOk_readElems {s : State} (h : s.memOk) {c : CoreId} {k : EngCmd} {base : Word} {eb w : Nat}
    {f : State → List Nat → BobRes} {l l' : List Nat} (hf : ∀ t l, t.memOk → (f t l).memOk) :
    (readElems c k base eb w f l l' s).memOk := by
  induction l generalizing l' s with
  | nil => exact hf s l' h
  | cons e es ih => exact memOk_bobRead h fun t bs ht => ih ht

@[simp] theorem memOk_writeWords {s : State} (h : s.memOk) {c : CoreId} {k : EngCmd} {l : List Nat} {a : Word} :
    (writeWords c k l a s).memOk := by
  induction l generalizing a s with
  | nil => exact h
  | cons x xs ih => grind [writeWords, BobRes.memOk, memOk_bobWrite]

theorem memOk_readWords {s : State} (h : s.memOk) {c : CoreId} {k : EngCmd} {f : State → List Nat → BobRes} {n : Nat}
    {a : Word} {l : List Nat} (hf : ∀ t l, t.memOk → (f t l).memOk) : (readWords c k f n a l s).memOk := by
  induction n generalizing a l s with
  | zero => exact hf s l h
  | succ n ih => exact memOk_bobRead h fun t bs ht => ih ht

theorem memOk_execCopy {s : State} (h : s.memOk) {c : CoreId} {ticket : Nat} :
    (execCopy c ticket s).memOk := by
  grind [execCopy, BobRes.memOk, Out.memOk, memOk_bobRead, memOk_bobTurn, memOk_bobWrite]

theorem memOk_execToslice {s : State} (h : s.memOk) {c : CoreId} {ticket : Nat} :
    (execToslice c ticket s).memOk := by
  grind [execToslice, BobRes.memOk, Out.memOk, memOk_bobRead, memOk_bobTurn, memOk_sliceWrite]

theorem memOk_execFromslice {s : State} (h : s.memOk) {c : CoreId} {ticket : Nat} :
    (execFromslice c ticket s).memOk := by
  grind [execFromslice, BobRes.memOk, Out.memOk, State.compareSlice_mem, State.sliceRead_mem, memOk_bobTurn,
    memOk_bobWrite]

theorem memOk_execPlanes {s : State} (h : s.memOk) {c : CoreId} {ticket : Nat} :
    (execPlanes c ticket s).memOk := by
  grind [execPlanes, BobRes.memOk, Out.memOk, memOk_bobTurn, memOk_readElems, memOk_writeWords]

theorem memOk_execUnplanes {s : State} (h : s.memOk) {c : CoreId} {ticket : Nat} :
    (execUnplanes c ticket s).memOk := by
  grind [execUnplanes, BobRes.memOk, Out.memOk, memOk_bobTurn, memOk_bobWrite, memOk_readWords]

theorem memOk_readBlock {s : State} (h : s.memOk) {c : CoreId} {k : EngCmd} {f : State → List Byte → BobRes}
    {n n' : Nat} {a : Word} {l : List Byte} (hf : ∀ t l, t.memOk → (f t l).memOk) :
    (readBlock c k f n n' a l s).memOk := by
  induction n generalizing n' a l s with
  | zero => exact hf s l h
  | succ n ih =>
    unfold readBlock
    split
    · exact hf s l h
    · exact memOk_bobRead h fun t bs ht => ih ht

theorem memOk_execMxsplit {s : State} (h : s.memOk) {c : CoreId} {ticket : Nat} :
    (execMxsplit c ticket s).memOk := by
  refine memOk_bobTurn h fun k u t ht => memOk_bobRead ht fun t l ht => memOk_readBlock ht fun t l ht => ?_
  exact memOk_bobWrite (foldl_memOk (fun t x ht => memOk_sliceWrite ht) ht)

@[simp] theorem State.postDone_mem (s : State) (c : CoreId) (k : EngCmd) (r : EvRec) :
    (s.postDone c k r).mem = s.mem := by
  unfold State.postDone
  split <;> simp

theorem memOk_execCopyDone {s : State} (h : s.memOk) {c : CoreId} {ticket : Nat} :
    (execCopyDone c ticket s).memOk := by
  grind [execCopyDone, Out.memOk, State.postDone_mem, State.setBobbin_mem, State.setCore_mem]

@[simp] theorem State.setXcopy_mem (s : State) (c : CoreId) (k : EngCmd) : (s.setXcopy c k).mem = s.mem := by
  simp [State.setXcopy]

@[simp] theorem State.sendPort_mem (s : State) (p : Option Nat) (n : BitVec 12) (payload : List Byte) :
    (s.sendPort p n payload).mem = s.mem := by
  unfold State.sendPort
  split <;> simp

@[simp] theorem State.xcopyStart_mem (s : State) (c : CoreId) (k : EngCmd) : (s.xcopyStart c k).mem = s.mem := by
  simp [State.xcopyStart]

@[simp] theorem State.xcopyFails_mem (s : State) (c : CoreId) (k : EngCmd) (status : Nat) (a : Word) :
    (s.xcopyFails c k status a).mem = s.mem := by
  simp [State.xcopyFails]

theorem memOk_xcopyRead {s : State} (h : s.memOk) {c : CoreId} {k : EngCmd} {a : Word} {n : Nat} {l : List Byte}
    {k' : (State → List Byte → BobRes)} (hk : ∀ t l, t.memOk → (k' t l).memOk) :
    (xcopyRead s c k a n l k').memOk := by
  induction n generalizing a l s with
  | zero => exact hk s l h
  | succ n ih => exact memOk_bobRead h fun t bs ht => ih ht

theorem memOk_execXcopyPut {s : State} (h : s.memOk) {c : CoreId} {ticket : Nat} :
    (execXcopyPut c ticket s).memOk := by
  grind [execXcopyPut, BobRes.memOk, Out.memOk, State.sendPort_mem, State.setXcopy_mem, State.xcopyFails_mem,
    State.xcopyStart_mem, memOk_xcopyRead]

@[simp] theorem memOk_writeParts {s : State} (h : s.memOk) {c : CoreId} {k : EngCmd} {n : Nat} {l : List Byte}
    {a : Word} : (writeParts c k n l a s).memOk := by
  induction n generalizing l a s with
  | zero => exact h
  | succ n ih => grind [writeParts, BobRes.memOk, memOk_bobWrite]

/-- The arrival of a GET's data as a function of their offset: the offset is a remainder modulo 2^57, which the kernel
must not evaluate. -/
theorem getArrives_at : ∃ arrive : Nat → State → Flit → CoreId → EngCmd → Option State,
    (getArrives = fun s f c k => arrive (above (flitAddr f) (xLaddr k.desc)) s f c k) ∧
    ∀ off s f c k, s.memOk → ∀ t ∈ arrive off s f c k, t.memOk := by
  refine ⟨fun off s f c k =>
    let data := (flitData f).take (xCount k.desc - off)
    match writeParts c k (data.length / 16) data (xLaddr k.desc + word off) s with
    | .ok s' =>
      let done := k.done + data.length
      some (s'.setXcopy c { k with
        ended := decide (xCount k.desc ≤ done), done := done, got := k.got ++ [(off, data.length)] })
    | .bad s' st a => some (s'.xcopyFails c k st a)
    | .stall => none, rfl, ?_⟩
  intro off s f c k h
  have hw : ∀ n d a, (writeParts c k n d a s).memOk := fun _ _ _ => memOk_writeParts h
  grind [BobRes.memOk, State.setXcopy_mem, State.xcopyFails_mem]

@[simp] theorem memOk_getArrives {s : State} (h : s.memOk) {f : Flit} {c : CoreId} {k : EngCmd} :
    ∀ t ∈ (getArrives s f c k), t.memOk := by
  obtain ⟨arrive, hg, ha⟩ := getArrives_at
  rw [hg]
  exact ha _ s f c k h

@[simp] theorem State.setRemote_mem (s : State) (r : Remote) : (s.setRemote r).mem = s.mem := rfl

@[simp] theorem State.dropRemote_mem (s : State) (r : Remote) : (s.dropRemote r).mem = s.mem := rfl

@[simp] theorem State.endRemote_mem (s : State) (r : Remote) (status : Nat) (a : Word) :
    (s.endRemote r status a).mem = s.mem := by
  simp [State.endRemote]

@[simp] theorem memOk_remoteResolve {s : State} (h : s.memOk) {r : Remote} {acc : Access} {a : Word} :
    (s.remoteResolve r acc a).memOk := by
  unfold State.remoteResolve
  split
  · exact h
  · have hx : (s.xlate (some r.stamp) [] 0 r.ctx true acc a).memOk := memOk_xlate h
    split
    · next t ht => rw [ht] at hx; exact memOk_behind (r := .ok _ t) hx
    · next ht => rwa [ht] at hx
    · next ht => rwa [ht] at hx

@[simp] theorem memOk_putParts {s : State} (h : s.memOk) {r : Remote} {n : Nat} {l : List Byte} {a : Word} :
    (putParts r n l a s).memOk := by
  induction n generalizing l a s with
  | zero => exact h
  | succ n ih => grind [putParts, BobRes.memOk, Resolved.memOk, State.touchVec_mem, memOk_remoteResolve,
    memOk_storeAt]

theorem memOk_getParts {s : State} (h : s.memOk) {r : Remote} {n : Nat} {l : List Byte} {a : Word}
    {k : (State → List Byte → BobRes)} (hk : ∀ t l, t.memOk → (k t l).memOk) : (getParts r n l a s k).memOk := by
  induction n generalizing l a s with
  | zero => exact hk s l h
  | succ n ih => grind [getParts, BobRes.memOk, Resolved.memOk, memOk_remoteResolve, State.touchVec_mem]

@[simp] theorem State.takeRemote_mem (s : State) (r : Remote) : (s.takeRemote r).mem = s.mem := by
  unfold State.takeRemote
  split
  · rfl
  · refine foldl_mem (fun t x => ?_) _ s
    split <;> rfl

@[simp] theorem State.openRemote_mem (s : State) (f : Flit) : (s.openRemote f).mem = s.mem := by
  simp [State.openRemote]

/-- As `getArrives_at`, for the data of another module's PUT. -/
theorem putArrives_at : ∃ arrive : Nat → State → Flit → Remote → Option State,
    (putArrives = fun s f r => arrive (above (flitAddr f) r.addr) s f r) ∧
    ∀ off s f r, s.memOk → ∀ t ∈ arrive off s f r, t.memOk := by
  refine ⟨fun off s f r =>
    let data := (flitData f).take (r.count - off)
    match putParts r (data.length / 16) data (r.addr + word off) s with
    | .ok s' =>
      let r1 := { r with done := r.done + data.length, got := r.got ++ [(off, data.length)] }
      some (if r.count ≤ r1.done then s'.endRemote r1 0 0
        else (s'.setRemote r1).sendPort (s'.routeTo r.node) r.node (ackPayload r.ticket r.core r1.done))
    | .bad s' st a => some (s'.endRemote r st a)
    | .stall => none, rfl, ?_⟩
  intro off s f r h
  have hw : ∀ n d a, (putParts r n d a s).memOk := fun _ _ _ => memOk_putParts h
  grind [BobRes.memOk, State.endRemote_mem, State.sendPort_mem, State.setRemote_mem]

@[simp] theorem memOk_putArrives {s : State} (h : s.memOk) {f : Flit} {r : Remote} :
    ∀ t ∈ (putArrives s f r), t.memOk := by
  obtain ⟨arrive, hp, ha⟩ := putArrives_at
  rw [hp]
  exact ha _ s f r h

@[simp] theorem memOk_serveGet {s : State} (h : s.memOk) {r : Remote} : (s.serveGet r).memOk := by
  grind [State.serveGet, BobRes.memOk, State.dropRemote_mem, State.endRemote_mem, State.sendPort_mem,
    State.setRemote_mem, memOk_getParts]

theorem memOk_execXcopyGet {s : State} (h : s.memOk) {c : CoreId} {ticket : Nat} :
    (execXcopyGet c ticket s).memOk := by
  grind [execXcopyGet, Out.memOk, State.xcopyStart_mem]

@[simp] theorem memOk_remoteGet {s : State} (h : s.memOk) {n : BitVec 12} {c : CoreId} {ticket : Nat} :
    (s.remoteGet n c ticket).memOk := by
  unfold State.remoteGet
  repeat' split
  all_goals simp [State.memOk, h]

@[simp] theorem memOk_xcopyFlit {s : State} (h : s.memOk) {f : Flit} : ∀ t ∈ (s.xcopyFlit f), t.memOk := by
  grind [State.xcopyFlit, State.dropRemote_mem, State.openRemote_mem, State.setXcopy_mem, memOk_getArrives,
    memOk_putArrives]

theorem memOk_execXcopyDataFlit {s : State} (h : s.memOk) {f : Flit} : (execXcopyDataFlit f s).memOk := by
  simp only [execXcopyDataFlit, Out.memOk]
  repeat' split
  · exact h
  · exact h
  · next ht _ => exact memOk_getD (memOk_xcopyFlit (memOk_takeFlit h _ ht)) h
  · next ht _ => exact memOk_takeFlit h _ ht

theorem memOk_execXcopyDone {s : State} (h : s.memOk) {c : CoreId} {ticket : Nat} {status : BitVec 8}
    {addr : Word} : (execXcopyDone c ticket status addr s).memOk := by
  grind [execXcopyDone, Out.memOk, State.postDone_mem, State.setCore_mem, State.setXcopy_mem]

theorem memOk_execXcopyPathTimeout {s : State} (h : s.memOk) {c : CoreId} {ticket : Nat} :
    (execXcopyPathTimeout c ticket s).memOk := by
  grind [execXcopyPathTimeout, Out.memOk, State.setXcopy_mem]

@[simp] theorem State.remotePath_mem (s : State) (n : BitVec 12) (c : CoreId) (ticket : Nat) :
    (s.remotePath n c ticket).mem = s.mem := by
  unfold State.remotePath
  split <;> simp

end Sys2Proof.Machine
end

section
/-! PROOFS. The memory stays canonical, part 8: placement, the Drover, power and the dies. -/

namespace Sys2Proof.Machine

@[simp] theorem State.serveUpTo_mem (s : State) (level q : Nat) : (s.serveUpTo level q).mem = s.mem := rfl

@[simp] theorem State.round_mem (level : Nat) (rd : List (Option (Dispatch × Nat))) (n : Nat) (s : State) :
    ∀ p ∈ (s.round level rd n), p.2.mem = s.mem := by
  induction n generalizing s with
  | zero => simp [State.round]
  | succ n ih => grind [State.round, State.setQueue_mem, State.serveUpTo_mem]

@[simp] theorem memOk_select {s : State} (h : s.memOk) : ∀ p ∈ (s.select), p.2.memOk := by
  simp only [State.select]
  split
  · split
    · rintro p ⟨rfl⟩
      simpa [State.memOk] using h
    · intro p hp
      rw [State.memOk, State.round_mem _ _ _ _ p hp]
      exact h
  · intro p hp
    rw [State.memOk, State.round_mem _ _ _ _ p hp]
    exact h

@[simp] theorem State.placeTeam_mem (s : State) (id : Nat) (l : Launch) (d c : Nat) (areas : List (Nat × Nat)) :
    (s.placeTeam id l d c areas).mem = s.mem := by
  simp [State.placeTeam, foldl_mem]

theorem memOk_execTeamPlace {s : State} (h : s.memOk) {launch : Nat} : (execTeamPlace launch s).memOk := by
  simp only [execTeamPlace, Out.memOk]
  repeat' split
  · simpa [State.memOk] using memOk_select h _ ‹_›
  all_goals exact h

@[simp] theorem memOk_writeImage {s : State} (h : s.memOk) {base size : Nat} {parts : List (Nat × List Byte)} :
    (s.writeImage base size parts).memOk := by
  exact foldl_memOk (fun t p ht => memOk_physStore ht _ _) (memOk_physStore h _ _)

@[simp] theorem memOk_saveTeam {s : State} (h : s.memOk) {tid : Nat} {t : Team} : (s.saveTeam tid t).memOk := by
  have h1 : ∀ hs : List Hart, (hs.foldl (fun t x => t.writeImage x.ctxbase 0x21_C000 x.image) s).memOk :=
    fun hs => foldl_memOk (fun t x ht => memOk_writeImage ht) h
  unfold State.saveTeam
  change memWf (State.dropSlots (List.foldl _ (List.foldl _ (List.foldl _ s _) _) _) _ _ _).mem = true
  rw [State.dropSlots_mem, foldl_mem (fun t c => ?_)]
  · exact foldl_memOk (fun t x ht => memOk_writeImage ht) (h1 _)
  · rw [State.remapCore_mem, State.setCore_mem]

theorem memOk_execContextSave {s : State} (h : s.memOk) {team : Nat} : (execContextSave team s).memOk := by
  grind [execContextSave, Out.memOk, memOk_saveTeam]

@[simp] theorem State.goOn_mem (s : State) (tid : Nat) : (s.goOn tid).mem = s.mem := by
  unfold State.goOn
  split
  · split
    · rfl
    · split
      · simp [foldl_mem]
      · rfl
  · rfl

@[simp] theorem State.restoreTeam_mem (s : State) (tid : Nat) (t : Team) (d c : Nat) :
    (s.restoreTeam tid t d c).mem = s.mem := by
  simp only [State.restoreTeam]
  rw [State.goOn_mem, foldl_mem (fun t g => ?_)]
  · rw [foldl_mem (fun t x => ?_), foldl_mem (fun t p => ?_)]
    · simp
    · simp
  · split <;> simp

theorem memOk_execTeamRestore {s : State} (h : s.memOk) {team die cluster : Nat} :
    (execTeamRestore team die cluster s).memOk := by
  simp only [execTeamRestore, Out.memOk]
  repeat' split
  · simpa [State.memOk] using h
  · exact h
  · next hs _ => simpa [State.memOk] using memOk_select h _ hs
  all_goals exact h

theorem memOk_execVictimSelection {s : State} (h : s.memOk) {launch : Nat} :
    (execVictimSelection launch s).memOk := by
  simp only [execVictimSelection, Out.memOk]
  repeat' split
  · exact foldl_memOk (fun t v ht => by simpa [State.memOk] using ht) h
  all_goals exact h

@[simp] theorem State.mark_mem (s : State) (k : Fin 8) : (s.mark k).mem = s.mem := rfl

@[simp] theorem State.readTemps_mem (s : State) : (s.readTemps).mem = s.mem := rfl

@[simp] theorem State.shed_mem (s : State) (x : Nat × Nat) : (s.shed x).mem = s.mem := by
  grind [State.shed, State.askTeam_mem, State.setCluster_mem]

theorem memOk_execHotSpotCheck {s : State} (h : s.memOk) : (execHotSpotCheck s).memOk := by
  simp only [execHotSpotCheck, Out.memOk]
  split
  · simpa [State.memOk, foldl_mem State.shed_mem] using h
  · exact h

@[simp] theorem memOk_complete {s : State} (h : s.memOk) {c : Cmd} {status : Nat} : (s.complete c status).memOk := by
  grind [State.complete, DrvWrite.memOk, State.stopMaking_mem, memOk_drvWrite]

@[simp] theorem memOk_settleQueue {s : State} (h : s.memOk) {q : Nat} : (s.settleQueue q).memOk := by
  unfold State.settleQueue
  refine memOk_settleHeader (foldl_memOk (fun t c ht => ?_) h)
  split
  · exact memOk_complete ht
  · exact ht

theorem memOk_onQueue {s : State} (h : s.memOk) {q : Nat} {act : State → State} (ha : ∀ t, t.memOk → (act t).memOk) :
    (s.onQueue q act).memOk := by
  grind [State.onQueue, memOk_settleQueue]

@[simp] theorem memOk_advanceHead {s : State} (h : s.memOk) {q : Nat} : (s.advanceHead q).memOk := by
  simp [State.advanceHead, State.memOk, h]

theorem memOk_consumeRecord {s : State} (h : s.memOk) {q : Nat} {mine : List Word → Bool}
    {body : State → Cmd → Option State} (hb : ∀ t c, t.memOk → ∀ u ∈ body t c, u.memOk) :
    (s.consumeRecord q mine body).memOk := by
  have peek : ∀ {t : State} {r u}, t.memOk → t.peek q = .record r u → u.memOk := fun ht hp =>
    (congrArg Slot.memOk hp).mp (memOk_peek ht)
  simp only [State.consumeRecord]
  split
  · next t ht => simpa [State.memOk] using (congrArg Slot.memOk ht).mp (memOk_peek h)
  · exact h
  · split
    · split
      · next p t ht =>
        split
        · split
          · next r u hu => exact memOk_getD (hb _ _ (memOk_advanceHead (peek (memOk_select h _ ht) hu))) h
          · exact h
        · exact h
      · exact h
    · exact h

theorem memOk_consumeOp {s : State} (h : s.memOk) {q op : Nat} {body : State → Cmd → Option State}
    (hb : ∀ t c, t.memOk → ∀ u ∈ body t c, u.memOk) : (s.consumeOp q op body).memOk := by
  grind [State.consumeOp, memOk_complete, memOk_consumeRecord]

@[simp] theorem State.addCmd_mem (s : State) (c : Cmd) : (s.addCmd c).mem = s.mem := rfl

@[simp] theorem State.addLaunch_mem (s : State) (c : Cmd) (nest : List Word) (st : LaunchState) :
    (s.addLaunch c nest st).mem = s.mem := rfl

theorem memOk_execInvalidRecord {s : State} (h : s.memOk) {q : Nat} : (execInvalidRecord q s).memOk := by
  grind [execInvalidRecord, Out.memOk, State.addLaunch_mem, memOk_complete, memOk_consumeRecord, memOk_onQueue]

@[simp] theorem State.declare_mem (s : State) (x : Context) : ∀ t ∈ (s.declare x), t.mem = s.mem := by
  grind [State.declare]

theorem memOk_execLaunch {s : State} (h : s.memOk) {q : Nat} : (execLaunch q s).memOk := by
  have stop : ∀ (t : State) (c : Cmd) (st : Nat), t.memOk → ((t.addLaunch c [] .complete).complete c st).memOk :=
    fun t c st ht => memOk_complete (by simpa [State.memOk] using ht)
  refine memOk_onQueue h fun t ht => memOk_consumeRecord ht fun u c hu => ?_
  grind [DrvRead.memOk, State.addLaunch_mem, State.declare_mem, memOk_drvRead]

@[simp] theorem memOk_endLaunch {s : State} (h : s.memOk) {id : Nat} {l : Launch} {status : Nat} :
    (s.endLaunch id l status).memOk := by
  simp [State.endLaunch, State.memOk, h]

@[simp] theorem memOk_tryComplete {s : State} (h : s.memOk) {id : Nat} {l : Launch} : (s.tryComplete id l).memOk := by
  grind [State.tryComplete, Made.memOk, memOk_endLaunch, memOk_makeVersion]

theorem memOk_execLaunchLive {s : State} (h : s.memOk) {launch : Nat} : (execLaunchLive launch s).memOk := by
  grind [execLaunchLive, Out.memOk, memOk_endLaunch, memOk_tryComplete]

theorem memOk_execLaunchComplete {s : State} (h : s.memOk) {launch : Nat} :
    (execLaunchComplete launch s).memOk := by
  grind [execLaunchComplete, Out.memOk, memOk_tryComplete]

@[simp] theorem memOk_drvCopy {s : State} (h : s.memOk) {before : Option Nat} {ctx : Nat} {src dst : Word} {n : Nat}
    {l : List (Nat × Nat)} : ∀ p ∈ (drvCopy before ctx src dst n l s), p.1.memOk := by
  induction l generalizing s with
  | nil =>
    rintro p ⟨rfl⟩
    exact h
  | cons x xs ih => grind [drvCopy, DrvRead.memOk, DrvWrite.memOk, memOk_drvReadBy, memOk_drvWriteBy]

@[simp] theorem State.clearCopied_mem (s : State) (ctx : Nat) (dst : Word) (n : Nat) :
    (s.clearCopied ctx dst n).mem = s.mem := by
  simp [State.clearCopied]

@[simp] theorem memOk_runCopy {s : State} (h : s.memOk) {c : Cmd} : (s.runCopy c).memOk := by
  unfold State.runCopy
  dsimp only
  split
  · next t st m hp => exact memOk_complete (by simpa [State.memOk] using memOk_drvCopy h _ hp)
  · exact h

theorem memOk_execDroverCopy {s : State} (h : s.memOk) {q : Nat} : (execDroverCopy q s).memOk := by
  grind [execDroverCopy, Out.memOk, State.addCmd_mem, memOk_consumeOp, memOk_onQueue, memOk_runCopy]

@[simp] theorem memOk_takeVersioned {s : State} (h : s.memOk) {c : Cmd} : (s.takeVersioned c).memOk := by
  grind [State.takeVersioned, State.addCmd_mem, memOk_complete]

theorem memOk_execWaitver {s : State} (h : s.memOk) {q : Nat} : (execWaitver q s).memOk := by
  grind [execWaitver, Out.memOk, memOk_complete, memOk_consumeOp, memOk_onQueue, memOk_takeVersioned]

theorem memOk_execMakever {s : State} (h : s.memOk) {q : Nat} : (execMakever q s).memOk := by
  refine memOk_onQueue h fun t ht => ?_
  have start : ∀ u : State, u.memOk → (u.consumeOp q 4 (fun s c => some (s.takeVersioned c))).memOk :=
    fun u hu => memOk_consumeOp hu fun v c hv w hw => by cases hw; exact memOk_takeVersioned hv
  grind [Made.memOk, memOk_complete, memOk_makeVersion]

theorem memOk_execDroverFence {s : State} (h : s.memOk) {q : Nat} : (execDroverFence q s).memOk := by
  grind [execDroverFence, Out.memOk, State.addCmd_mem, memOk_complete, memOk_consumeOp, memOk_onQueue]

@[simp] theorem memOk_withdrawHeads {s : State} (h : s.memOk) {c : Cmd} {q n : Nat} :
    (s.withdrawHeads c q n).memOk := by
  induction n generalizing s with
  | zero => exact h
  | succ n ih => grind [State.withdrawHeads, Slot.memOk, State.addLaunch_mem, memOk_advanceHead, memOk_complete,
    memOk_peek]

@[simp] theorem memOk_withdrawOwn {s : State} (h : s.memOk) {c : Cmd} : (s.withdrawOwn c).memOk := by
  unfold State.withdrawOwn
  refine foldl_memOk (fun t l ht => ?_) ?_
  · grind [memOk_tryComplete]
  · refine foldl_memOk (fun t l ht => ?_) (foldl_memOk (fun t x ht => memOk_complete ht) h)
    exact foldl_memOk (fun t x ht => by simpa [State.memOk] using ht) ht

@[simp] theorem memOk_withdraw {s : State} (h : s.memOk) {c : Cmd} : (s.withdraw c).memOk := by
  unfold State.withdraw
  exact foldl_memOk (fun t q ht => memOk_withdrawHeads ht) (memOk_withdrawOwn h)

theorem memOk_execCancel {s : State} (h : s.memOk) {q : Nat} : (execCancel q s).memOk := by
  grind [execCancel, Out.memOk, State.addCmd_mem, memOk_complete, memOk_consumeRecord, memOk_onQueue, memOk_withdraw]

@[simp] theorem State.clearGrant_mem (s : State) (desc : List Word) : (s.clearGrant desc).mem = s.mem := rfl

theorem memOk_execContextRegistration {s : State} (h : s.memOk) {desc : List Word} :
    (execContextRegistration desc s).memOk := by
  simp [execContextRegistration, State.memOk, h]

theorem memOk_execContextDestruction {s : State} (h : s.memOk) {num : Nat} :
    (execContextDestruction num s).memOk := by
  grind [execContextDestruction, Out.memOk, State.clearGrant_mem, State.wakeVers_mem]

@[simp] theorem State.dropL2_mem (s : State) (lines : List Nat) : (s.dropL2 lines).mem = s.mem := rfl

theorem memOk_execCxlHostAccess {s : State} (h : s.memOk) {write : Bool} {pa n : Nat} {data : List Byte} :
    (execCxlHostAccess write pa n data s).memOk := by
  grind [execCxlHostAccess, Out.memOk, State.dropL2_mem, State.recall_mem, memOk_physStore]

@[simp] theorem State.shareHost_mem (s : State) (line : Nat) : (s.shareHost line).mem = s.mem := rfl

theorem memOk_execHostSnoop {s : State} (h : s.memOk) {line : Nat} {invalidate : Bool} :
    (execHostSnoop line invalidate s).memOk := by
  simp [execHostSnoop, State.memOk, h]

theorem memOk_execManagementConfiguration {s : State} (h : s.memOk) {cfg : MgmtCfg} :
    (execManagementConfiguration cfg s).memOk := by
  grind [execManagementConfiguration, Out.memOk, State.setLink_mem]

@[simp] theorem State.postAll_mem (s : State) (r : EvRec) : (s.postAll r).mem = s.mem := rfl

theorem memOk_execLease {s : State} (h : s.memOk) {f : Flit} : (execLease f s).memOk := by
  grind [execLease, Out.memOk, State.takeFlit_mem]

theorem memOk_execLeaseExpiry {s : State} (h : s.memOk) : (execLeaseExpiry s).memOk := by
  simp [execLeaseExpiry, State.memOk, h]

theorem memOk_execCrookAssert {s : State} (h : s.memOk) : (execCrookAssert s).memOk := by
  simp [execCrookAssert, State.memOk, h]

theorem memOk_execCrookDeassert {s : State} (h : s.memOk) : (execCrookDeassert s).memOk := by
  simp [execCrookDeassert, State.memOk, h]

theorem memOk_execCrookRelease {s : State} (h : s.memOk) : (execCrookRelease s).memOk := by
  grind [execCrookRelease, Out.memOk, State.mark_mem]

theorem memOk_execCrookRampStep {s : State} (h : s.memOk) : (execCrookRampStep s).memOk := by
  simp [execCrookRampStep, State.memOk, h]

theorem memOk_execPowerSample {s : State} (h : s.memOk) {watts : Nat} : (execPowerSample watts s).memOk := by
  simp [execPowerSample, State.memOk, h]

@[simp] theorem State.grant_mem (s : State) (die new : Nat) : (s.grant die new).mem = s.mem := by
  simp [State.grant, foldl_mem]

theorem memOk_execPowerLoop {s : State} (h : s.memOk) : (execPowerLoop s).memOk := by
  simp only [execPowerLoop, Out.memOk]
  split
  · exact foldl_memOk (fun t d ht => by simpa [State.memOk] using ht) h
  · exact h

theorem memOk_execThermalAdjust {s : State} (h : s.memOk) : (execThermalAdjust s).memOk := by
  simp [execThermalAdjust, State.memOk, h]

@[simp] theorem memOk_coldBoot {s : State} (h : s.memOk) {lost : Bool} : (s.coldBoot lost).memOk := by
  simpa [State.coldBoot, State.memOk] using memWf_filter h _

theorem memOk_execColdBoot {s : State} (h : s.memOk) : (execColdBoot s).memOk := by
  simp [execColdBoot, State.memOk, h]

theorem memOk_execSupplyLoss {s : State} (h : s.memOk) : (execSupplyLoss s).memOk := by
  simp [execSupplyLoss, State.memOk, h]

theorem memOk_execAttestationRequest {s : State} (h : s.memOk) {nonce : List Byte} :
    (execAttestationRequest nonce s).memOk := by
  simp [execAttestationRequest, State.memOk, h]

theorem memOk_execEngineParkDeadline {s : State} (h : s.memOk) : (execEngineParkDeadline s).memOk := by
  simp [execEngineParkDeadline, State.memOk, h]

theorem memOk_execBrownoutHeld {s : State} (h : s.memOk) : (execBrownoutHeld s).memOk := by
  simp [execBrownoutHeld, State.memOk, h]

theorem memOk_execBrownoutExit {s : State} (h : s.memOk) : (execBrownoutExit s).memOk := by
  grind [execBrownoutExit, Out.memOk, memOk_coldBoot]

@[simp] theorem State.resumeTeam_mem (s : State) (tid : Nat) (t : Team) : (s.resumeTeam tid t).mem = s.mem := by
  simp [State.resumeTeam, foldl_mem]

theorem memOk_execBrownoutResume {s : State} (h : s.memOk) : (execBrownoutResume s).memOk := by
  simp only [execBrownoutResume, Out.memOk]
  split
  · simpa [State.memOk, foldl_mem] using h
  · exact h

theorem memOk_execScoreHalving {s : State} (h : s.memOk) : (execScoreHalving s).memOk := by
  simp [execScoreHalving, State.memOk, h]

theorem memOk_execRemap {s : State} (h : s.memOk) {c : CoreId} : (execRemap c s).memOk := by
  simp [execRemap, State.memOk, h]

theorem memOk_execBankSpare {s : State} (h : s.memOk) {die bank : Nat} :
    (execBankSpare die bank s).memOk := by
  simp [execBankSpare, State.memOk, h]

theorem memOk_execUcieLaneRepair {s : State} (h : s.memOk) {segment lane : Nat} :
    (execUcieLaneRepair segment lane s).memOk := by
  simp [execUcieLaneRepair, State.memOk, h]

theorem memOk_execUcieSegmentFailure {s : State} (h : s.memOk) {segment : Nat} :
    (execUcieSegmentFailure segment s).memOk := by
  simp [execUcieSegmentFailure, State.memOk, h]

theorem memOk_execHotCounterHalving {s : State} (h : s.memOk) {die : Nat} :
    (execHotCounterHalving die s).memOk := by
  simp [execHotCounterHalving, State.memOk, h]

@[simp] theorem memOk_changeRole {s : State} (h : s.memOk) {die bank : Nat} {r : BitVec 3} :
    (s.changeRole die bank r).memOk := by
  grind [State.changeRole, State.setDie_mem, memOk_clearBank]

@[simp] theorem memOk_changeRoles {s : State} (h : s.memOk) {die : Nat} {l : List (Nat × BitVec 3)} :
    (s.changeRoles die l).memOk := by
  induction l generalizing s with
  | nil => simpa [State.changeRoles, State.memOk] using h
  | cons x xs ih => grind [State.changeRoles, State.setDie_mem, memOk_changeRole, State.wakeVers_mem]

theorem memOk_execBankRoleChange {s : State} (h : s.memOk) {die : Nat} :
    (execBankRoleChange die s).memOk := by
  grind [execBankRoleChange, Out.memOk, memOk_changeRoles]

@[simp] theorem State.beginTest_mem (s : State) (die c : Nat) : (s.beginTest die c).mem = s.mem := by
  unfold State.beginTest
  rw [State.setDie_mem, foldl_mem (fun _ _ => State.setCore_mem ..), State.setCluster_mem]

@[simp] theorem State.beginSwap_mem (s : State) (die out : Nat) (inn : Option Nat) (failed : Nat) :
    (s.beginSwap die out inn failed).mem = s.mem := by
  simp only [State.beginSwap]
  rw [foldl_mem (fun _ _ => by simp)]
  split <;> simp

theorem memOk_execTimedRotation {s : State} (h : s.memOk) {die : Nat} : (execTimedRotation die s).memOk := by
  grind [execTimedRotation, Out.memOk, State.beginSwap_mem, State.setDie_mem]

theorem memOk_execSuspicionSwap {s : State} (h : s.memOk) {die : Nat} : (execSuspicionSwap die s).memOk := by
  simp only [execSuspicionSwap, Out.memOk]
  repeat' split
  · simpa [State.memOk, foldl_mem State.markReplaced_mem] using h
  all_goals exact h

@[simp] theorem State.topoChange_mem (s : State) (die failed : Nat) : (s.topoChange die failed).mem = s.mem := rfl

theorem memOk_execSwapEnd {s : State} (h : s.memOk) {die : Nat} : (execSwapEnd die s).memOk := by
  grind [execSwapEnd, Out.memOk, State.beginTest_mem, State.setDie_mem, State.topoChange_mem]

@[simp] theorem State.retire_mem (s : State) (die c : Nat) : (s.retire die c).mem = s.mem := by
  grind [State.retire, State.beginSwap_mem, State.beginTest_mem, State.setCluster_mem]

@[simp] theorem State.remapFault_mem (s : State) (f : CoreId × Nat × Option Nat) :
    (s.remapFault f).1.mem = s.mem := by
  grind [State.remapFault, State.retireGroup_mem, State.retireRow_mem]

@[simp] theorem State.remapFaults_mem (s : State) (l : List (CoreId × Nat × Option Nat)) :
    (s.remapFaults l).1.mem = s.mem := by
  induction l generalizing s with
  | nil => rfl
  | cons x xs ih => grind [State.remapFaults, State.remapFault_mem]

theorem memOk_execTestResult {s : State} (h : s.memOk) {die : Nat} {verdict : BitVec 2} :
    (execTestResult die verdict s).memOk := by
  grind [execTestResult, Out.memOk, State.postHost_mem, State.remapFaults_mem, State.retire_mem, State.setDie_mem]

theorem memOk_execMigrationScan {s : State} (h : s.memOk) : (execMigrationScan s).memOk := by
  simp only [execMigrationScan, Out.memOk]
  repeat' split
  all_goals simpa [State.memOk] using h

theorem memOk_execFrameCounterHalving {s : State} (h : s.memOk) : (execFrameCounterHalving s).memOk := by
  simp [execFrameCounterHalving, State.memOk, h]

@[simp] theorem State.dropLeaf_mem (s : State) (leaf : Nat) : (s.dropLeaf leaf).mem = s.mem := rfl

@[simp] theorem State.unpinHot_mem (s : State) (frame size : Nat) : (s.unpinHot frame size).mem = s.mem := rfl

@[simp] theorem memOk_storeLeaf {s : State} (h : s.memOk) {leaf : Nat} {e : Word} : (s.storeLeaf leaf e).memOk := by
  simp [State.storeLeaf, State.memOk, h]

theorem memOk_execMigration {s : State} (h : s.memOk) : (execMigration s).memOk := by
  grind [execMigration, Out.memOk, State.dropLeaf_mem, State.migDone_mem, State.unpinHot_mem, memOk_storeLeaf]

theorem memOk_execMigrateDone {s : State} (h : s.memOk) : (execMigrateDone s).memOk := by
  simp only [execMigrateDone, Out.memOk]
  repeat' split
  · exact h
  · exact h
  · refine foldl_memOk (fun t q ht => memOk_settleQueue ht) ?_
    rw [State.memOk, State.migDone_mem]
    exact memOk_storeLeaf (memOk_copyPage h _ _ _)
  · exact h

end Sys2Proof.Machine
end

section
/-! PROOFS. The memory stays canonical, part 9: vector instructions that record or access memory. -/

namespace Sys2Proof.Machine

@[simp] theorem interrupted_mem (s : State) (i : VIn) (start at' : Nat) (vd : BitVec 5) (planes perRow : List Plane)
    (vrstate : Word) (flags : BitVec 4) : (interrupted s i start at' vd planes perRow vrstate flags).mem = s.mem := by
  simp [interrupted]

@[simp] theorem completed_mem (s : State) (i : VIn) (start : Nat) (flags : BitVec 4) :
    (completed s i start flags).mem = s.mem := by
  simp [completed]

@[simp] theorem commitDest_mem (s : State) (i : VIn) (va : Option (BitVec 5)) (vd : BitVec 5) (ps : List Plane)
    (sd : Bool) (rows copy : List Nat) : (commitDest s i va vd ps sd rows copy).mem = s.mem := by
  simp [commitDest]

@[simp] theorem memOk_forcedStop {s : State} (h : s.memOk) : (forcedStop s).memOk := by
  simp [forcedStop, State.memOk, h]

@[simp] theorem memOk_recLoop {s : State} (h : s.memOk) {i : VIn} {o : RecOp} {en : Bool} {start : Nat} {l : List Nat}
    {x : RecAcc} : (recLoop s i o en start l x).memOk := by
  induction l generalizing x s with
  | nil => exact h
  | cons x xs ih => grind [recLoop, RecEnd.memOk, WriteCheck.memOk, memOk_checkWrites]

@[simp] theorem memOk_recStopRes {s : State} (h : s.memOk) {at' : Nat} {x : RecStop} :
    (RecStop.res s at' x).memOk := by
  cases x with
  | spool n e => exact memOk_spoolTrap h
  | lanes c j => exact h
  | force => exact memOk_forcedStop h

@[simp] theorem memOk_recStopped {s : State} (h : s.memOk) {i : VIn} {o : RecOp} {va : BitVec 5}
    {vd : Option (BitVec 5)} {en : Bool} {start c : Nat} {acc : RecAcc} :
    (recStopped s i o va vd en start c acc).memOk := by
  unfold recStopped
  split <;> simp [State.memOk, h]

@[simp] theorem memOk_recDone {s : State} (h : s.memOk) {i : VIn} {o : RecOp} {va : BitVec 5} {vd : Option (BitVec 5)}
    {en : Bool} {start : Nat} {acc : RecAcc} : (recDone s i o va vd en start acc).memOk := by
  unfold recDone
  repeat' split
  all_goals simp [State.memOk, h]

/-- The state that a check of the lanes leaves. -/
theorem memOk_of_laneCheck {s t : State} (h : s.memOk) {checked : Bool} {u : LaneUse} {e : Option (Cause × Nat)}
    (hc : laneCheck s checked u = (e, t)) : t.memOk := by
  rw [State.memOk, ← show (laneCheck s checked u).2.mem = t.mem by rw [hc], laneCheck_mem]
  exact h

@[simp] theorem memOk_recRun {s : State} (h : s.memOk) {i : VIn} {o : RecOp} {en checked : Bool} {u : LaneUse}
    {start : Nat} {stop : Option (Nat × RecStop)} : ∀ p ∈ (recRun s i o en checked u start stop), p.1.memOk := by
  have hl : ∀ {l acc}, (recLoop s i o en start l acc).memOk := memOk_recLoop h
  simp only [recRun]
  split
  · simp
  · next t acc c why hr =>
    have ht : t.memOk := by
      split at hr
      · cases hr
      · next hd =>
        cases hr
        exact (congrArg RecEnd.memOk hd).mp hl
      · next hd =>
        cases hr
        exact (congrArg RecEnd.memOk hd).mp hl
    split
    · next hc =>
      rintro p ⟨rfl⟩
      exact memOk_of_laneCheck ht hc
    · next hc =>
      split
      · next hd =>
        rintro p ⟨rfl⟩
        exact (congrArg RecEnd.memOk hd).mp (memOk_recLoop (memOk_of_laneCheck ht hc))
      · simp

theorem memOk_record {s : State} (h : s.memOk) {w : BitVec 32} {srcs : List (BitVec 5)} {va : BitVec 5}
    {vd : Option (BitVec 5)} {p : BitVec 6} {checked : Bool} {dests : List (BitVec 5)} {op : State → VIn → RecOp}
    {done : State → RecOp → Word → Bool → State × BitVec 4} (hd : ∀ t o st b, t.memOk → (done t o st b).1.memOk) :
    (record w srcs va vd p checked dests op done s).memOk := by
  refine memOk_issue h ?_
  split
  · exact h
  · refine memOk_withSrc h fun a => memOk_withDst h fun dst => ?_
    dsimp only
    split
    · exact h
    · next t acc c why hr => exact memOk_recStopRes (memOk_recStopped (memOk_recRun h _ hr))
    · next t acc hr =>
      simpa [State.memOk] using hd _ _ _ _ (memOk_recDone (memOk_recRun h _ hr))

@[simp] theorem memOk_vexact {s : State} (h : s.memOk) {w : BitVec 32} {srcs : List (BitVec 5)}
    {va vb : Option (BitVec 5)} {vd : BitVec 5} {acc : Bool} {kind : LaneKind} {mask : State → List Nat}
    {f : State → VIn → Nat → Int} : (vexact w srcs va vb vd acc kind mask f s).memOk := by
  grind [vexact, Out.memOk, memOk_vmap]

@[simp] theorem memOk_vint {s : State} (h : s.memOk) {w : BitVec 32} {d a b : BitVec 5} {p : BitVec 6}
    {op : Int → Int → Int} : (vint w d a b p s op).memOk := by
  grind [vint, Out.memOk, memOk_vexact]

@[simp] theorem memOk_vintD {s : State} (h : s.memOk) {w : BitVec 32} {d a b : BitVec 5} {p : BitVec 6}
    {op : Int → Int → Int → Int} : (vintD w d a b p s op).memOk := by
  grind [vintD, Out.memOk, memOk_vexact]

@[simp] theorem memOk_vints {s : State} (h : s.memOk) {w : BitVec 32} {d a b : BitVec 5} {p : BitVec 6}
    {op : Int → Int → Int} : (vints w d a b p s op).memOk := by
  grind [vints, Out.memOk, memOk_vexact]

@[simp] theorem memOk_vun {s : State} (h : s.memOk) {w : BitVec 32} {d a : BitVec 5} {p : BitVec 6}
    {op : EState → Int → Int} : (vun w d a p s op).memOk := by
  grind [vun, Out.memOk, memOk_vexact]

@[simp] theorem memOk_slideUp {s : State} (h : s.memOk) {w : BitVec 32} {d a b : BitVec 5} {p : BitVec 6} :
    (slideUp w d a b p s).memOk := by
  grind [slideUp, Out.memOk, Res.memOk, memOk_issue, memOk_vreadAll, memOk_vwrite]

@[simp] theorem memOk_vcmpInt {s : State} (h : s.memOk) {w : BitVec 32} {d : BitVec 6} {a b : BitVec 5} {p : BitVec 6}
    {scalar : Bool} {cond : Int → Int → Bool} : (vcmpInt w d a b p scalar s cond).memOk := by
  grind [vcmpInt, Out.memOk, memOk_vcmp]

@[simp] theorem memOk_reduce {s : State} (h : s.memOk) {w : BitVec 32} {d a b : BitVec 5} {p : BitVec 6}
    {arg checked : Bool} {op : State → VIn → RecOp} {val : State → RecOp → Word → List Word × BitVec 4} :
    (reduce w d a b p arg checked op val s).memOk := by
  grind [reduce, Out.memOk, State.startFill_mem, memOk_record]

@[simp] theorem memOk_reduceInt {s : State} (h : s.memOk) {w : BitVec 32} {d a b : BitVec 5} {p : BitVec 6}
    {f : EState → Nat → Int → Nat} : (reduceInt w d a b p s f).memOk := by
  grind [reduceInt, Out.memOk, memOk_reduce]

@[simp] theorem memOk_reduceBest {s : State} (h : s.memOk) {w : BitVec 32} {d a b : BitVec 5} {p : BitVec 6}
    {better : Int → Int → Bool} : (reduceBest w d a b p s better).memOk := by
  grind [reduceBest, Out.memOk, memOk_reduce]

@[simp] theorem memOk_argBest {s : State} (h : s.memOk) {w : BitVec 32} {d a b : BitVec 5} {p : BitVec 6}
    {better : Int → Int → Bool} : (argBest w d a b p s better).memOk := by
  grind [argBest, Out.memOk, memOk_reduce]

@[simp] theorem memOk_scan {s : State} (h : s.memOk) {w : BitVec 32} {d a : BitVec 5} {p : BitVec 6} {checked : Bool}
    {init : Word} {width : EState → Nat}
    {f : EState → VIn → Word → Nat → List Nat → Bool → Word × BitVec 4 × List (Nat × Nat)} :
    (scan w d a p checked init width f s).memOk := by
  grind [scan, Out.memOk, memOk_record]

@[simp] theorem memOk_scanBest {s : State} (h : s.memOk) {w : BitVec 32} {d a : BitVec 5} {p : BitVec 6}
    {better : Int → Int → Bool} : (scanBest w d a p better s).memOk := by
  grind [scanBest, Out.memOk, memOk_scan]

@[simp] theorem memOk_pack {s : State} (h : s.memOk) {w : BitVec 32} {d a : BitVec 5} {p : BitVec 6}
    {bound : Word → Nat → Nat} {reads : Nat → Nat → Nat} {writes : List Nat → List Nat}
    {f : EState → VIn → Nat → Nat → Nat × Nat} : (pack w d a p bound reads writes f s).memOk := by
  grind [pack, Out.memOk, State.setEst_mem, memOk_record]

theorem memOk_memLoop {s : State} (h : s.memOk) {f : State → Nat → MemOne} {l : List Nat} {l' : List (Nat × Nat)}
    (hf : ∀ t j, t.memOk → (f t j).memOk) : (memLoop f l s l').memOk := by
  induction l generalizing s l' with
  | nil => exact h
  | cons x xs ih => grind [memLoop, MemOne.memOk, MemEnd.memOk]

@[simp] theorem memOk_readOne {s : State} (h : s.memOk) {a : Nat → Word} {cls : BitVec 2} {eb width j : Nat} :
    (readOne a cls eb width s j).memOk := by
  grind [readOne, MemOne.memOk, Resolved.memOk, State.hotTouch_mem, State.moveMet_mem, State.touchClass_mem,
    memOk_resolveThr]

@[simp] theorem memOk_checkOne {s : State} (h : s.memOk) {a : Nat → Word} {eb j : Nat} :
    (checkOne a eb s j).memOk := by
  grind [checkOne, MemOne.memOk, Resolved.memOk, memOk_resolveThr]

@[simp] theorem memOk_writeOne {s : State} (h : s.memOk) {a : Word} {cls : BitVec 2} {bs : List Byte} :
    (writeOne a cls bs s).memOk := by
  grind [writeOne, Resolved.memOk, State.hotTouch_mem, State.movedTo_mem, State.touchClass_mem, memOk_resolveThr,
    memOk_storeAt]

@[simp] theorem memOk_answer {s : State} (h : s.memOk) {j : Nat} {x : MemStop} : (MemStop.answer s j x).memOk := by
  cases x with
  | trap c v => exact h
  | spool n e => exact memOk_spoolTrap h
  | wait k n qs op c v => exact h
  | hold => exact h
  | force => exact memOk_forcedStop h

theorem memOk_memStart {s : State} (h : s.memOk) {w : BitVec 32} {p : BitVec 6} {va vb vd : Option (BitVec 5)}
    {act : List Nat} {k : State → VIn → Nat → List Nat → Option (Nat × MemStop) → Res}
    (hk : ∀ t i n js x, t.memOk → (k t i n js x).memOk) : (memStart w s p va vb vd act k).memOk := by
  grind [memStart, Res.memOk, memOk_lanesThen, memOk_withDst, memOk_withSrc]

/-- A run that must stop after its last element has the same state. -/
@[simp] theorem memOk_orStop {m : MemEnd} (h : m.memOk) {late : Option (Nat × MemStop)} : (m.orStop late).memOk := by
  cases m with
  | all s vals =>
    cases late with
    | none => exact h
    | some x => exact h
  | stop s vals j w => exact h

/-- The positions of a load's elements are translated, memory stays canonical. -/
@[simp] theorem memOk_positions {m : MemEnd} (h : m.memOk) {i : VIn} {start : Nat} : (m.positions i start).memOk := by
  grind [MemEnd.positions, MemEnd.memOk, WriteCheck.memOk, memOk_checkWrites]

/-- The end of a load writes registers, no memory. -/
@[simp] theorem memOk_loadEnd {m : MemEnd} (h : m.memOk) {i : VIn} {start : Nat} {vd : BitVec 5} {wd : Nat} {sd : Bool} :
    (loadEnd i start vd wd sd m).memOk := by
  have hp : (m.positions i start).memOk := memOk_positions h
  simp only [loadEnd]
  split
  · next s vals hm =>
    rw [hm] at hp
    split
    · simpa [State.memOk] using memOk_appendWrites hp
    · simpa [State.memOk] using hp
  · next s vals j w hm =>
    rw [hm] at hp
    refine memOk_answer ?_
    split
    · simpa [State.memOk] using memOk_appendWrites hp
    · simpa [State.memOk] using hp

theorem memOk_storeEnd {i : VIn} {start : Nat} {perform : State → Nat → State}
    {spans : List (Nat × Nat) → List (Nat × Nat)} {m : MemEnd} (hp : ∀ t j, t.memOk → (perform t j).memOk)
    (hm : m.memOk) : (storeEnd i start perform spans m).memOk := by
  have hrun : ∀ (t : State) (vals : List (Nat × Nat)), t.memOk →
      ((vals.map (·.1)).foldl perform (t.clearWhole (spans vals))).memOk :=
    fun t vals ht => foldl_memOk hp (by simpa [State.memOk] using ht)
  cases m with
  | all t vals => simpa [storeEnd, State.memOk] using hrun t vals hm
  | stop t vals j w => exact memOk_answer (by simpa [State.memOk] using hrun t vals hm)

theorem memOk_keepVr {s : State} {r : Res} (hr : r.memOk) : (keepVr s r).memOk := by
  cases r with
  | adv t => simpa [keepVr, State.memOk] using hr
  | go t => exact hr
  | trap t c v => exact hr
  | advTrap t c v => exact hr
  | block t k n b c v => exact hr
  | ask t k n qs op c v => exact hr
  | stall t => exact hr

@[simp] theorem memOk_vload {s : State} (h : s.memOk) {w : BitVec 32} {srcs : List (BitVec 5)}
    {vb : Option (BitVec 5)} {vd : BitVec 5} {p : BitVec 6} {addr : State → VIn → Nat → Word} :
    (vload w srcs vb vd p addr s).memOk := by
  refine memOk_issue h (memOk_keepVr (memOk_memStart h fun t i n js x ht => ?_))
  exact memOk_loadEnd (memOk_orStop (memOk_memLoop ht fun u j hu => memOk_readOne hu))

@[simp] theorem memOk_vstore {s : State} (h : s.memOk) {w : BitVec 32} {srcs : List (BitVec 5)} {vs : BitVec 5}
    {vb : Option (BitVec 5)} {p : BitVec 6} {addr : State → VIn → Nat → Word} :
    (vstore w srcs vs vb p addr s).memOk := by
  refine memOk_issue h (memOk_keepVr (memOk_memStart h fun t i n js x ht => ?_))
  exact memOk_storeEnd (fun u j hu => memOk_writeOne hu)
    (memOk_orStop (memOk_memLoop ht fun u j hu => memOk_checkOne hu))

theorem memOk_sliceRows {s : State} (h : s.memOk) {a : BitVec 5} {k : Nat → Res} (hk : ∀ v, (k v).memOk) :
    (sliceRows s a k).memOk := by
  grind [sliceRows, Res.memOk]

theorem memOk_execVldl {s : State} (h : s.memOk) {d a : BitVec 5} {p : BitVec 6} :
    (execVldl d a p s).memOk := by
  grind [execVldl, Out.memOk, Res.memOk, memOk_issue, memOk_sliceRows, memOk_vreadAll, memOk_vwrite]

theorem memOk_execVstl {s : State} (h : s.memOk) {sf a : BitVec 5} {p : BitVec 6} :
    (execVstl sf a p s).memOk := by
  grind [execVstl, Out.memOk, Res.memOk, State.setHart_mem, memOk_issue, memOk_sliceRows, memOk_vreadAll, vdone_mem]

@[simp] theorem atPart_mem (s : State) (a pa : Word) : (atPart s a pa).mem = s.mem := rfl

theorem memOk_partLoop {s : State} (h : s.memOk) {acc : Access} {a : Word} {f : State → Place → Nat → Nat → State}
    {l : List (Word × Nat × Nat)} (hf : ∀ t p lo hi, t.memOk → (f t p lo hi).memOk) :
    (partLoop acc a f l s).memOk := by
  induction l generalizing s with
  | nil => simpa [partLoop, State.memOk] using h
  | cons x xs ih =>
    obtain ⟨pa, lo, hi⟩ := x
    have hr : (resolveThr s acc pa 16).memOk := memOk_resolveThr h
    unfold partLoop
    refine iteInduction (motive := Res.memOk) (fun _ => memOk_forcedStop h) (fun _ => ?_)
    split
    · next ht => exact (congrArg Resolved.memOk ht).mp hr
    · next ht => exact (congrArg Resolved.memOk ht).mp hr
    · next p t ht =>
      have hp : t.memOk := (congrArg Resolved.memOk ht).mp hr
      refine iteInduction (motive := Res.memOk) (fun _ => ?_) (fun _ => ?_)
      · simpa [State.memOk] using hp
      · refine ih ?_
        have h1 := fun q => hf (t.touchVec p) q lo hi (by simpa [State.memOk] using hp)
        cases acc with
        | write => simpa [State.memOk] using h1 _
        | _ => exact h1 _

theorem memOk_execPld {s : State} (h : s.memOk) {a : BitVec 5} {p : BitVec 6} : (execPld a p s).memOk := by
  grind [execPld, Out.memOk, Res.memOk, State.setHart_mem, memOk_issue, memOk_partLoop, memOk_predCheck]

theorem memOk_execPst {s : State} (h : s.memOk) {a : BitVec 5} {p : BitVec 6} : (execPst a p s).memOk := by
  grind [execPst, Out.memOk, Res.memOk, memOk_issue, memOk_partLoop, memOk_predCheck, memOk_storeAt]

@[simp] theorem memOk_resolveAll {s : State} (h : s.memOk) {acc : Access} {l : List (Word × Nat)} {l' : List Place} :
    (resolveAll acc l s l').memOk := by
  induction l generalizing s l' with
  | nil => exact h
  | cons x xs ih =>
    obtain ⟨a, n⟩ := x
    have hr : (resolveThr s acc a n).memOk := memOk_resolveThr h
    unfold resolveAll
    split
    · next ht => exact (congrArg Resolved.memOk ht).mp hr
    · next ht => exact (congrArg Resolved.memOk ht).mp hr
    · next p t ht =>
      have hp : t.memOk := (congrArg Resolved.memOk ht).mp hr
      refine iteInduction (motive := BlockRead.memOk) (fun _ => ?_) (fun _ => ?_)
      · simpa [State.memOk] using hp
      · exact ih (by simpa [State.memOk] using hp)

theorem memOk_mxCheck {s : State} (h : s.memOk) {w : BitVec 32} {a : BitVec 5} {k : Res} (hk : k.memOk) :
    (mxCheck w s a k).memOk := by
  grind [mxCheck, Res.memOk]

@[simp] theorem memOk_mxLoad {s : State} (h : s.memOk) {e : BitVec 4} {ga : Word} {width base : Nat}
    {l : List (Nat × List Nat)} {l' : List (Nat × Nat)} : (mxLoad e ga width base l s l').memOk := by
  induction l generalizing s l' with
  | nil => exact h
  | cons x xs ih =>
    obtain ⟨k, js⟩ := x
    have hr : (resolveAll .read (blockAccesses ga width k js) s []).memOk := memOk_resolveAll h
    unfold mxLoad
    split
    · next ht => exact (congrArg BlockRead.memOk ht).mp hr
    · next ht => exact (congrArg BlockRead.memOk ht).mp hr
    · next t ps ht => exact ih (by simpa [State.memOk] using (congrArg BlockRead.memOk ht).mp hr)

@[simp] theorem memOk_mxStore {s : State} (h : s.memOk) {e : BitVec 4} {ga : Word} {width : Nat} {i : VIn} {sd : Bool}
    {l : List (Nat × List Nat)} {l' : List (Nat × Nat)} : (mxStore e ga width i sd l s l').memOk := by
  induction l generalizing s l' with
  | nil => exact h
  | cons x xs ih =>
    obtain ⟨k, js⟩ := x
    have hr : (resolveAll .write (blockAccesses ga width k js) s []).memOk := memOk_resolveAll h
    unfold mxStore
    split
    · next ht => exact (congrArg BlockRead.memOk ht).mp hr
    · next ht => exact (congrArg BlockRead.memOk ht).mp hr
    · next t ps ht =>
      have hs : ∀ l : List (Place × List Byte), (l.foldl (fun s c => s.storeAt none c.1 c.2) t).memOk :=
        fun l => foldl_memOk (fun u c hu => memOk_storeAt hu) ((congrArg BlockRead.memOk ht).mp hr)
      dsimp only
      refine ih ?_
      split
      · exact memOk_storeAt (hs _)
      · exact hs _

theorem memOk_execMxld {s : State} (h : s.memOk) {d a : BitVec 5} {e : BitVec 4} {p : BitVec 6} :
    (execMxld d a e p s).memOk := by
  refine memOk_issue h ?_
  refine memOk_mxCheck h (memOk_keepVr (memOk_memStart h fun t i n js x ht => ?_))
  exact memOk_loadEnd (memOk_orStop (memOk_mxLoad ht))

theorem memOk_execMxst {s : State} (h : s.memOk) {sf a : BitVec 5} {e : BitVec 4} {p : BitVec 6} :
    (execMxst sf a e p s).memOk := by
  refine memOk_issue h ?_
  refine memOk_mxCheck h (memOk_keepVr (memOk_memStart h fun t i n js x ht => ?_))
  exact memOk_storeEnd (fun u j hu => by simpa [State.memOk] using hu) (memOk_orStop (memOk_mxStore ht))

@[simp] theorem memOk_versReadOne {s : State} (h : s.memOk) {ga : Word} {width : Nat} {qs : List VersAsk} {j : Nat} :
    (versReadOne ga width qs s j).memOk := by
  grind [versReadOne, MemOne.memOk]

@[simp] theorem memOk_versWriteOne {s : State} (h : s.memOk) {ga : Word} {v : BitVec 32} {val : Nat → Word}
    {ns : List Nat} {j : Nat} : (versWriteOne ga v val ns s j).memOk := by
  grind [versWriteOne, Create.memOk, MemOne.memOk, memOk_createVersion]

theorem memOk_execVvrld {s : State} (h : s.memOk) {d a b : BitVec 5} {p : BitVec 6} :
    (execVvrld d a b p s).memOk := by
  refine memOk_issue h ?_
  refine memOk_keepVr (memOk_memStart h fun t i n js x ht => ?_)
  exact memOk_loadEnd (memOk_orStop (memOk_memLoop ht fun u j hu => memOk_versReadOne hu))

theorem memOk_execVvrst {s : State} (h : s.memOk) {sf a b : BitVec 5} {p : BitVec 6} :
    (execVvrst sf a b p s).memOk := by
  refine memOk_issue h ?_
  refine memOk_keepVr ?_
  split
  · exact h
  · refine memOk_memStart h fun t i n js x ht => ?_
    exact memOk_storeEnd (fun u j hu => hu) (memOk_orStop (memOk_memLoop ht fun u j hu => memOk_versWriteOne hu))

end Sys2Proof.Machine
end

section
/-! PROOFS. The memory stays canonical, part 10: accesses by the host. -/

namespace Sys2Proof.Machine

@[simp] theorem State.hostGets_mem (s : State) (pa n : Nat) : (s.hostGets pa n).mem = s.mem := rfl

theorem memOk_hostAccess {s : State} (h : s.memOk) {write : Bool} {pa n : Nat} {act : State → State}
    (ha : ∀ t, t.memOk → (act t).memOk) : (s.hostAccess write pa n act).memOk := by
  unfold State.hostAccess
  split
  · exact h
  · refine ha _ ?_
    split
    · simpa [State.memOk] using h
    · exact foldl_memOk (fun t l (ht : t.memOk) => by simpa [State.memOk] using ht) h

end Sys2Proof.Machine
end

section
/-! PROOFS. The memory stays canonical, part 11: the dispatch, the inputs and the step. -/

namespace Sys2Proof.Machine

/-- Every instruction, operation and event keeps memory canonical. -/
theorem memOk_exec {s : State} (h : s.memOk) (i : Instr) : Out.memOk (exec i s) := by
  unfold exec
  cases i with
  | add | sub | mul | mulh | mulhn | div | divn | rem | remn | and | or | xor | andn | shl | shr | sar | min | max
  | minn | maxn | slt | sltn => exact memOk_int2 h
  | clz | ctz | popc | mov | addi | andi | ori | xori | shli | shri | sari | slti => exact memOk_int1 h
  | ldb | ldbz | ldh | ldhz | ldw | ldwz | ldd | ldq => exact memOk_load h
  | stb | sth | stw | std | stq => exact memOk_store h
  | beq | bne | blt | bge | bltn | bgen => exact memOk_branch h
  | jmp | yield | nop | trap | spdrain | emov | vkill | setew | pfx => exact memOk_issue h h
  | csrwr | csrset | csrclr => exact memOk_csrWrite h
  | atadd | atswp | atcas | atmin | atmax | atminn | atmaxn | atand | ator | atxor => exact memOk_atomRet h
  | redadd | redmin | redmax => exact memOk_atomRed h
  | vadd | vsub | vmul | vmin | vmax | vand | vor | vxor | vandn => exact memOk_vint h
  | vmac | vmsb => exact memOk_vintD h
  | vssa | vshl | vshr | vmulh | vsel | vmacs | vshls | vshrs | vbcast | vsldn | vmov | vhad | vidx | vperm =>
    exact memOk_vexact h
  | vadds | vsubs | vrsubs | vmuls | vmins | vmaxs | vands | vors | vxors => exact memOk_vints h
  | vrand | fcvti => exact memOk_vmap h
  | vslup => exact memOk_slideUp h
  | vnot | vneg | vabs | vcvt | vsatc => exact memOk_vun h
  | vceq | vcne | vclt | vcle | vceqs | vcnes | vclts | vcles | vcgts | vcges | vtst => exact memOk_vcmpInt h
  | fceq | fclt | fcle | fcun => exact memOk_fcmp h
  | pand | por | pxor | pandn | pnot | pmov | pall | pclr => exact memOk_predWrite h
  | vredsum | vredand | vredor => exact memOk_reduceInt h
  | vredmin | vredmax => exact memOk_reduceBest h
  | vargmax | vargmin => exact memOk_argBest h
  | fredsum | fredmax | fargmax => exact memOk_reduce h
  | vscansum | fscansum => exact memOk_scan h
  | vscanmax | vscanmin => exact memOk_scanBest h
  | vcompress | vexpand => exact memOk_pack h
  | fadd | fsub | fmul => exact memOk_vfloat2 h
  | fma | fmin | fmax | fabs | fneg | fcvt | fcvtf | fexp2 | frcp | fscl | mxscl | vqnt => exact memOk_vfloat h
  | vld | vlds | vldx => exact memOk_vload h
  | vst | vsts | vstx => exact memOk_vstore h
  | gfull => exact memOk_execGfull h
  | gempty => exact memOk_execGempty h
  | ins16 => exact memOk_execIns16 h
  | ldi => exact memOk_execLdi h
  | bmz => exact memOk_execBmz h
  | boq => exact memOk_execBoq h
  | call => exact memOk_execCall h
  | ret => exact memOk_execRet h
  | callr => exact memOk_execCallr h
  | jmpr => exact memOk_execJmpr h
  | lexit => exact memOk_execLexit h
  | lidx => exact memOk_execLidx h
  | lcnt => exact memOk_execLcnt h
  | bopush => exact memOk_execBopush h
  | loop => exact memOk_execLoop h
  | loopi => exact memOk_execLoopi h
  | csrrd => exact memOk_execCsrrd h
  | rett => exact memOk_execRett h
  | halt => exact memOk_execHalt h
  | gtsrd => exact memOk_execGtsrd h
  | evrd => exact memOk_execEvrd h
  | evwait => exact memOk_execEvwait h
  | waita => exact memOk_execWaita h
  | fence => exact memOk_execFence h
  | sbar => exact memOk_execSbar h
  | ifence => exact memOk_execIfence h
  | tlbinvAll => exact memOk_execTlbinvAll h
  | tlbinvPage => exact memOk_execTlbinvPage h
  | tlbinvContext => exact memOk_execTlbinvContext h
  | lda => exact memOk_execLda h
  | stl => exact memOk_execStl h
  | sytas => exact memOk_execSytas h
  | syfadd => exact memOk_execSyfadd h
  | syrd => exact memOk_execSyrd h
  | sywr => exact memOk_execSywr h
  | sywait => exact memOk_execSywait h
  | ldff => exact memOk_execLdff h
  | ldfe => exact memOk_execLdfe h
  | stef => exact memOk_execStef h
  | stff => exact memOk_execStff h
  | feclr => exact memOk_execFeclr h
  | feq => exact memOk_execFeq h
  | vrld => exact memOk_execVrld h
  | vrldle => exact memOk_execVrldle h
  | vrst => exact memOk_execVrst h
  | vrfloor => exact memOk_execVrfloor h
  | vrtop => exact memOk_execVrtop h
  | vrpoll => exact memOk_execVrpoll h
  | qpush => exact memOk_execQpush h
  | qpop => exact memOk_execQpop h
  | spbind => exact memOk_execSpbind h
  | spunb => exact memOk_execSpunb h
  | spstat => exact memOk_execSpstat h
  | bcopy => exact memOk_execBcopy h
  | xcopy => exact memOk_execXcopy h
  | tenq => exact memOk_execTenq h
  | twin => exact memOk_execTwin h
  | trel => exact memOk_execTrel h
  | tcancel => exact memOk_execTcancel h
  | bwred => exact memOk_execBwred h
  | pgmig => exact memOk_execPgmig h
  | pcnt => exact memOk_execPcnt h
  | pffs => exact memOk_execPffs h
  | pfilt => exact memOk_execPfilt h
  | mpush => exact memOk_execMpush h
  | minv => exact memOk_execMinv h
  | mpop => exact memOk_execMpop h
  | mtop => exact memOk_execMtop h
  | seamrd => exact memOk_execSeamrd h
  | seamwr => exact memOk_execSeamwr h
  | mxqnt => exact memOk_execMxqnt h
  | mxbdot => exact memOk_execMxbdot h
  | vldl => exact memOk_execVldl h
  | vstl => exact memOk_execVstl h
  | pld => exact memOk_execPld h
  | pst => exact memOk_execPst h
  | mxld => exact memOk_execMxld h
  | mxst => exact memOk_execMxst h
  | vvrld => exact memOk_execVvrld h
  | vvrst => exact memOk_execVvrst h
  | setvlx => exact memOk_execSetvlx h
  | setvl => exact memOk_execSetvl h
  | setvlf => exact memOk_execSetvlf h
  | pgclr => exact memOk_execPgclr h
  | pgadd => exact memOk_execPgadd h
  | pganc => exact memOk_execPganc h
  | pgpos => exact memOk_execPgpos h
  | pgpath => exact memOk_execPgpath h
  | pgprune => exact memOk_execPgprune h
  | pgrd => exact memOk_execPgrd h
  | pgcnt => exact memOk_execPgcnt h
  | pgsize => exact memOk_execPgsize h
  | split => exact memOk_execSplit h
  | join => exact memOk_execJoin h
  | mtid => exact memOk_execMtid h
  | fillComplete => exact memOk_execFillComplete h
  | waitTimeout => exact memOk_execWaitTimeout h
  | feTimeout => exact memOk_execFeTimeout h
  | verTimeout => exact memOk_execVerTimeout h
  | verFull => exact memOk_execVerFull h
  | trapDelivery => exact memOk_execTrapDelivery h
  | predeadlineExpiry => exact memOk_execPredeadlineExpiry h
  | contextSave => exact memOk_execContextSave h
  | teamRestore => exact memOk_execTeamRestore h
  | teamPlace => exact memOk_execTeamPlace h
  | victimSelection => exact memOk_execVictimSelection h
  | hotSpotCheck => exact memOk_execHotSpotCheck h
  | launch => exact memOk_execLaunch h
  | launchLive => exact memOk_execLaunchLive h
  | launchComplete => exact memOk_execLaunchComplete h
  | droverCopy => exact memOk_execDroverCopy h
  | waitver => exact memOk_execWaitver h
  | makever => exact memOk_execMakever h
  | droverFence => exact memOk_execDroverFence h
  | cancel => exact memOk_execCancel h
  | invalidRecord => exact memOk_execInvalidRecord h
  | qtailWrite => exact memOk_execQtailWrite h
  | queueEnable => exact memOk_execQueueEnable h
  | queueDisable => exact memOk_execQueueDisable h
  | fltClear => exact memOk_execFltClear h
  | hostEventRingEnable => exact memOk_execHostEventRingEnable h
  | hevheadWrite => exact memOk_execHevheadWrite h
  | hostEventRecord => exact memOk_execHostEventRecord h
  | registerWrite => exact memOk_execRegisterWrite h
  | pwrctlEnter => exact memOk_execPwrctlEnter h
  | pwrctlExit => exact memOk_execPwrctlExit h
  | brnNAssert => exact memOk_execBrnNAssert h
  | brnNDeassert => exact memOk_execBrnNDeassert h
  | engineParkDeadline => exact memOk_execEngineParkDeadline h
  | brownoutHeld => exact memOk_execBrownoutHeld h
  | brownoutExit => exact memOk_execBrownoutExit h
  | brownoutResume => exact memOk_execBrownoutResume h
  | supplyLoss => exact memOk_execSupplyLoss h
  | coldBoot => exact memOk_execColdBoot h
  | attestationRequest => exact memOk_execAttestationRequest h
  | crookAssert => exact memOk_execCrookAssert h
  | crookDeassert => exact memOk_execCrookDeassert h
  | crookRelease => exact memOk_execCrookRelease h
  | crookRampStep => exact memOk_execCrookRampStep h
  | powerSample => exact memOk_execPowerSample h
  | powerLoop => exact memOk_execPowerLoop h
  | thermalAdjust => exact memOk_execThermalAdjust h
  | lease => exact memOk_execLease h
  | leaseExpiry => exact memOk_execLeaseExpiry h
  | migrationScan => exact memOk_execMigrationScan h
  | frameCounterHalving => exact memOk_execFrameCounterHalving h
  | migration => exact memOk_execMigration h
  | migrateDone => exact memOk_execMigrateDone h
  | hotCounterHalving => exact memOk_execHotCounterHalving h
  | bankRoleChange => exact memOk_execBankRoleChange h
  | bankSpare => exact memOk_execBankSpare h
  | scoreHalving => exact memOk_execScoreHalving h
  | remap => exact memOk_execRemap h
  | testResult => exact memOk_execTestResult h
  | timedRotation => exact memOk_execTimedRotation h
  | suspicionSwap => exact memOk_execSuspicionSwap h
  | swapEnd => exact memOk_execSwapEnd h
  | eventSettle => exact memOk_execEventSettle h
  | copy => exact memOk_execCopy h
  | toslice => exact memOk_execToslice h
  | fromslice => exact memOk_execFromslice h
  | planes => exact memOk_execPlanes h
  | unplanes => exact memOk_execUnplanes h
  | mxsplit => exact memOk_execMxsplit h
  | copyDone => exact memOk_execCopyDone h
  | xcopyPut => exact memOk_execXcopyPut h
  | xcopyGet => exact memOk_execXcopyGet h
  | xcopyDataFlit => exact memOk_execXcopyDataFlit h
  | xcopyDone => exact memOk_execXcopyDone h
  | xcopyPathTimeout => exact memOk_execXcopyPathTimeout h
  | tileReady => exact memOk_execTileReady h
  | tilePlace => exact memOk_execTilePlace h
  | kStep => exact memOk_execKStep h
  | tileWindowCommit => exact memOk_execTileWindowCommit h
  | tileFetchFailure => exact memOk_execTileFetchFailure h
  | tilePark => exact memOk_execTilePark h
  | spoolFetch => exact memOk_execSpoolFetch h
  | postedReductionWalkEnd => exact memOk_execPostedReductionWalkEnd h
  | floorApply => exact memOk_execFloorApply h
  | syncBroadcast => exact memOk_execSyncBroadcast h
  | nak => exact memOk_execNak h
  | ackTimer => exact memOk_execAckTimer h
  | replayTimeout => exact memOk_execReplayTimeout h
  | laneFailure => exact memOk_execLaneFailure h
  | retrain => exact memOk_execRetrain h
  | bellwetherPost => exact memOk_execBellwetherPost h
  | bellwetherResult => exact memOk_execBellwetherResult h
  | bwredRepost => exact memOk_execBwredRepost h
  | cxlHostAccess => exact memOk_execCxlHostAccess h
  | ucieSegmentFailure => exact memOk_execUcieSegmentFailure h
  | dsModeChange => exact memOk_execDsModeChange h
  | ill => exact memOk_execIll h
  | flitReceived => exact memOk_execFlitReceived h
  | hostSnoop => exact memOk_execHostSnoop h
  | contextRegistration => exact memOk_execContextRegistration h
  | contextDestruction => exact memOk_execContextDestruction h
  | managementConfiguration => exact memOk_execManagementConfiguration h
  | ucieLaneRepair => exact memOk_execUcieLaneRepair h

/-- Every input keeps memory canonical; a store by a host thread is the only one that changes it. -/
theorem memOk_input {s : State} (h : s.memOk) {x : Input} : (s.input x).memOk := by
  cases x with
  | rowParity c row lane =>
    simp only [State.input]
    split <;> simpa [State.memOk] using h
  | copyParity c t =>
    simp only [State.input]
    split
    · simpa [State.memOk] using h
    · exact h
  | uncorrectable part u => cases u <;> simpa [State.input, State.memOk] using h
  | testFault c g row =>
    simp only [State.input]
    split
    · simpa [State.memOk] using h
    · exact h
  | hostStore pa bs => exact memOk_hostAccess h fun t ht => memOk_physStore ht pa bs
  | hostLoad pa n => exact memOk_hostAccess h fun t ht => by simpa [State.memOk] using ht
  | regRead r =>
    simp only [State.input]
    split <;> exact h
  | configRead off n =>
    simp only [State.input]
    split <;> exact h
  | remoteGet n c t => exact memOk_remoteGet h
  | remotePath n c t => simpa [State.input, State.memOk] using h
  | residue | mismatch | corrected | moveParity | tileError | mailbox | fabric =>
    simpa [State.input, State.memOk] using h

/-- A turn of the thread in focus: a fetch, then the instruction fetched, or a trap. -/
theorem memOk_runThread {s : State} (h : s.memOk) : Out.memOk (runThread s) := by
  have hf : (fetch (if s.who = .a then s else s.applyDs s.loc)).memOk := memOk_fetch (by
    split
    · exact h
    · exact memOk_applyDs h)
  unfold runThread
  split
  · exact h
  · split
    · exact memOk_deliver h
    · split
      · next hr => exact memOk_takeTrap ((congrArg Fetched.memOk hr).mp hf)
      · next hr => exact (congrArg Fetched.memOk hr).mp hf
      · next w t hr =>
        have he : Out.memOk (exec (instrOf w) (t.takenUp w)) :=
          memOk_exec (memOk_takenUp ((congrArg Fetched.memOk hr).mp hf)) _
        split
        · next u hu =>
          rw [hu] at he
          simpa [State.memOk] using he
        · exact he

/-- What a step does after it has named the turn: a thread's turn, an operation or event, an input, time. -/
theorem memOk_turn {s : State} (h : s.memOk) (c : CoreId) (w : Who) : Out.memOk (runThread (s.focus c w)) :=
  memOk_runThread (by simpa [State.memOk] using h)

/-- Whatever turn the step takes, memory stays canonical. -/
theorem memOk_step {s : State} (h : s.memOk) : Out.memOk (step s) := by
  have drop (l : List Turn) : { s with agenda := l }.memOk := h
  have own : { s with auto := s.auto + 1 }.memOk := h
  unfold step
  split
  · exact memOk_turn (drop _) _ _
  · exact memOk_exec (drop _) _
  · exact memOk_input (drop _)
  · exact h
  · split
    · exact memOk_turn own _ _
    · exact memOk_exec own _
    · exact memOk_input own
    · exact h

/-- Settles O59: memory has a canonical form in this model (notes/assumptions/3.md), every write of bytes keeps
it, and everything else that a turn does leaves memory alone. -/
theorem everyStepKeepsMemoryCanonical : Obligations.EveryStepKeepsMemoryCanonical := by
  unfold Obligations.EveryStepKeepsMemoryCanonical
  intro s t h ht
  have hs : Out.memOk (step s) := memOk_step h
  rwa [ht] at hs

end Sys2Proof.Machine
end

section
/-! PROOFS. Decoding an encoded word gives its instruction back (O58). The lemma of each instruction stands in
Laws/PerInstr.lean; here they are put together. -/

namespace Sys2Proof.Laws.RoundTrip

/-- The round trip of every row: an instruction by its own lemma; an operation or event has no word, so that nothing is asked
of it. -/
theorem statement_of_instr (i : Instr) : Statement i := by
  cases i with
  | add => apply add
  | sub => apply sub
  | mul => apply mul
  | mulh => apply mulh
  | mulhn => apply mulhn
  | div => apply div
  | divn => apply divn
  | rem => apply rem
  | remn => apply remn
  | and => apply and
  | or => apply or
  | xor => apply xor
  | andn => apply andn
  | shl => apply shl
  | shr => apply shr
  | sar => apply sar
  | min => apply min
  | max => apply max
  | minn => apply minn
  | maxn => apply maxn
  | slt => apply slt
  | sltn => apply sltn
  | clz => apply clz
  | ctz => apply ctz
  | popc => apply popc
  | mov => apply mov
  | gfull => apply gfull
  | gempty => apply gempty
  | addi => apply addi
  | andi => apply andi
  | ori => apply ori
  | xori => apply xori
  | shli => apply shli
  | shri => apply shri
  | sari => apply sari
  | slti => apply slti
  | ins16 => apply ins16
  | ldi => apply ldi
  | ldb => apply ldb
  | ldbz => apply ldbz
  | ldh => apply ldh
  | ldhz => apply ldhz
  | ldw => apply ldw
  | ldwz => apply ldwz
  | ldd => apply ldd
  | ldq => apply ldq
  | stb => apply stb
  | sth => apply sth
  | stw => apply stw
  | std => apply std
  | stq => apply stq
  | beq => apply beq
  | bne => apply bne
  | blt => apply blt
  | bge => apply bge
  | bltn => apply bltn
  | bgen => apply bgen
  | bmz => apply bmz
  | boq => apply boq
  | jmp => apply jmp
  | call => apply call
  | ret => apply ret
  | callr => apply callr
  | jmpr => apply jmpr
  | lexit => apply lexit
  | lidx => apply lidx
  | lcnt => apply lcnt
  | yield => apply yield
  | nop => apply nop
  | bopush => apply bopush
  | loop => apply loop
  | loopi => apply loopi
  | csrrd => apply csrrd
  | csrwr => apply csrwr
  | csrset => apply csrset
  | csrclr => apply csrclr
  | trap => apply trap
  | rett => apply rett
  | halt => apply halt
  | gtsrd => apply gtsrd
  | evrd => apply evrd
  | evwait => apply evwait
  | waita => apply waita
  | fence => apply fence
  | sbar => apply sbar
  | ifence => apply ifence
  | tlbinvAll => apply tlbinvAll
  | tlbinvPage => apply tlbinvPage
  | tlbinvContext => apply tlbinvContext
  | atadd => apply atadd
  | atswp => apply atswp
  | atcas => apply atcas
  | atmin => apply atmin
  | atmax => apply atmax
  | atminn => apply atminn
  | atmaxn => apply atmaxn
  | atand => apply atand
  | ator => apply ator
  | atxor => apply atxor
  | redadd => apply redadd
  | redmin => apply redmin
  | redmax => apply redmax
  | lda => apply lda
  | stl => apply stl
  | sytas => apply sytas
  | syfadd => apply syfadd
  | syrd => apply syrd
  | sywr => apply sywr
  | sywait => apply sywait
  | ldff => apply ldff
  | ldfe => apply ldfe
  | stef => apply stef
  | stff => apply stff
  | feclr => apply feclr
  | feq => apply feq
  | vrld => apply vrld
  | vrldle => apply vrldle
  | vrst => apply vrst
  | vrfloor => apply vrfloor
  | vrtop => apply vrtop
  | vrpoll => apply vrpoll
  | qpush => apply qpush
  | qpop => apply qpop
  | spbind => apply spbind
  | spunb => apply spunb
  | spdrain => apply spdrain
  | spstat => apply spstat
  | bcopy => apply bcopy
  | xcopy => apply xcopy
  | tenq => apply tenq
  | twin => apply twin
  | trel => apply trel
  | tcancel => apply tcancel
  | bwred => apply bwred
  | pgmig => apply pgmig
  | vadd => apply vadd
  | vsub => apply vsub
  | vmul => apply vmul
  | vmac => apply vmac
  | vmsb => apply vmsb
  | vssa => apply vssa
  | vmin => apply vmin
  | vmax => apply vmax
  | vand => apply vand
  | vor => apply vor
  | vxor => apply vxor
  | vandn => apply vandn
  | vshl => apply vshl
  | vshr => apply vshr
  | vmulh => apply vmulh
  | vsel => apply vsel
  | vadds => apply vadds
  | vsubs => apply vsubs
  | vrsubs => apply vrsubs
  | vmuls => apply vmuls
  | vmacs => apply vmacs
  | vmins => apply vmins
  | vmaxs => apply vmaxs
  | vands => apply vands
  | vors => apply vors
  | vxors => apply vxors
  | vshls => apply vshls
  | vshrs => apply vshrs
  | vbcast => apply vbcast
  | vrand => apply vrand
  | vslup => apply vslup
  | vsldn => apply vsldn
  | vmov => apply vmov
  | vnot => apply vnot
  | vneg => apply vneg
  | vabs => apply vabs
  | vcvt => apply vcvt
  | vsatc => apply vsatc
  | vhad => apply vhad
  | vidx => apply vidx
  | vceq => apply vceq
  | vcne => apply vcne
  | vclt => apply vclt
  | vcle => apply vcle
  | vceqs => apply vceqs
  | vcnes => apply vcnes
  | vclts => apply vclts
  | vcles => apply vcles
  | vcgts => apply vcgts
  | vcges => apply vcges
  | vtst => apply vtst
  | fceq => apply fceq
  | fclt => apply fclt
  | fcle => apply fcle
  | fcun => apply fcun
  | pand => apply pand
  | por => apply por
  | pxor => apply pxor
  | pandn => apply pandn
  | pnot => apply pnot
  | pmov => apply pmov
  | pall => apply pall
  | pclr => apply pclr
  | pcnt => apply pcnt
  | pffs => apply pffs
  | pfilt => apply pfilt
  | mpush => apply mpush
  | minv => apply minv
  | mpop => apply mpop
  | mtop => apply mtop
  | seamrd => apply seamrd
  | seamwr => apply seamwr
  | vredsum => apply vredsum
  | vredmin => apply vredmin
  | vredmax => apply vredmax
  | vredand => apply vredand
  | vredor => apply vredor
  | vargmax => apply vargmax
  | vargmin => apply vargmin
  | fredsum => apply fredsum
  | fredmax => apply fredmax
  | fargmax => apply fargmax
  | vscansum => apply vscansum
  | vscanmax => apply vscanmax
  | vscanmin => apply vscanmin
  | fscansum => apply fscansum
  | vcompress => apply vcompress
  | vexpand => apply vexpand
  | vperm => apply vperm
  | fadd => apply fadd
  | fsub => apply fsub
  | fmul => apply fmul
  | fma => apply fma
  | fmin => apply fmin
  | fmax => apply fmax
  | fabs => apply fabs
  | fneg => apply fneg
  | fcvt => apply fcvt
  | fcvti => apply fcvti
  | fcvtf => apply fcvtf
  | fexp2 => apply fexp2
  | frcp => apply frcp
  | fscl => apply fscl
  | mxscl => apply mxscl
  | mxqnt => apply mxqnt
  | mxbdot => apply mxbdot
  | emov => apply emov
  | vqnt => apply vqnt
  | vld => apply vld
  | vst => apply vst
  | vlds => apply vlds
  | vsts => apply vsts
  | vldx => apply vldx
  | vstx => apply vstx
  | vldl => apply vldl
  | vstl => apply vstl
  | pld => apply pld
  | pst => apply pst
  | mxld => apply mxld
  | mxst => apply mxst
  | vvrld => apply vvrld
  | vvrst => apply vvrst
  | setvlx => apply setvlx
  | setvl => apply setvl
  | setvlf => apply setvlf
  | vkill => apply vkill
  | setew => apply setew
  | pgclr => apply pgclr
  | pgadd => apply pgadd
  | pganc => apply pganc
  | pgpos => apply pgpos
  | pgpath => apply pgpath
  | pgprune => apply pgprune
  | pgrd => apply pgrd
  | pgcnt => apply pgcnt
  | pgsize => apply pgsize
  | split => apply split
  | join => apply join
  | mtid => apply mtid
  | pfx => apply pfx
  | fillComplete | waitTimeout | feTimeout | verTimeout | verFull | trapDelivery | predeadlineExpiry
  | contextSave | teamRestore | teamPlace | victimSelection | hotSpotCheck | launch | launchLive
  | launchComplete | droverCopy | waitver | makever | droverFence | cancel | invalidRecord | qtailWrite
  | queueEnable | queueDisable | fltClear | hostEventRingEnable | hevheadWrite | hostEventRecord
  | registerWrite | pwrctlEnter | pwrctlExit | brnNAssert | brnNDeassert | engineParkDeadline | brownoutHeld
  | brownoutExit | brownoutResume | supplyLoss | coldBoot | attestationRequest | crookAssert | crookDeassert
  | crookRelease | crookRampStep | powerSample | powerLoop | thermalAdjust | lease | leaseExpiry
  | migrationScan | frameCounterHalving | migration | migrateDone | hotCounterHalving | bankRoleChange
  | bankSpare | scoreHalving | remap | testResult | timedRotation | suspicionSwap | swapEnd | eventSettle
  | copy | toslice | fromslice | planes | unplanes | mxsplit | copyDone | xcopyPut | xcopyGet | xcopyDataFlit
  | xcopyDone | xcopyPathTimeout | tileReady | tilePlace | kStep | tileWindowCommit | tileFetchFailure
  | tilePark | spoolFetch | postedReductionWalkEnd | floorApply | syncBroadcast | nak | ackTimer
  | replayTimeout | laneFailure | retrain | bellwetherPost | bellwetherResult | bwredRepost | cxlHostAccess
  | ucieSegmentFailure | dsModeChange | ill | flitReceived | hostSnoop | contextRegistration
  | contextDestruction | managementConfiguration | ucieLaneRepair => exact of_event rfl

/-- Settles O58: every encoded constructor's fields are read back from its word by the lemma of its format. -/
theorem decodeEncodeAgree : Obligations.DecodeEncodeAgree := by
  unfold Obligations.DecodeEncodeAgree
  exact statement_of_instr

end Sys2Proof.Laws.RoundTrip
end

section
/-! PROOFS. The checks of R38 (O53). A QPUSH or QPOP on the wrong sequencer is ILL under R93, which R38 checks first, before
ILL_PFX; the statement makes that exception for the CSR forms alone, and a QPUSH with a prefix pending refutes it. -/

namespace Sys2Proof.Machine

open Sys2Proof.Claims

/-- A last check of R37 that makes a word ILL comes before every other check (R38). -/
theorem issueIll_ill {w : BitVec 32} {ill : State → Bool} {srcs : List (BitVec 5 × BitVec 1)} {s : State}
    {body : State → Res} (hr : s.core.resident = true) (hi : ill s = true) :
    issueIll w ill srcs s body = .next (s.takeTrap .ill (w.setWidth 64) s.thr.pc) := by
  simp [issueIll, hr, hi, finish]

/-- A QPUSH to a queue that the other sequencer pushes takes ILL, whatever the checks before the operands say (R93). -/
theorem exec_qpush_wrong_sequencer {s : State} {q : BitVec 2} {r : BitVec 5} (hr : s.core.resident = true)
    (hq : ((s.who = .a) != decide (q.toNat ≤ 1)) = true) :
    exec (.qpush q r) s = .next (s.takeTrap .ill (wordVal (.qpush q r)) s.thr.pc) := by
  rw [exec_qpush, execQpush]
  exact issueIll_ill hr hq

/-- A trap taken outside a handler, through a TVEC that names no table, leaves its cause's number in TCAUSE (R97, R99). -/
theorem takeTrap_tcause {s : State} (c : Cause) (v pc : Word) (hb : s.thr.busy = false)
    (ht : bit (s.hart.tvecOf s.who) 63 = false) : (s.takeTrap c v pc).thr.tcause = c.code := by
  simp [State.takeTrap, State.tryTrap, hb, ht, Thread.saveTrap]

/-- E, placed and in user mode, with a prefix pending. -/
def prefixPendingOnE : State := { who := .e, core := { resident := true, hart := { ex := { pfx := { pend := true } } } } }

/-- Refutes O53: E executes QPUSH to q0, which only A may push (R93), with a prefix pending. The checks before the operands
name ILL_PFX, since QPUSH takes no prefix; executing it takes ILL, the first check of R38. -/
theorem not_checksTrapBeforeAnyEffect : ¬ Obligations.ChecksTrapBeforeAnyEffect := by
  unfold Obligations.ChecksTrapBeforeAnyEffect
  intro h
  obtain ⟨-, h, -⟩ := h prefixPendingOnE rfl
  have gate_illPfx : gate (encode (.qpush 0 1)) prefixPendingOnE = some .illPfx := by decide
  have claimed : exec (.qpush 0 1) prefixPendingOnE = .next (prefixPendingOnE.takeTrap .illPfx (wordVal (.qpush 0 1)) 0) :=
    h (.qpush 0 1) .illPfx (by decide) gate_illPfx
  have taken : exec (.qpush 0 1) prefixPendingOnE = .next (prefixPendingOnE.takeTrap .ill (wordVal (.qpush 0 1)) 0) :=
    exec_qpush_wrong_sequencer rfl (by decide)
  have same := Host.Outcome.next.inj (taken.symm.trans claimed)
  have codes := congrArg (fun t : State => t.thr.tcause) same
  simp only [takeTrap_tcause _ _ _ (rfl : prefixPendingOnE.thr.busy = false) (by decide)] at codes
  exact absurd codes (by decide)

end Sys2Proof.Machine
end

section
/-! PROOFS. What a prefix does (O31), part 1: lanes of planes, and the lane side of the thread in focus after the operations that
end a vector instruction. -/

namespace Sys2Proof.Machine

open Sys2Proof.Claims

/-! ## Bits of planes in a lane (R107, R108, R125) -/

/-- A bit of the value that planes hold in a lane. -/
theorem testBit_rawAt (l : Nat) (ps : List Plane) (b : Nat) : (rawAt l ps).testBit b = (ps.getD b 0).getLsbD l := by
  induction ps generalizing b with
  | nil => simp [rawAt]
  | cons p r ih =>
    cases b with
    | zero => cases hp : p.getLsbD l <;> simp [rawAt, hp, Nat.testBit_zero]
    | succ b =>
      have hd : ((if p.getLsbD l then 1 else 0) + 2 * rawAt l r) / 2 = rawAt l r := by split <;> omega
      simp [rawAt, Nat.testBit_succ, hd, ih]

theorem getLsbD_mergePlane (old new mask : Plane) (l : Nat) :
    (mergePlane old new mask).getLsbD l = if mask.getLsbD l then new.getLsbD l else old.getLsbD l := by
  have hlt : old.getLsbD l = true → l < 16384 := BitVec.lt_of_getLsbD
  by_cases hm : mask.getLsbD l = true
  · simp [mergePlane, hm]
  · simp_all [mergePlane]

theorem testBit_foldl_lanes (base l : Nat) (js : List Nat) (a : Nat) :
    (js.foldl (fun acc j => acc ||| (1 <<< (base + j))) a).testBit l = true ↔ a.testBit l = true ∨ ∃ j ∈ js, base + j = l := by
  induction js generalizing a with
  | nil => simp
  | cons j r ih => rw [List.foldl_cons, ih]; simp [Nat.testBit_or, Nat.one_shiftLeft, Nat.testBit_two_pow, or_assoc]

/-- The lanes of a set are those of its elements. -/
theorem getLsbD_laneSet {base l : Nat} (js : List Nat) (hl : l < 16384) :
    (laneSet base js).getLsbD l = true ↔ ∃ j ∈ js, base + j = l := by
  rw [laneSet, BitVec.getLsbD_ofNat, decide_eq_true hl, Bool.true_and, testBit_foldl_lanes]
  simp

/-- The mirrors of MODE.DS leave the lanes that hold elements as they are. -/
theorem getLsbD_mirrored {s : State} {l : Nat} (p : Plane) (hl : l < primaryLanes s) :
    (mirrored s.hart p).getLsbD l = p.getLsbD l := by
  cases h : s.hart.ds <;> simp_all [primaryLanes, mirrored]

/-- Mirroring depends on MODE.DS alone. -/
theorem mirrored_congr {h k : Hart} (p : Plane) (e : h.ds = k.ds) : mirrored h p = mirrored k p := by
  rw [mirrored, mirrored, e]

theorem getLsbD_mirrored_laneSet {s : State} {base l : Nat} (js : List Nat) (hl : l < primaryLanes s) :
    (mirrored s.hart (laneSet base js)).getLsbD l = true ↔ ∃ j ∈ js, base + j = l := by
  have hle : primaryLanes s ≤ 16384 := by unfold primaryLanes; split <;> omega
  rw [getLsbD_mirrored _ hl, getLsbD_laneSet js (by omega)]

/-- Planes merged under a mask keep the value of a lane outside it. -/
theorem rawAt_merged_outside {l : Nat} {mask : Plane} (old : List Plane) (new : Nat → Plane) (h : mask.getLsbD l = false) :
    rawAt l (old.mapIdx (fun b p => mergePlane p (new b) mask)) = rawAt l old := by
  apply Nat.eq_of_testBit_eq
  intro b
  simp only [testBit_rawAt, List.getD_eq_getElem?_getD, List.getElem?_mapIdx]
  cases old[b]? <;> simp [getLsbD_mergePlane, h]

/-- Planes merged under a mask hold in its lanes the bits that come in, up to their number. -/
theorem testBit_rawAt_merged {l : Nat} {mask : Plane} (old : List Plane) (new : Nat → Plane) (h : mask.getLsbD l = true)
    (b : Nat) : (rawAt l (old.mapIdx (fun b p => mergePlane p (new b) mask))).testBit b =
      (decide (b < old.length) && (new b).getLsbD l) := by
  simp only [testBit_rawAt, List.getD_eq_getElem?_getD, List.getElem?_mapIdx]
  by_cases hb : b < old.length <;> simp [hb, getLsbD_mergePlane, h]

/-- In a lane of the mask, planes merged from as many others hold their value. -/
theorem rawAt_merged_inside {l : Nat} {mask : Plane} {old new : List Plane} (h : mask.getLsbD l = true)
    (hlen : new.length = old.length) :
    rawAt l (old.mapIdx (fun b p => mergePlane p (new.getD b 0) mask)) = rawAt l new := by
  apply Nat.eq_of_testBit_eq
  intro b
  rw [testBit_rawAt_merged old (fun b => new.getD b 0) h, testBit_rawAt]
  by_cases hb : b < old.length
  · rw [decide_eq_true hb, Bool.true_and]
  · rw [decide_eq_false hb, Bool.false_and, List.getD_eq_getElem?_getD,
      List.getElem?_eq_none (by omega)]
    exact BitVec.getLsbD_zero.symm

@[simp] theorem length_keptPlanes (v : VReg) (wd : Nat) (sd : Bool) : (keptPlanes v wd sd).length = wd := by
  simp only [keptPlanes, planesAt, List.length_map, List.length_range]

@[simp] theorem length_writeElems (h : Hart) (base : Nat) (old : List Plane) (res : List (Nat × Nat)) :
    (writeElems h base old res).length = old.length := by
  simp [writeElems]

/-- An element that is listed once is listed with one value. -/
theorem eq_of_mem_of_nodup_fst {j v w : Nat} {res : List (Nat × Nat)} (hn : (res.map (·.1)).Nodup) (hv : (j, v) ∈ res)
    (hw : (j, w) ∈ res) : w = v := by
  induction res with
  | nil => cases hv
  | cons e r ih =>
    obtain ⟨hne, hr⟩ := List.nodup_cons.1 (List.map_cons ▸ hn)
    have notIn {u : Nat} (hu : (j, u) ∈ r) : e.1 ≠ j := fun h => hne (h ▸ List.mem_map.2 ⟨_, hu, rfl⟩)
    obtain rfl | hv' := List.mem_cons.1 hv
    · obtain h | hw' := List.mem_cons.1 hw
      · exact congrArg Prod.snd h
      · exact absurd rfl (notIn hw')
    · obtain rfl | hw' := List.mem_cons.1 hw
      · exact absurd rfl (notIn hv')
      · exact ih hr hv' hw'

/-- An element written reads back its bits, when each element is listed once (R113). -/
theorem rawAt_writeElems {s : State} {base j v : Nat} {old : List Plane} {res : List (Nat × Nat)} (hn : (res.map (·.1)).Nodup)
    (hj : (j, v) ∈ res) (hl : base + j < primaryLanes s) (hv : v < 2 ^ old.length) :
    rawAt (base + j) (writeElems s.hart base old res) = v := by
  have hm : (mirrored s.hart (laneSet base (res.map (·.1)))).getLsbD (base + j) = true :=
    (getLsbD_mirrored_laneSet _ hl).2 ⟨j, List.mem_map.2 ⟨_, hj, rfl⟩, rfl⟩
  apply Nat.eq_of_testBit_eq
  intro b
  rw [writeElems, testBit_rawAt_merged _ _ hm]
  by_cases hb : b < old.length
  · rw [decide_eq_true hb, Bool.true_and, Bool.eq_iff_iff, getLsbD_mirrored_laneSet _ hl]
    constructor
    · rintro ⟨k, hk, e⟩
      obtain rfl : k = j := by omega
      obtain ⟨⟨_, w⟩, hw, rfl⟩ := List.mem_map.1 hk
      obtain ⟨hw, ht⟩ := List.mem_filter.1 hw
      exact eq_of_mem_of_nodup_fst hn hj hw ▸ ht
    · exact fun ht => ⟨j, List.mem_map.2 ⟨_, List.mem_filter.2 ⟨hj, ht⟩, rfl⟩, rfl⟩
  · have hlt : v < 2 ^ b := Nat.lt_of_lt_of_le hv (Nat.pow_le_pow_right (by omega) (by omega))
    rw [decide_eq_false hb, Bool.false_and, Nat.testBit_lt_two_pow hlt]

/-! ## Registers of a lane side (R112, R113) -/

theorem EState.vreg_commit (x : EState) (r q : BitVec 5) (ps : List Plane) (sd : Bool) (rows : List Nat) (n : Nat) :
    (x.commit r ps sd rows n).vreg q =
      if r = q then { planes := ps, sd := sd, rows := rows, inPool := true, stamp := n } else x.vreg q := by
  simp only [EState.vreg, EState.commit, Vector.getElem_set, BitVec.toNat_inj]

theorem EState.vreg_freeReg (x : EState) (r q : BitVec 5) : (x.freeReg r).vreg q = if r = q then {} else x.vreg q := by
  simp only [EState.vreg, EState.freeReg, Vector.getElem_set, BitVec.toNat_inj]

@[simp] theorem EState.commit_pfx (x : EState) (r : BitVec 5) (ps : List Plane) (sd : Bool) (rows : List Nat) (n : Nat) :
    (x.commit r ps sd rows n).pfx = x.pfx := rfl

/-- What a source field frees when the prefix marks it as last used. -/
def freeField (x : EState) (last : Bool) (f : Option (BitVec 5)) : EState :=
  if x.pfx.pend && last then (match f with | some r => x.freeReg r | none => x) else x

theorem freeField_pfx (x : EState) (last : Bool) (f : Option (BitVec 5)) : (freeField x last f).pfx = x.pfx := by
  unfold freeField; cases f <;> split <;> rfl

/-- A prefix frees va first and then vb. -/
theorem freeLast_eq (x : EState) (va vb : Option (BitVec 5)) :
    freeLast x va vb = freeField (freeField x x.pfx.lua va) x.pfx.lub vb := by
  rw [freeField.eq_def (freeField x x.pfx.lua va), freeField_pfx]
  rfl

theorem freeField_vreg (x : EState) (last : Bool) (f : Option (BitVec 5)) (q : BitVec 5) :
    (freeField x last f).vreg q = if x.pfx.pend = true ∧ last = true ∧ f = some q then {} else x.vreg q := by
  cases f with
  | none => simp [freeField]
  | some r =>
    simp only [freeField, Bool.and_eq_true]
    by_cases h : x.pfx.pend = true ∧ last = true
    · simp [h, EState.vreg_freeReg]
    · rw [if_neg h, if_neg (fun hq => h ⟨hq.1, hq.2.1⟩)]

@[simp] theorem freeLast_pfx (x : EState) (va vb : Option (BitVec 5)) : (freeLast x va vb).pfx = x.pfx := by
  simp only [freeLast_eq, freeField_pfx]

/-- A pending prefix frees the sources that it marks as last used, and no other register (R49). -/
theorem freeLast_vreg (x : EState) (va vb : Option (BitVec 5)) (q : BitVec 5) :
    (freeLast x va vb).vreg q = if x.pfx.pend = true ∧ (x.pfx.lua = true ∧ va = some q ∨ x.pfx.lub = true ∧ vb = some q)
      then {} else x.vreg q := by
  simp only [freeLast_eq, freeField_vreg, freeField_pfx]
  by_cases hb : x.pfx.pend = true ∧ x.pfx.lub = true ∧ vb = some q
  · rw [if_pos hb, if_pos ⟨hb.1, .inr hb.2⟩]
  · rw [if_neg hb]
    by_cases ha : x.pfx.pend = true ∧ x.pfx.lua = true ∧ va = some q
    · rw [if_pos ha, if_pos ⟨ha.1, .inl ha.2⟩]
    · rw [if_neg ha, if_neg]
      rintro ⟨hp, h | h⟩
      · exact ha ⟨hp, h⟩
      · exact hb ⟨hp, h⟩

/-! ## The thread in focus at the end of a vector instruction -/

@[simp] theorem State.commitReg_ds (s : State) (r : BitVec 5) (ps : List Plane) (sd : Bool) (rows : List Nat) :
    (s.commitReg r ps sd rows).hart.ds = s.hart.ds :=
  Hart.setEst_ds ..

/-- Rows written to the pool leave every lane side. -/
theorem Hart.est_writeRows (h : Hart) (lanes : Plane) (rows : List Nat) (ps : List Plane) (w : Who) :
    (h.writeRows lanes rows ps).est w = h.est w := by
  cases w <;> rfl

/-- A commit to a register of the thread in focus changes that register of its lane side. -/
theorem State.commitReg_est (s : State) (r : BitVec 5) (ps : List Plane) (sd : Bool) (rows : List Nat) :
    (s.commitReg r ps sd rows).est = s.est.commit r ps sd rows (s.hart.writeSeq + 1) := by
  have h (h : Hart) (n : Nat) : ({ h with writeSeq := n } : Hart).est s.who = h.est s.who := by cases s.who <;> rfl
  rw [State.commitReg, State.setHart_est, Hart.commitReg, Hart.est_writeRows, h, Hart.est_setEst]

@[simp] theorem Hart.est_setSpool (h : Hart) (i : Nat) (p : Spool) (w : Who) : (h.setSpool i p).est w = h.est w := by
  unfold Hart.setSpool
  split <;> cases w <;> rfl

@[simp] theorem State.consume_est (s : State) (ns : List Nat) (n : Nat) : (s.consume ns n).est = s.est := by
  unfold State.consume
  induction ns generalizing s with
  | nil => rfl
  | cons i r ih => rw [List.foldl_cons, ih, State.setHart_est, Hart.est_setSpool]

theorem vdone_est (s : State) (i : VIn) (flags : BitVec 4) :
    (vdone s i flags).est = { s.est with fstat := s.est.fstat ||| flags, pfx := { s.est.pfx with pend := false } } := by
  simp [vdone]

theorem vdone_vreg (s : State) (i : VIn) (flags : BitVec 4) (q : BitVec 5) : (vdone s i flags).est.vreg q = s.est.vreg q := by
  rw [vdone_est]
  rfl

end Sys2Proof.Machine
end

section
/-! PROOFS. What a prefix does (O31), part 2: the copy of the destination, and the statement. -/

namespace Sys2Proof.Machine

open Sys2Proof.Claims

/-! ## The copy of a destination (R49) -/

section Copy

variable {s : State} {i : VIn} {vd : BitVec 5} {ps : List Plane} {wd : Nat} {sd : Bool} {rows : List Nat}

/-- Only the copy register changes. -/
theorem copyDst_vreg_other {q : BitVec 5} (h : s.est.pfx.ce = true → q ≠ s.est.pfx.vc) :
    (copyDst s i vd ps wd sd rows).est.vreg q = s.est.vreg q := by
  simp only [copyDst]
  split
  · next hc =>
    have hc : s.est.pfx.ce = true := by simp_all
    rw [State.commitReg_est, EState.vreg_commit, if_neg (h hc).symm]
  · rfl

/-- The copy register takes the new planes in the lanes of the active elements. -/
theorem copyDst_vreg_copy {x : Pfx} (hx : s.est.pfx = x) (hp : x.pend = true) (hc : x.ce = true) (hv : x.vc ≠ vd) :
    ((copyDst s i vd ps wd sd rows).est.vreg x.vc).planes = (keptPlanes (s.est.vreg x.vc) wd sd).mapIdx
      (fun b p => mergePlane p (ps.getD b 0) (mirrored s.hart (laneSet i.base i.act))) := by
  simp [copyDst, hx, hp, hc, hv, State.commitReg_est, EState.vreg_commit]

end Copy

/-! ## What a write leaves in the registers beside vd (R49, R113) -/

section PutVec

variable {s : State} {i : VIn} {va vb : Option (BitVec 5)} {vd : BitVec 5} {wd : Nat} {res : List (Nat × Nat)} {fl : BitVec 4}

/-- The prefix is used up. -/
theorem putVec_pend : (putVec s i va vb vd wd res fl).est.pfx.pend = false := by
  rw [putVec, vdone_est]

/-- A register that is neither vd nor a copy is as the prefix frees it or leaves it. -/
theorem putVec_vreg_other {q : BitVec 5} (hd : q ≠ vd) (hc : s.est.pfx.ce = true → q ≠ s.est.pfx.vc) :
    (putVec s i va vb vd wd res fl).est.vreg q = (freeLast s.est va vb).vreg q := by
  rw [putVec, vdone_vreg, copyDst_vreg_other (by simpa [State.commitReg_est] using hc), State.commitReg_est,
    EState.vreg_commit, if_neg hd.symm, State.setEst_est]

/-- The copy register takes vd's new planes in the lanes of the active elements. -/
theorem putVec_vreg_copy (hp : s.est.pfx.pend = true) (hc : s.est.pfx.ce = true) (hv : s.est.pfx.vc ≠ vd) :
    ((putVec s i va vb vd wd res fl).est.vreg s.est.pfx.vc).planes =
      (keptPlanes ((freeLast s.est va vb).vreg s.est.pfx.vc) wd s.est.sd).mapIdx (fun b p => mergePlane p
        ((writeElems s.hart i.base (keptPlanes ((freeLast s.est va vb).vreg vd) wd s.est.sd) res).getD b 0)
        (mirrored s.hart (laneSet i.base i.act))) := by
  have hpfx (ps : List Plane) (rows : List Nat) :
      ((s.setEst (freeLast s.est va vb)).commitReg vd ps s.est.sd rows).est.pfx = s.est.pfx := by
    rw [State.commitReg_est, EState.commit_pfx, State.setEst_est, freeLast_pfx]
  rw [putVec, vdone_vreg, copyDst_vreg_copy (hpfx ..) hp hc hv, State.commitReg_est, EState.vreg_commit, if_neg hv.symm,
    State.setEst_est, mirrored_congr _ ((State.commitReg_ds ..).trans (Hart.setEst_ds ..))]

end PutVec

/-! ## The statement -/

/-- The active elements are those below VL that the own predicate, a lent one and the top of the mask stack let through (R118). -/
theorem mem_actives (s : State) (p : BitVec 6) (j : Nat) : j ∈ actives s p ↔ j < s.est.vl ∧ pred s p j = true ∧
    (s.est.pfx.pend = true → s.est.pfx.pe = true → pred s s.est.pfx.pm j = !s.est.pfx.inv) ∧
    topAt s.hart s.est (laneBase s.hart s.who) j = true := by
  have lent : lentAt s.hart s.est (laneBase s.hart s.who) j = true ↔
      (s.est.pfx.pend = true → s.est.pfx.pe = true → pred s s.est.pfx.pm j = !s.est.pfx.inv) := by
    have bits : ∀ pend pe lent inv : Bool,
        (!(pend && pe) || (lent ^^ inv)) = true ↔ (pend = true → pe = true → lent = !inv) := by decide
    exact bits ..
  simp [actives, activeJs, lent, pred, and_assoc]

/-- Settles O31: activity is a filter of the elements below VL; the write leaves every register beside vd and the copy as the
prefix frees it or leaves it; and the copy is merged with vd's new planes under a mask of the active lanes. -/
theorem prefixEffects : Obligations.PrefixEffects := by
  unfold Obligations.PrefixEffects
  refine ⟨mem_actives, fun s i va vb vd wd res fl _ hp => ⟨putVec_pend, fun r hr hl hd hc => ?_, fun r hr hl hd hc => ?_,
    fun hc hv hact hn hb => ⟨fun j v hj => ?_, fun l hl hout ha hb' => ?_⟩⟩⟩
  · rw [putVec_vreg_other hd hc, freeLast_vreg, if_pos ⟨hp, .inl ⟨hl, hr⟩⟩]
  · rw [putVec_vreg_other hd hc, freeLast_vreg, if_pos ⟨hp, .inr ⟨hl, hr⟩⟩]
  · obtain ⟨hlane, hv2⟩ := hb _ hj
    have hm : (mirrored s.hart (laneSet i.base i.act)).getLsbD (i.base + j) = true :=
      (getLsbD_mirrored_laneSet _ hlane).2 ⟨j, hact ▸ List.mem_map.2 ⟨_, hj, rfl⟩, rfl⟩
    rw [putVec_vreg_copy hp hc hv, rawAt_merged_inside hm (by simp),
      rawAt_writeElems (hact ▸ hn) hj hlane (by simpa using hv2)]
  · have hm : (mirrored s.hart (laneSet i.base i.act)).getLsbD l = false := by
      rw [Bool.eq_false_iff, Ne, getLsbD_mirrored_laneSet _ hl]
      rintro ⟨j, hj, e⟩
      exact hout j hj e.symm
    have kept : (freeLast s.est va vb).vreg s.est.pfx.vc = s.est.vreg s.est.pfx.vc := by
      rw [freeLast_vreg, if_neg]
      rintro ⟨-, ⟨hl, e⟩ | ⟨hl, e⟩⟩
      · simp [ha e] at hl
      · simp [hb' e] at hl
    rw [putVec_vreg_copy hp hc hv, kept]
    exact rawAt_merged_outside _ _ hm

end Sys2Proof.Machine
end

section
/-! PROOFS. A thread's turn fetches the word at its PC and executes the instruction that it decodes to (O56): what a turn does
in each of its cases, what a fetch reads, and which turn a step takes. -/

namespace Sys2Proof.Machine

/-! ## A turn of the thread in focus -/

theorem runThread_blocked {u : State} (h : u.core.canRun u.who = false) : runThread u = .next u := by
  simp [runThread, h]

theorem runThread_deferred {u : State} (h : u.core.canRun u.who = true) (hd : u.thr.deferred ≠ []) :
    runThread u = .next u.deliver := by
  simp [runThread, h, hd]

/-- A word reaches execution as what it decodes to, or as ILL (R37). -/
theorem instrOf_eq {x : BitVec 32} {i : Instr}
    (h : decode x = .ok i ∨ (∃ e, decode x = .error e) ∧ i = .ill x) : instrOf x = i := by
  obtain h | ⟨⟨e, h⟩, rfl⟩ := h <;> simp [instrOf, h]

/-- The lanes admit nothing for A, nor for a word that its checks stop, that the lanes do not execute, or that is no
instruction. -/
theorem takenUp_eq_self {t : State} {x : BitVec 32} (h : t.who = .a ∨ (gate x t).isSome = true ∨ laneWord t x = false ∨
    ∃ e, decode x = .error e) : t.takenUp x = t := by
  obtain h | h | h | ⟨e, h⟩ := h <;> simp [State.takenUp, State.illWord, h]

/-- A thread that is not forced inside its instruction does not park after it. -/
theorem endCut_of_uncut {t u : State} (h : u.thr.cut = none) : t.endCut u = t := by
  simp [State.endCut, h]

section Fetched

variable {u t : State} {x : BitVec 32} {i : Instr} (h : u.core.canRun u.who = true) (hd : u.thr.deferred = [])
include h hd

/-- A fetch that fails traps with the address as TPC and TVAL (R72). -/
theorem runThread_fetch_fails {e : Cause} (hf : fetch (if u.who = .a then u else u.applyDs u.loc) = .fail e t) :
    runThread u = .next (t.takeTrap e t.thr.pc t.thr.pc) := by
  simp [runThread, h, hd, hf]

theorem runThread_fetch_stalls (hf : fetch (if u.who = .a then u else u.applyDs u.loc) = .stall t) :
    runThread u = .next t := by
  simp [runThread, h, hd, hf]

/-- A word fetched is executed, and a thread that is forced inside it parks after it (R103). -/
theorem runThread_next (hf : fetch (if u.who = .a then u else u.applyDs u.loc) = .ok x t) (hi : instrOf x = i)
    {v : State} (hv : exec i (t.takenUp x) = .next v) : runThread u = .next (v.endCut u) := by
  simp [runThread, h, hd, hf, hi, hv]

theorem runThread_fault (hf : fetch (if u.who = .a then u else u.applyDs u.loc) = .ok x t) (hi : instrOf x = i)
    {e : Fault} (he : exec i (t.takenUp x) = .fault e) : runThread u = .fault e := by
  simp [runThread, h, hd, hf, hi, he]

/-- A turn of a thread that is not forced is the execution of the word fetched. -/
theorem runThread_uncut (hf : fetch (if u.who = .a then u else u.applyDs u.loc) = .ok x t) (hi : instrOf x = i)
    (hu : u.thr.cut = none) : runThread u = exec i (t.takenUp x) := by
  cases hv : exec i (t.takenUp x) with
  | next v => rw [runThread_next h hd hf hi hv, endCut_of_uncut hu]
  | fault e => exact runThread_fault h hd hf hi hv
  | refused r => simp [runThread, h, hd, hf, hi, hv]

end Fetched

/-! ## The word that a fetch reads -/

/-- The bytes that a read gives are those that memory holds from the address on. -/
theorem memRead_eq_map (m : List Host.Cell) (a n : Nat) : memRead m a n = (List.range n).map (fun i => memGet m (a + i)) := by
  refine List.map_congr_left fun i hi => ?_
  have hi : i < n := List.mem_range.1 hi
  simp [memGet_filter m (fun k => decide (a ≤ k) && decide (k < a + n)), hi]

/-- Part of what was read is what lies there. -/
theorem take_drop_memRead (m : List Host.Cell) {a k n len : Nat} (h : k + n ≤ len) :
    ((memRead m a len).drop k).take n = memRead m (a + k) n := by
  apply List.ext_getElem
  · simp [memRead_eq_map]; omega
  · intro i _ _
    simp [memRead_eq_map, Nat.add_assoc]

/-- A fetch from a line that the instruction cache does not hold reads the word at the translated address. -/
theorem fetch_uncached {u t : State} {pa : Nat} {tlb : List TlbEntry} (hc : canonical u.thr.pc = true)
    (hw : u.thr.pc.toNat < windowBase) (ha : pa % 4 = 0)
    (hx : u.xlate none u.core.tlb 256 u.hart.ctx (!u.thr.super) .fetch u.thr.pc = .ok pa tlb t)
    (hn : assocFind t.core.icache (pa / 64) = none)
    (ho : { t with core := { t.core with tlb := tlb } }.owned none (.phys pa) = false) :
    ∃ v : State, fetch u = .ok (BitVec.ofNat 32 (ofBytes (memRead t.mem pa 4))) v ∧ v.mem = t.mem := by
  have hb : ((memRead t.mem (64 * (pa / 64)) 64).drop (pa % 64)).take 4 = memRead t.mem pa 4 := by
    rw [take_drop_memRead _ (by omega), Nat.div_add_mod]
  simp [fetch, hc, Nat.not_le.2 hw, hx, hn, ho, hb]

/-- A fetch from a line that the instruction cache holds reads the word there. -/
theorem fetch_cached {u t : State} {pa : Nat} {tlb : List TlbEntry} {line : List Byte} (hc : canonical u.thr.pc = true)
    (hw : u.thr.pc.toNat < windowBase)
    (hx : u.xlate none u.core.tlb 256 u.hart.ctx (!u.thr.super) .fetch u.thr.pc = .ok pa tlb t)
    (hl : assocFind t.core.icache (pa / 64) = some line) :
    ∃ v : State, fetch u = .ok (BitVec.ofNat 32 (ofBytes ((line.drop (pa % 64)).take 4))) v ∧ v.mem = t.mem := by
  simp [fetch, hc, Nat.not_le.2 hw, hx, hl]

/-! ## The turn that a step takes -/

theorem step_of_thread {s : State} {c : CoreId} {w : Who} {rest : List Turn} (h : s.agenda = .thread c w :: rest) :
    step s = runThread ({ s with agenda := rest }.focus c w) := by
  simp only [step, h]

theorem step_of_event {s : State} {i : Instr} {rest : List Turn} (h : s.agenda = .event i :: rest) :
    step s = exec i { s with agenda := rest } := by
  simp only [step, h]

theorem step_of_tick {s : State} {n : Nat} {rest : List Turn} (h : s.agenda = .tick n :: rest) :
    step s = .next ({ s with agenda := rest }.tick n) := by
  simp only [step, h]

theorem step_of_input {s : State} {x : Input} {rest : List Turn} (h : s.agenda = .input x :: rest) :
    step s = .next ({ s with agenda := rest }.input x) := by
  simp only [step, h]

/-- With an empty agenda the turn of the rotation is taken as if the agenda named it. -/
theorem step_of_empty {s : State} (h : s.agenda = []) :
    step s = step { s with auto := s.auto + 1, agenda := [s.autoTurn] } := by
  cases ht : s.autoTurn <;> simp only [step, h, ht]

/-- Settles O56: a step is one turn of what the agenda names, and a thread's turn is the fetch at its PC followed by exec
of what the word decodes to. -/
theorem stepRunsTheDecodedInstruction : Obligations.StepRunsTheDecodedInstruction := by
  unfold Obligations.StepRunsTheDecodedInstruction
  refine ⟨fun s c w rest h => ⟨fun hr => ?_, fun hr hd => ?_, fun hr hd => ⟨fun x t i hf hi => ?_, fun e t hf => ?_, fun t hf => ?_⟩⟩,
    fun u pa tlb t hc hw ha hx => ⟨fetch_uncached hc hw ha hx, fun line => fetch_cached hc hw hx⟩,
    fun s i rest => step_of_event, fun s n rest => step_of_tick, fun s x rest => step_of_input, fun s => step_of_empty⟩
  · rw [step_of_thread h, runThread_blocked hr]
  · rw [step_of_thread h, runThread_deferred hr hd]
  · have hi := instrOf_eq hi
    refine ⟨fun hu => ?_, fun v hv => ?_, fun e he => ?_, takenUp_eq_self⟩
    · rw [step_of_thread h, runThread_uncut hr hd hf hi hu]
    · rw [step_of_thread h, runThread_next hr hd hf hi hv]
    · rw [step_of_thread h, runThread_fault hr hd hf hi he]
  · rw [step_of_thread h, runThread_fetch_fails hr hd hf]
  · rw [step_of_thread h, runThread_fetch_stalls hr hd hf]

end Sys2Proof.Machine
end
